-- ==== Sys2Proof/Word.lean ====
section
/-!
DEFINITION. The word types and the plainest arithmetic over them: 64-bit register words (R5), bytes, saturating and
wrapping counters (R11) and two's complement fields held as naturals.
-/
namespace Sys2Proof

/-- A register word (R5). -/
abbrev Word := BitVec 64

/-- One byte of a memory. -/
abbrev Byte := BitVec 8

/-- `n` units of nanoseconds in the model's unit of elapsed time, a fifth of a nanosecond (REF_CLK has 6.4 ns, R410). -/
abbrev nanos (n : Nat) : Nat := 5 * n

/-- `n` microseconds of elapsed time. -/
abbrev micros (n : Nat) : Nat := 5000 * n

/-- `n` milliseconds of elapsed time. -/
abbrev millis (n : Nat) : Nat := 5000000 * n

/-- `n` seconds of elapsed time. -/
abbrev seconds (n : Nat) : Nat := 5000000000 * n

/-- `n` hours of elapsed time. -/
abbrev hours (n : Nat) : Nat := 18000000000000 * n

end Sys2Proof
end

