-- ==== Sys2Proof/Registers.lean ====
section
/-!
DEFINITION. The register names, access codes and register blocks of the spec (R5, R7, R39, R509), and the shape of
one register field. Which fields a register has, where it lies and what its fields hold at reset is said in
Sys2Proof/Machine/Fields.lean.
-/
namespace Sys2Proof

/-- Access codes of Table 0.2 (R7). -/
inductive Acc where
  | rw | ro | w1c | wo | rwl | rws
  deriving DecidableEq, Repr

/-- Register blocks: those of BAR 0 (R39, R509 and the opening of each chapter's register section) and the BAR 2
block of a virtual function (R511). -/
inductive Block where
  | glb
  | err
  | tim
  | hst
  | sch
  | que
  | wor
  | rad
  | die
  | hbm
  | quad
  | worp
  | ziu
  | lc
  | clu
  | fec
  | strSite
  | strCluster
  | tns
  | tnsCluster
  | cor
  | vec
  | sigEngine
  | mov
  | vf
  deriving DecidableEq, Repr

/-- One constructor for each register name of the spec; a repeated register is one name with an index. -/
inductive RegName where
  | ZIU_CTRL
  | ZIU_ROUTE
  | ZIU_VC1_RESERVE
  | ZIU_PORT_STATE
  | ZIU_PORT_RETRY
  | ZIU_ROUTE_GEN
  | GLB_PART
  | GLB_SHAPE
  | GLB_DIE_STATE
  | GLB_CAPACITY
  | GLB_CAP_GEN
  | TNS_CFG
  | TNS_STATE
  | TNS_PASS_COUNT
  | TNS_ERR
  | TNS_ROWMASK
  | TNS_COLMASK
  | TNS_PASSREC
  | TNS_FIELDMAP
  | TNS_ROUTE
  | TNS_ROUTE_GEN
  | COR_NUMCFG
  | COR_SR_SEED
  | COR_NUM_STICKY
  | COR_NUM_SPECIAL
  | VEC_COMB_CFG
  | VEC_STATE
  | VEC_ERR
  | VEC_ECC_CORR
  | VEC_FTAB_GEN
  | VEC_FTAB
  | SIG_MODE
  | SIG_STATE
  | SIG_STATUS
  | SIG_ACC
  | SIG_ECC_CORR
  | SIG_BASE
  | SIG_LEN
  | SIG_INDEX
  | SIG_STEP
  | FEC_CTRL
  | FEC_STATE
  | FEC_ERR
  | FEC_DEC_BLOCKS
  | FEC_DEC_ITERS
  | FEC_DEC_FAIL
  | FEC_ENC_BLOCKS
  | FEC_EXPIRED
  | FEC_ECC_CORR
  | STR_SITE
  | STR_STATE
  | STR_ERR
  | STR_ECC_CORR
  | STR_RT_SEL
  | STR_RT_ENTRY
  | STR_IN
  | STR_OUT
  | STR_SIG_IN
  | STR_SIG_OUT
  | STR_LINK_SEL
  | STR_LINK_ENTRY
  | STR_CL_ECC_CORR
  | STR_ROUTE_GEN
  | MOV_STATE
  | MOV_ERR
  | MOV_CS_ECC_CORR
  | MOV_DESC_COUNT
  | MOV_LIMITS
  | CLU_STATE
  | CLU_ERR
  | CLU_ECC_CORR
  | CLU_OWN_SEL
  | CLU_OWN_ENTRY
  | CLU_OWN_GEN
  | HBM_STATE
  | HBM_ERR
  | HBM_ECC_CORR
  | HBM_ECC_UNCORR
  | HBM_RESERVE
  | HBM_SCRUB
  | HBM_SCRUB_POS
  | HBM_LC_CTRL
  | HBM_LC_STATE
  | HBM_LC_ERR
  | HBM_LC_ECC_CORR
  | HBM_LC_PF_DROP
  | HBM_XT_SEL
  | HBM_XT_MAP
  | HBM_XT_DEV
  | HBM_XT_GEN
  | GLB_IMG_SRC
  | GLB_IMG_LEN
  | GLB_IMG_TARGET
  | GLB_IMG_ACT_TIME
  | GLB_IMG_DRAIN
  | GLB_IMG_CMD
  | GLB_IMG_STATUS
  | GLB_IMG_DETAIL
  | GLB_IMG_ERR_SEQ
  | GLB_IMG_WINDOW
  | GLB_IMG_COUNTS
  | GLB_DET_SEL
  | GLB_DET_SIG_A
  | GLB_DET_SIG_B
  | GLB_DET_ND_COUNT
  | GLB_DET_GEN
  | GLB_DET_BAR_TARGET
  | GLB_DET_BAR_TIME
  | GLB_DET_BAR_CMD
  | GLB_DET_BAR_STATUS
  | GLB_SENT_CTRL
  | GLB_SENT_RUNS
  | GLB_SENT_SKIPPED
  | GLB_SENT_MISMATCH
  | GLB_SENT_LAST
  | GLB_SENT_ENV
  | SCH_CMD
  | SCH_ARG
  | SCH_CMD_STATUS
  | SCH_POOL
  | SCH_VIOL_UNBOUND
  | SCH_TEN_GEN
  | SCH_TEN_CFG
  | SCH_TEN_BUDGET
  | SCH_TEN_SHARE
  | SCH_TEN_DRAIN
  | SCH_TEN_ENGINE
  | SCH_TEN_VIOL
  | SCH_TEN_RESET
  | QUE_CMD
  | QUE_ARG
  | QUE_CMD_STATUS
  | QUE_EPOCH
  | QUE_SEL
  | QUE_VIEW_Q
  | QUE_VIEW_ACC
  | QUE_VIEW_COMMIT
  | QUE_VIEW_EMIT
  | QUE_GEN
  | QUE_POISON
  | QUE_FRAMES_LOST
  | QUE_JNL
  | SCH_CTRL
  | SCH_LEND_CTRL
  | SCH_CL_SEL
  | SCH_CL_VTIME
  | SCH_CL_TAG
  | SCH_CL_STATE
  | SCH_CTX_SEL
  | SCH_CTX_STATE
  | SCH_GEN
  | SCH_PREEMPTS
  | SCH_URGENT
  | SCH_LENDS
  | SCH_RETURN_MAX
  | RAD_CTRL
  | RAD_CAPACITY
  | RAD_ADMIT
  | RAD_CELL_SEL
  | RAD_CELL_VIEW
  | RAD_CELL_CNT
  | RAD_GLADE_SEL
  | RAD_GLADE_VIEW
  | RAD_GLADE_DRUM
  | RAD_GLADE_FEC
  | RAD_MOVE_ARG
  | RAD_MOVE_TIME
  | RAD_MOVE_CMD
  | RAD_MOVE_STATUS
  | RAD_GEN
  | RAD_FEC_USE
  | RAD_Q_MODE
  | RAD_Q_LINK
  | RAD_Q_MAC
  | RAD_Q_TXCFG
  | RAD_Q_DROP_A
  | RAD_Q_DROP_B
  | RAD_Q_DROP_C
  | RAD_Q_FLOW_SEL
  | RAD_Q_FLOW_KEY
  | RAD_Q_FLOW_MAP
  | RAD_Q_FLOW_POL
  | RAD_Q_FLOW_WIN
  | RAD_Q_FLOW_CNT
  | RAD_Q_GEN
  | RAD_Q_CBS
  | RAD_Q_GATE_CTRL
  | RAD_Q_GATE_BASE
  | RAD_Q_GATE_CYCLE
  | RAD_Q_DEPTH
  | RAD_Q_DELAY
  | RAD_Q_GCL
  | TIM_STATUS
  | TIM_SNAP
  | TIM_SNAP_SEC
  | TIM_SNAP_NS
  | TIM_SET_SEC
  | TIM_SET_NS
  | TIM_STEP
  | TIM_ADJ_CMD
  | TIM_FREQ
  | TIM_PPS_SEC
  | TIM_PPS_NS
  | TIM_SYNCE
  | TIM_TOLL_CTRL
  | TIM_TOLL_START
  | TIM_TOLL_PERIOD
  | TIM_TOLL_STAT
  | TIM_Q_LAT
  | TIM_Q_RXRING
  | TIM_Q_TXRING
  | TIM_Q_RXIDX
  | TIM_Q_TXIDX
  | TIM_Q_TS_HEAD
  | TIM_Q_TS_SEC
  | TIM_Q_TS_POP
  | TIM_Q_TS_STAT
  | TIM_Q_RXDROP
  | WOR_CTRL
  | WOR_STATUS
  | WOR_NODE_SEL
  | WOR_NODE_ROUTE
  | WOR_NODE_STATE
  | WOR_GEN
  | WOR_WIN_ARG
  | WOR_WIN_CMD
  | WOR_WIN_STATUS
  | WOR_INV_ARG
  | WOR_INV_CMD
  | WOR_INV_STATUS
  | WOR_ATOM_TABLE
  | WOR_COUNTS_A
  | WOR_COUNTS_B
  | WOR_MERGE_MAX
  | WOR_WIN_SEL
  | WOR_WIN_VIEW
  | WOR_P_CTRL
  | WOR_P_STATE
  | WOR_P_TX
  | WOR_P_RX
  | WOR_P_SEC
  | WOR_P_DROP
  | WOR_P_RESENT
  | WOR_P_KEY
  | ERR_CTRL
  | ERR_STATUS
  | ERR_RING_ACK
  | ERR_RING_LOST
  | ERR_RD_SEL
  | ERR_RD
  | ERR_RECOVERY
  | ERR_HEALTH
  | ERR_CORE_SEL
  | ERR_CORE_STATE
  | ERR_COUNTS_A
  | ERR_COUNTS_B
  | ERR_GEN
  | ERR_LAST
  | HST_VF_DOORBELL
  | HST_VF_QSTAT
  | HST_VF_CLR_STATUS
  | HST_VF_ELAPSED
  | HST_VF_ENGINE
  | HST_VF_ND_COUNT
  | HST_VF_GROUP
  | HST_VF_IRQ_CTRL
  | HST_VF_IRQ_PEND
  | HST_CTRL
  | HST_CMD
  | HST_PORT
  | HST_EVENTS
  | HST_EVENT_EN
  | HST_POISON
  | HST_XLAT_FAULT
  | HST_OUTSTANDING
  | HST_IDE
  | MGT_STATUS
  | MGT_ELECT
  | MGT_MBX_CMD
  | MGT_MBX_ARG
  | MGT_MBX_STATUS
  | MGT_RCV_CMD
  | MGT_RCV_STATUS
  | MGT_I3C
  | SEC_CTRL
  | SEC_STATE
  | SEC_DSN
  | SEC_NONCE
  | SEC_KEY_SEL
  | SEC_KEY_VIEW
  | SEC_KEY_FLOOR
  | SEC_LOADLOG
  | SEC_IMG_SEL
  | SEC_IMG_ID
  | SEC_IMG_D
  | SEC_GEN
  | DIE_STATE
  | DIE_FW
  | DIE_HEARTBEAT
  | DIE_PINS
  | GLB_PWR_CTRL
  | GLB_PWR_STATUS
  | GLB_PWR_EVENTS
  | GLB_PWR_THR_US
  | GLB_PWR_RESET
  | DIE_THERM
  | DIE_THERM_DC
  | DIE_RAIL
  deriving DecidableEq, Repr

/-- One field of a register: its register, lowest bit, width, access code and reset value. -/
structure Fld where
  reg : RegName
  lo  : Nat
  w   : Nat
  acc : Acc
  rst : Nat
  deriving DecidableEq, Repr

/-- The key of one stored field: the register and lowest bit of the field, the unit that holds its block, and the
index of a repeated register. -/
structure FKey where
  reg  : RegName
  lo   : Nat
  unit : Nat
  idx  : Nat
  deriving DecidableEq, Repr

end Sys2Proof
end

