-- ==== Sys2Proof/Data/Access.lean ====
section
/-!
DEFINITION. What the host says of a register access (R5, R6, R508 to R511), a doorbell's source, and the load arguments.
-/
namespace Sys2Proof

/-- The space an access of the host goes to: BAR 0 of the PF, BAR 2 of a virtual function, configuration space of a function
(0 the PF, n VF n). -/
inductive HostSpace where
  | bar0
  | bar2 (vf : Fin 1024)
  | config (fn : Fin 1024)
  deriving DecidableEq, Repr

/-- Where a doorbell or status access comes from: BAR 2 of a virtual function, or the reach window of an owner, used by
a fabric node. -/
inductive Reach where
  | vf (n : Nat)
  | node (n : Nat) (owner : Nat)
  deriving DecidableEq, Repr

/-- The load argument registers (R244). -/
inductive ImgArg where
  | src | len | target | actTime | drain
  deriving DecidableEq, Repr

end Sys2Proof
end

