-- ==== Sys2Proof/Data/Numeric.lean ====
section
/-!
DEFINITION. The data of exact arithmetic (chapter 3): operand formats, special flags, tree nodes, column lanes and
pending-partial stacks.
-/
namespace Sys2Proof

/-- The operand formats of Table 3.1 (R87). The reserved codes 0xA to 0xF are no format. -/
inductive OpFormat where
  | int8 | int4 | mxfp4 | e4m3 | e5m2 | bf16 | fp16 | int16 | fp32 | cint16
  deriving DecidableEq, Repr

/-- The three special flags of a partial or a node (R93). -/
structure Flags where
  nan : Bool := false
  pinf : Bool := false
  ninf : Bool := false
  deriving DecidableEq, Repr

/-- A tree node (R102, R103). Its value is `(2n + s) * 2^(x - 1)`. In window mode `n * 2^x` is a binary64 value and
`s` is false. -/
structure Node where
  n : Int := 0
  x : Int := 0
  s : Bool := false
  flags : Flags := {}
  deriving DecidableEq, Repr

/-- A column lane (R91): the sum `s1` of the running block, the sum `s0` of rows 0 to 31 of an MX-FP4 granule (R96),
the sticky bit of R99, and the special flags of R93. -/
structure Lane where
  s0 : Int := 0
  s1 : Int := 0
  t : Bool := false
  flags : Flags := {}
  deriving DecidableEq, Repr

/-- A granule partial (R92, Table 3.3) in 96 bits: the sum S, the two halves of MX-FP4, or a binary64 value; with its sticky bit and
special flags. -/
structure GranPartial where
  bits : BitVec 96
  t : Bool := false
  flags : Flags := {}
  deriving DecidableEq, Repr

/-- A pending-partial stack (R105), top first: nodes with their levels. -/
abbrev PStack := List (Node × Nat)

/-- The value of one element or of one floating-point number: `(-1)^neg * m * 2^e`, an infinity, or NaN. -/
inductive FVal where
  | nan
  | inf (neg : Bool)
  | fin (neg : Bool) (m : Nat) (e : Int)
  deriving DecidableEq, Repr

/-- The rounding modes of R116. -/
inductive RoundMode where
  | nearestEven | towardZero | stochastic
  deriving DecidableEq, Repr

/-- The output codes of Table 3.6 (R117). -/
inductive OutFormat where
  | int32 | fp32 | bf16 | fp16 | e4m3 | e5m2 | int8 | fp64
  deriving DecidableEq, Repr

/-- How the passes of a reduction slice their operands (COR_NUMCFG SLICE). -/
inductive Slicing where
  | none | int16Four | fp32Nine | fp32Six
  deriving DecidableEq, Repr

/-- A clearing's numeric-mode settings: the fields of COR_NUMCFG and the seed of COR_SR_SEED (R119). -/
structure NumCfg where
  format : OpFormat := .int8
  slice : Slicing := .none
  out : OutFormat := .int32
  round : RoundMode := .nearestEven
  sat : Bool := false
  arrival : Bool := false
  determinism : Bool := true
  seed : Nat := 0
  deriving DecidableEq, Repr

end Sys2Proof
end

