-- ==== Sys2Proof/Data/Units.lean ====
section
/-!
DEFINITION. The units of the package and their numbering (R12 to R14, R21), and the outcomes of an error-correcting
code that an event brings with it.
-/
namespace Sys2Proof

/-- A die (0 to 7). -/
abbrev Die := Fin 8

/-- A package cluster, 2d + c (R21); its FEC block carries the same number. -/
abbrev Cluster := Fin 16

/-- A package HBM stack, 2d + h (R21). -/
abbrev Stack := Fin 16

/-- A package SerDes quad, 2d + q (R21). -/
abbrev Quad := Fin 16

/-- A core site of the package: package cluster * 72 + physical site index (R13). -/
abbrev Site := Fin 1152

/-- A signal engine of the package: site * 2 + engine. -/
abbrev SigEngine := Fin 2304

/-- What an error-correcting code found in the words an event touched. -/
inductive Ecc where
  | clean | corrected | uncorrectable
  deriving DecidableEq, Repr

/-- What the code of a FIFO, router buffer or link found in an entry (R186, R187): nothing, a corrected bit, an
uncorrectable payload word (of a flit 0 to 3, of the lanes of a position 0 to 7, of a 256-byte line 0 to 31), or an
uncorrectable tag or exponent word. -/
inductive EntryEcc where
  | clean | corrected | payload (w : Fin 32) | tagWord
  deriving DecidableEq, Repr

/-- An item of a queue: global queue and 48-bit sequence. -/
structure ItemRef where
  queue : Nat
  item : Nat
  deriving DecidableEq, Repr

end Sys2Proof
end

