-- ==== Sys2Proof/Machine/Tab.lean ====
section
/-!
DEFINITION. Tables as plain data: an association list with one entry per key, found by the first match. Every table
of the machine (stored register fields, streams, contexts, queues, records) is one of these.
-/
namespace Sys2Proof

/-- A table from keys to values. -/
abbrev Tab (κ ν : Type) := List (κ × ν)

namespace Tab

variable {κ ν : Type} [DecidableEq κ]

/-- The entry of a key, if it has one. -/
def find (t : Tab κ ν) (k : κ) : Option ν :=
  match t with
  | [] => none
  | (k', v) :: r => if k' = k then some v else find r k

/-- The entry of a key, or what a key without one stands for. -/
def findD (t : Tab κ ν) (k : κ) (d : ν) : ν := (t.find k).getD d

/-- The table with one entry set: replaced in place, or added at the end. -/
def put (t : Tab κ ν) (k : κ) (v : ν) : Tab κ ν :=
  match t with
  | [] => [(k, v)]
  | (k', v') :: r => if k' = k then (k, v) :: r else (k', v') :: put r k v

/-- The table without the entries of one key. -/
def del (t : Tab κ ν) (k : κ) : Tab κ ν :=
  match t with
  | [] => []
  | (k', v') :: r => if k' = k then del r k else (k', v') :: del r k

/-- The table with the entry of a key changed, or as it was where there is none. -/
def modify (t : Tab κ ν) (k : κ) (f : ν → ν) : Tab κ ν :=
  match t with
  | [] => []
  | (k', v') :: r => if k' = k then (k', f v') :: r else (k', v') :: modify r k f

/-- Whether a key has an entry. -/
def has (t : Tab κ ν) (k : κ) : Bool := (t.find k).isSome

/-- The entries that meet a condition. -/
def keep (t : Tab κ ν) (p : κ → ν → Bool) : Tab κ ν := t.filter fun e => p e.1 e.2

/-- The table with every value changed. -/
def mapVal (t : Tab κ ν) (f : κ → ν → ν) : Tab κ ν := t.map fun e => (e.1, f e.1 e.2)

end Tab
end Sys2Proof
end

