-- ==== Sys2Proof/Data/Streams.lean ====
section
/-!
DEFINITION. The data of streams (chapter 5): tags, entries, ports, routes and router buffers.
-/
namespace Sys2Proof

/-- STATUS values of a tag in the order of their ranks (R168, Table 5.3). -/
inductive TagStatus where
  | good | absent | late | failed
  deriving DecidableEq, Repr

/-- The 64-bit tag (R165, Table 5.2). -/
structure Tag where
  owner : Nat := 0x7FF
  stream : Nat := 0
  granule : Nat := 0
  bank : Bool := false
  eop : Bool := false
  eoi : Bool := false
  status : TagStatus := .good
  seq : Nat := 0
  deriving DecidableEq, Repr

/-- A stream flit: a tag and four payload words (R172); for a mover transfer, the tag and its payload. -/
structure Entry where
  tag : Tag
  words : List Nat
  /-- the lowest record raised on this entry, which the queue agent learns (R468) -/
  err : Option Nat := none
  deriving DecidableEq, Repr

/-- The stream ports of a site, of a signal engine and of a FEC block (R163, 5.4). -/
inductive PortId where
  | ingress (site : Site) (p : Fin 8)
  | egress (site : Site) (p : Fin 8)
  | sigIn (e : SigEngine)
  | sigOut (e : SigEngine)
  | fecIn (c : Cluster) (k : Nat)
  | fecOut (c : Cluster) (k : Nat)
  deriving DecidableEq, Repr

/-- Where the payload of a flit that a site's vector engine gives lies (4.1): `n` words of core store, `n` words of a vector register
from its element `i` on, the next results of the conversion stage, or nowhere (the zero payload of R171). -/
inductive FlitSrc where
  | store (addr n : Nat)
  | reg (r i n : Nat)
  | results
  | zero
  deriving DecidableEq, Repr

/-- What the unit that feeds an egress port gives for one flit of an item (R168, R171, R172): its payload words, of which a flit has
four, the missing ones zero; whether it is the item's last on this stream; and what it is formed from: the ingress ports of the
site whose item it serves, the first `results` elements that the conversion stage has written, and the unit's own status, Failed
where it cannot produce the output. -/
structure OutFlit where
  src : FlitSrc
  last : Bool
  ports : List (Fin 8) := []
  results : Nat := 0
  own : TagStatus := .good
  deriving DecidableEq, Repr

/-- What a bound port holds: its stream, the log2 of its own FIFO's depth, the entries in its FIFO, and, for a
producer, its credits (R177). A stopped port belongs to a stopped stream (R187, R180). -/
structure Port where
  stream : Nat
  depthLog2 : Nat
  fifo : List Entry := []
  credits : Nat := 0
  stopped : Bool := false
  /-- 16-bit words of a signal engine's output flit not yet sent, oldest first (R172) -/
  packed : List Nat := []
  /-- the tag those words will take -/
  packTag : Tag := {}
  packErr : Option Nat := none
  /-- words of the head flit a signal engine's IN has taken -/
  taken : Nat := 0
  /-- what the consumer has read of its item: an entry without words, with the item's sequence, the highest status and the lowest
  record of its flits (R168) -/
  seen : Entry := { tag := {}, words := [] }
  /-- sequences of items whose last flit the producer has sent (R171) -/
  ended : List Nat := []
  deriving DecidableEq, Repr

/-- What arrives at a unit that compares owners (R167): the next flit at a stream port, or an entry at a core store port
or a mover, with the 64-byte block of core store that it goes to or that the mover reads. -/
inductive Arrival where
  | port (p : PortId)
  | coreStore (site : Site) (e : Entry) (block : Fin 24576)
  | mover (site : Site) (e : Entry) (block : Fin 24576)
  deriving DecidableEq, Repr

/-- Link directions of a router, and its local ports. -/
inductive Dir where
  | east | west | north | south | localPort
  deriving DecidableEq, Repr

/-- A stream of a cluster (R175, R178): its ends, its owner, whether it is a glade stream, its reserved slots, and the
two contexts it joins. -/
structure StreamRec where
  owner : Nat
  producer : PortId
  consumer : PortId
  glade : Bool
  res : Nat
  prodCtx : Nat := 0
  consCtx : Nat := 0
  stopped : Bool := false
  deriving DecidableEq, Repr

/-- A route entry of a router (Table 5.7, STR_RT_ENTRY). -/
structure RouteEnt where
  out : Dir
  port : Nat
  glade : Bool
  res : Nat
  deriving DecidableEq, Repr

/-- One input buffer of a router: the site, the side it faces, and whether it serves reserved streams (5.5). -/
structure BufKey where
  site : Nat
  side : Dir
  reserved : Bool
  deriving DecidableEq, Repr

/-- The stream state (chapter 5) that no register holds. -/
structure StreamSt where
  ports : Tab PortId Port := []
  /-- streams by package cluster and number -/
  streams : Tab (Nat × Nat) StreamRec := []
  /-- route entries by site and stream -/
  routes : Tab (Nat × Nat) RouteEnt := []
  bufs : Tab BufKey (List Entry) := []
  /-- slots a stream has used in the current window of a link direction -/
  used : Tab (Nat × Dir × Nat) Nat := []
  /-- the stream last sent by round robin on a link direction -/
  rr : Tab (Nat × Dir) Nat := []
  deriving DecidableEq, Repr

end Sys2Proof
end

