-- ==== Sys2Proof/Data/Tensor.lean ====
section
/-!
DEFINITION. The data of tensor engines and stitched fields (chapter 2), with the combining stage's nodes (3.7).
-/
namespace Sys2Proof

/-- A streamed operand of one block row, as one FEED wrote it (R208, R209): where its lines lie in core store, its
positions, and the control its tags carry. Window formats carry E_a for each position (absent where the control entry
is not VALID), FP32 digits carry the whole elements, MX-FP4 the scale codes of its two blocks for each item. -/
structure FeedSeg where
  site : Nat
  addr : Nat
  count : Nat
  digit : Nat
  granule : Nat
  bank : Bool
  seq : Nat
  status : TagStatus
  eop : Bool
  eoi : Bool
  exps : List (Option Int) := []
  whole : List (List Nat) := []
  scales : List (Nat × Nat) := []
  item : Option ItemRef := none
  /-- positions released so far -/
  next : Nat := 0
  deriving DecidableEq, Repr

/-- One load of one column (R64, R173, R210): its place in the order of loads, the bank bit of its descriptor, its
elements in the order they enter (row H - 1 first), and which of them carries end of pass (the place of the last where the
mover sent any). Each block row's run has a control entry: its tag in `tags`, its E_b in `exps` (absent where the entry is
not VALID); MX-FP4 scale codes stand in `scales`. A masked column takes no element (R74). -/
structure ColLoad where
  ord : Nat
  bank : Bool
  digit : Nat
  els : List Nat
  eop : Nat
  tags : List Tag := []
  exps : List (Option Int) := []
  scales : List (Nat × Nat) := []
  masked : Bool := false
  item : Option ItemRef := none
  deriving DecidableEq, Repr

/-- What one column of a bank holds, row 0 first. -/
structure ColBank where
  els : List Nat := []
  digit : Nat := 0
  /-- the highest status among the control entries of the load that filled it (R168) -/
  status : TagStatus := .good
  exps : List (Option Int) := []
  scales : List (Nat × Nat) := []
  deriving DecidableEq, Repr

/-- What the image says of a pass of a field: the stream number of its results (R77, 3.8), and where its first item and the field's
column 0 lie in the output tensor (R118). -/
structure PassPlan where
  stream : Nat := 0
  row : Nat := 0
  col : Nat := 0
  deriving DecidableEq, Repr

/-- The first positions of a pass, at most 64, as its engines' sample records may need them (R274): the pass's record and digit,
the content of its bank column by column, of each position the elements, exponents and scale codes by block row, its first item, since
when it runs, and the sites that have captured it. -/
structure PassHead where
  record : Nat
  digit : Nat
  bank : List ColBank := []
  pos : List (List (List Nat) × List (Option Int) × List (Nat × Nat)) := []
  since : Nat := 0
  item : Option ItemRef := none
  captured : List Nat := []
  deriving DecidableEq, Repr

/-- An item position inside the array (R57): its entry position, the steps it has taken, control bits, pass record,
streamed elements and exponents by block row, the lanes and pending-partial stacks of its columns, in each column one
for each item of the position (R89, R91), and the place of its first item within its pass. `lost` marks a position that
gives no result (R78, R174). `zeros` are payload words that a FIFO could not correct (R187): of the operand lanes of a block row from
a block column on, eight words of eight lanes. -/
structure PosSt where
  e : Nat
  age : Nat := 0
  bank : Bool
  digit : Nat
  eop : Bool
  eoi : Bool
  status : TagStatus
  seq : Nat
  granule : Nat
  pass : Nat
  els : List (List Nat)
  exps : List (Option Int)
  scales : List (Nat × Nat)
  lanes : List (List Lane)
  pstacks : List (List PStack)
  row : Nat
  item : Option ItemRef
  lost : Bool := false
  zeros : List (Nat × Nat × Nat) := []
  /-- the number of its pass, as `FieldSt.passes` counts -/
  no : Nat := 0
  /-- where the results of its pass lie, and their stream (R77, R118) -/
  plan : PassPlan := {}
  deriving DecidableEq, Repr

/-- A result of one column of a field's south edge (R77): its tag, node and level, and the element's logical row and
column. -/
structure FieldResult where
  tag : Tag
  node : Node
  level : Nat
  row : Nat
  col : Nat
  digits : Nat × Nat
  item : Option ItemRef
  deriving DecidableEq, Repr

/-- A field that is configured on a core set (chapter 2). `sites` lists the engines row by row. -/
structure FieldSt where
  owner : Nat
  glade : Bool := false
  shape : Nat
  sites : List Nat
  format : OpFormat := .int8
  /-- the stream number of results where the image lists no passes -/
  stream : Nat := 0
  /-- the passes of the image, in their order, which repeats (log entry 138) -/
  passPlans : List PassPlan := []
  /-- passes of the field's sequence so far, those that did not enter included (R576) -/
  order : Nat := 0
  /-- positions of row 0 since the first release, items and bubbles; meaningful once `started` (R575) -/
  t : Nat := 0
  started : Bool := false
  west : Tab Nat (List FeedSeg) := []
  loads : Tab Nat (List ColLoad) := []
  /-- elements a column has taken of the load at the head of its queue -/
  taken : Tab Nat Nat := []
  /-- loads a column has finished -/
  done : Tab Nat Nat := []
  /-- loads each block column's mover has sent -/
  sent : Tab Nat Nat := []
  banks : Tab (Bool × Nat) ColBank := []
  /-- banks whose content is undefined, with the load that left them so and its record (R577) -/
  bad : Tab Bool (Nat × Nat) := []
  /-- banks whose load lane failed parity, likewise (R78) -/
  parity : Tab Bool (Nat × Nat) := []
  inArray : List PosSt := []
  out : Tab Nat (List FieldResult) := []
  /-- pass record in force -/
  rec_ : Nat := 0
  /-- a pass is being released -/
  passOpen : Bool := false
  /-- block rows at which a pass that does not enter the field is still arriving (R576) -/
  discard : List Nat := []
  bank : Bool := false
  granule : Nat := 0
  /-- bank of the pass before -/
  prevBank : Option Bool := none
  /-- bank of the first load, as its descriptor names it, until the first pass has come -/
  first : Option Bool := none
  /-- swapping passes that did not enter and whose load is not complete, by number, with their bank (R576) -/
  owed : Tab Nat Bool := []
  /-- swapping passes so far, those that did not enter included (R576) -/
  swaps : Nat := 0
  passes : Nat := 0
  /-- first positions of the passes that are in the field, by number (R274) -/
  heads : Tab Nat PassHead := []
  /-- no pass has begun since the field was configured or resumed -/
  fresh : Bool := true
  /-- banks that held content when the field was configured or resumed (R62) -/
  had : List Bool := []
  hold : Bool := false
  stopping : Bool := false
  stopped : Bool := true
  /-- items released so far of the pass in force -/
  items : Nat := 0
  deriving DecidableEq, Repr

/-- An event of a lane in a step: a lane that failed parity (R78), with the entry position or the bank it touched; an
end-of-load marker that comes on element `at_` of a column's load, counted from 0 (R577); or what the code of a FIFO found (R186,
R187) in an entry that the engine of block row `b` and block column `c` reads: a position from the west (at column 0 from core store,
elsewhere over the field boundary), a position from the engine above, or the elements of the load lanes from there; or what the code of
core store found in a word of the FEED lines that block row `b` reads for its next position (R200). -/
inductive LaneFault where
  | operand (e : Nat)
  | partialLane (e : Nat)
  | load (bank : Bool)
  | marker (col : Fin 512) (at_ : Nat)
  | westFifo (b c : Fin 8) (e : Nat) (ecc : EntryEcc)
  | northFifo (b c : Fin 8) (e : Nat) (ecc : EntryEcc)
  | loadFifo (b c : Fin 8) (ecc : EntryEcc)
  | feedWord (b : Fin 8) (ecc : Ecc)
  deriving DecidableEq, Repr

/-- A node that waits in a combining area (R107, R126), or a slice root that waits for the others (R128).
`departed` says that an addition below it joined nodes that are no canonical siblings (R267). The logical row and column
name the output element (R118). -/
structure WaitNode where
  reduction : Nat
  row : Nat
  col : Nat
  granule : Nat
  level : Nat
  node : Node
  tag : Tag
  item : Option ItemRef
  departed : Bool := false
  /-- the binary64 value of a node of a vector sum (R124), which takes the place of `node` -/
  vec : Option FVal := none
  deriving DecidableEq, Repr

/-- What the image's split plan says of one reduction at one combining stage (R107, R108, R112): its number of
granules, the nodes that come to this stage, subtrees assigned to no unit, whether a piece of it is unaligned (set from
the PLAN section), the slice the reduction computes, and where the stage's own root sits in the tree. -/
structure SplitPlan where
  reduction : Nat
  granules : Nat
  nodes : List (Nat × Nat)
  absent : List (Nat × Nat) := []
  unaligned : Bool := false
  slice : Option (Nat × Nat) := none
  /-- a sum over elements of vector engines (R124), whose root is rounded to FP32, or to BF16 where this says so -/
  vector : Option Bool := none
  rootGranule : Nat := 0
  rootLevel : Nat := 0
  tensor : Nat := 0
  stream : Nat := 0
  /-- the root of this stage is the root of the reduction, and is converted here -/
  final : Bool := true
  deriving DecidableEq, Repr

/-- The combining stage and conversion stage of one core (3.7, 3.10, 4.2). -/
structure CombSt where
  plans : List SplitPlan := []
  waiting : List WaitNode := []
  slices : List WaitNode := []
  /-- nodes of arrival-order reductions, summed so far with the number received (R108, R109) -/
  arrival : List (WaitNode × Nat) := []
  /-- roots of this stage that go on to another stage, oldest first -/
  forward : List WaitNode := []
  /-- elements converted: tag, code, logical row and column, and the bits of the code, oldest first -/
  out : List (Tag × Nat × Nat × Nat × Nat) := []
  deriving DecidableEq, Repr

/-- Where a node comes from: the south edge of a field's column, another combining stage, or core store, where movers bring the partial
nodes of other devices (R107, Table 8.1), with the stream, granule, and element that the program gives it. -/
inductive NodeSrc where
  | field (anchor : Site) (col : Fin 512)
  | stage (site : Site)
  | store (addr : Fin 1572833) (stream : Fin 4096) (granule : Fin 65536) (level : Fin 17) (row col : BitVec 32) (item : ItemRef)
  deriving DecidableEq, Repr

end Sys2Proof
end

