-- ==== Sys2Proof/Data/Determinism.lean ====
section
/-!
DEFINITION. The data of barriers and sentinel re-runs (chapter 8).
-/
namespace Sys2Proof

/-- The armed barrier (8.4): its owner, T in TAI nanoseconds, whether T has been reached, the contexts not yet released,
and how late the release is so far. -/
structure BarSt where
  owner : Nat
  t : Nat
  reached : Bool := false
  left : List Nat := []
  late : Nat := 0
  /-- a step went past T, be it by a fraction of a nanosecond (Table 8.2) -/
  stepped : Bool := false
  deriving DecidableEq, Repr

/-- Temperature and core voltage of a core (R277), as its sensors read them. -/
structure CoreEnv where
  temp : Nat
  mv : Nat
  deriving DecidableEq, Repr

/-- What GLB_SENT_ENV_u records of a core (R277): its sensors, core clock and neighbour load. -/
structure CoreRun where
  env : CoreEnv
  mhz : Nat
  neigh : Nat
  deriving DecidableEq, Repr

/-- What a sample record holds of an engine-pass (R274): format, slice digits of the streamed and of each column's stationary
elements, row and column masks, the bank's elements column by column with each column's E_b and scale codes, and of each of the first
positions the elements of its items with E_a and their scale codes. -/
structure EnginePass where
  format : OpFormat
  digit : Nat
  rowMask : Nat
  colMask : Nat
  bank : List ColBank
  exps : List (Option Int)
  scales : List (Nat × Nat) := []
  ops : List (List (List Nat) × Option Int × List (Nat × Nat))
  deriving DecidableEq, Repr

/-- A sample record (R274): the engine, whose pass it was, what the engine-pass worked on, the captured granule partials with their
sticky bits and flags, the environment of the pass, since when it waits, its checker and arbiter, and, once it mismatched, what
the checker got. -/
structure Sample where
  site : Nat
  owner : Nat
  item : Option ItemRef
  pass : EnginePass
  partials : List GranPartial
  env : CoreRun
  since : Nat
  checker : Option Nat := none
  mismatch : Option (List GranPartial) := none
  arbiter : Option Nat := none
  /-- since when the checker, or the arbiter, runs it -/
  runSince : Nat := 0
  /-- the record of the original core, and whether this sample owns GLB_SENT_LAST -/
  seq : Nat := 0
  shown : Bool := false
  deriving DecidableEq, Repr

/-- The state of barriers and sentinels. -/
structure DetSt where
  bar : Option BarSt := none
  /-- sample records in the sentinel reserve of each die, oldest first -/
  samples : Tab Nat (List Sample) := []
  /-- engine-passes that the engine of each site has begun (R274) -/
  passes : Tab Nat Nat := []
  /-- when the tensor engine of a site last ran (R277) -/
  ran : Tab Nat Nat := []
  deriving DecidableEq, Repr

end Sys2Proof
end

