-- ==== Sys2Proof/Data/Engines.lean ====
section
/-!
DEFINITION. The data of vector engines, signal engines and FEC blocks (chapter 4).
-/
namespace Sys2Proof

/-- A vector operand: a vector register, or a vector of core store at a byte address (4.1). -/
inductive VLoc where
  | reg (r : Fin 32)
  | store (addr : Nat)
  deriving DecidableEq, Repr

/-- A vector operand with its element format: FP32, or BF16 (R121). -/
structure VOpnd where
  loc : VLoc
  bf16 : Bool := false
  deriving DecidableEq, Repr

/-- What every vector operation names: the core site, the destination, what the code of the registers found (R141) and that of the
core-store words it reads (R200), and the item whose data it works on. -/
structure VCtl where
  site : Site
  dst : VOpnd
  ecc : Ecc := .clean
  store : Ecc := .clean
  item : Option ItemRef := none
  deriving DecidableEq, Repr

/-- A piece of a sum that spans several cores (R124): elements `first` to `first + 2^level - 1`, the stream number by which
its split plan knows it, and the output element. -/
structure SumPiece where
  first : Nat
  level : Nat
  stream : Nat
  row : Nat := 0
  col : Nat := 0
  deriving DecidableEq, Repr

/-- The relations an elementwise compare may test. -/
inductive VRel where
  | lt | le | eq | ne | ge | gt
  deriving DecidableEq, Repr

/-- A function table header (R131 to R133, Table 4.2); `lo`, `hi`, `left` and `right` are FP32 encodings. -/
structure FtabHdr where
  kind : Nat
  func : Nat
  maxErr : Nat
  lo : Nat := 0
  hi : Nat := 0
  left : Nat := 0
  right : Nat := 0
  deriving DecidableEq, Repr

/-- An operand of a signal operation (Table 4.5): X or Y through a generator, with or without post-update, or a
general register. Generators 0 to 7 address X and 8 to 15 address Y (4.6). -/
inductive SigOpnd where
  | x (g : Fin 8) (post : Bool)
  | y (g : Fin 8) (post : Bool)
  | reg (n : Fin 16)
  deriving DecidableEq, Repr

/-- The field of a generator that SETAG writes. -/
inductive AgField where
  | base | len | index | step
  deriving DecidableEq, Repr

/-- The value SETAG writes: a constant of the program or an operand. -/
inductive SigVal where
  | imm (v : Nat)
  | opnd (o : SigOpnd)
  deriving DecidableEq, Repr

/-- What OUT sends: one word, the stored ACC, or nothing but the end of an item. -/
inductive OutSrc where
  | word (o : SigOpnd)
  | acc
  | nothing
  deriving DecidableEq, Repr

/-- The data memories of a signal engine. -/
inductive SigMem where
  | x | y
  deriving DecidableEq, Repr

/-- A descriptor waiting in a FEC block (R151): its eight words, its tag, the input stream it came on, its place in
that stream's arrival order, and its item. -/
structure FecEntry where
  words : List Nat
  tag : Tag
  stream : Nat
  order : Nat
  item : Option ItemRef
  deriving DecidableEq, Repr

/-- A result record waiting in the reorder buffer (R153, R157). -/
structure FecResult where
  stream : Nat
  order : Nat
  tag : Tag
  word : Nat
  deriving DecidableEq, Repr

/-- One FEC block. -/
structure FecBlock where
  decQ : List FecEntry := []
  encQ : List FecEntry := []
  dec0 : Option FecEntry := none
  dec1 : Option FecEntry := none
  enc : Option FecEntry := none
  reorder : List FecResult := []
  /-- descriptors that have arrived on each input stream -/
  arrived : Tab Nat Nat := []
  /-- results emitted for each input stream -/
  emitted : Tab Nat Nat := []
  /-- the stage the image names for the results of an input stream (R157) -/
  resultPort : Tab Nat PortId := []
  deriving DecidableEq, Repr

/-- The state of the engines (chapter 4) that no register holds. -/
structure EngineSt where
  /-- when the vector engine of a site last wrote a result (R354) -/
  vecAt : Tab Nat Nat := []
  /-- the 128 elements of a vector register, by site and register; all 0 where none is listed -/
  vregs : Tab (Nat × Nat) (List Nat) := []
  /-- headers of the function tables, the same in every engine (R131) -/
  ftab : Tab Nat FtabHdr := []
  /-- identifier of the table set -/
  ftabSet : Nat := 0
  /-- general registers of the signal engines, 16 bits -/
  gregs : Tab (Nat × Nat) Nat := []
  /-- words of the data memories of the signal engines -/
  sigMem : Tab (Nat × SigMem × Nat) Nat := []
  /-- instructions of the loaded program of an engine, as the image holds them (R123) -/
  sigProg : Tab Nat (List Nat) := []
  /-- how many more times the next instruction repeats -/
  sigRepeat : Tab Nat Nat := []
  /-- what each signal engine knows of its item, as an entry without words: its sequence, highest status, lowest record -/
  sigItem : Tab Nat Entry := []
  /-- the vector program of each site, as the image holds it (R123) -/
  vecProg : Tab Nat (List Nat) := []
  fec : Tab Nat FecBlock := []
  /-- by window of R394, owner, FEC block, and decoders (false) or encoder (true): the cycles they have been occupied, and whether the
  window has been counted as one of excess -/
  fecUse : Tab (Int × Nat × Nat × Bool) (Nat × Bool) := []
  deriving DecidableEq, Repr

end Sys2Proof
end

