-- ==== Sys2Proof/Data/Errors.lean ====
section
/-!
DEFINITION. The data of errors and recovery (chapter 15): error records, recovery units and chains, site states.
-/
namespace Sys2Proof

/-- The error classes of Table 15.2 (R464). -/
inductive ErrClass where
  | program | laneParity | dataUncorr | scrubUncorr | coreUncorr | coreHang | coreWrong | suspect | quadrant
  | cluster | stack | fec | quad | die | package | link | deadNode | effect | poison | rerunLimit | returnOver
  | orphaned | streamRoute | journalLost
  deriving DecidableEq, Repr

/-- The unit a containment stops, or a recovery works over (R463, 15.3). -/
inductive RecUnit where
  | row (r : Nat)        -- package row: package cluster * 8 + row
  | quadrant (q : Nat)   -- die * 4 + quadrant
  | cluster (c : Nat)
  | stack (k : Nat)
  | fec (c : Nat)
  | quad (q : Nat)
  | die (d : Nat)
  | package
  deriving DecidableEq, Repr

/-- An error record (R467, Table 15.3). -/
structure ErrRecord where
  seq : Nat := 0
  cls : Nat := 0
  level : Nat := 7
  escalated : Bool := false
  sec : Nat := 0
  ns : Nat := 0
  epoch : Nat := 0
  die : Nat := 0
  cluster : Nat := 0
  site : Nat := 0
  stack : Nat := 0
  quad : Nat := 0
  unit : Nat := 0
  sub : Nat := 0
  action : Nat := 0
  owner : Nat := 0
  loc : Bool := false
  owned : Bool := false
  queue : Nat := 0
  item : Nat := 0
  causeSeq : Nat := 0
  detail : Nat := 0
  deriving DecidableEq, Repr

/-- What a unit that detects an error reports (R464, R467): the class and SUB, the die that detects it, where it lies,
whom it concerns, what the record says of it, and the unit a containment of level 1 or above stops. -/
structure ErrInfo where
  cls : ErrClass
  sub : Nat := 0
  die : Nat := 0
  site : Option Nat := none
  stack : Nat := 0
  quad : Nat := 0
  unit : Nat := 0
  action : Option Nat := none
  owner : Option Nat := none
  item : Option ItemRef := none
  causeSeq : Nat := 0
  detail : Nat := 0
  recUnit : Option RecUnit := none
  deriving DecidableEq, Repr

/-- A recovery that waits or runs: the first error of its chain, its level, the contained unit, and the failed site of
a level-1 recovery (R471). -/
structure Chain where
  first : Nat
  level : Nat
  unit : RecUnit
  site : Option Nat
  deriving DecidableEq, Repr

/-- The states of Table 15.6. -/
inductive SiteState where
  | good | suspect | probation | retired | failed | disabled | contained
  deriving DecidableEq, Repr

/-- What the device keeps of one core site (15.8): its state, when its probation began, the samples compared during
it, the corrected errors of an hour of the elapsed time with that hour's number, and the last hour in which they reached the
limit (R493). -/
structure SiteRec where
  state : SiteState := .good
  probStart : Nat := 0
  samples : Nat := 0
  ceHour : Nat := 0
  ceStart : Nat := 0
  ceHit : Option Nat := none
  deriving DecidableEq, Repr

/-- The state of error handling (chapter 15) that no register holds. -/
structure ErrSt where
  /-- slot to record (R469); both copies hold the same -/
  ring : Tab Nat ErrRecord := []
  /-- the last record each die detected (ERR_LAST_d) -/
  last : Tab Nat ErrRecord := []
  /-- queued recoveries, in chain order (R471) -/
  queue : List Chain := []
  /-- the running recovery -/
  running : Option Chain := none
  /-- the sites whose state is not the plain Good of a new part -/
  sites : Tab Nat SiteRec := []
  /-- active-site mask of a package row, where it is not columns 0 to 7 (R12) -/
  rowMask : Tab Nat Nat := []
  /-- owners orphaned and not yet reloaded, reset or removed, with the sequence of the error -/
  orphans : Tab Nat Nat := []
  /-- units out of service since start-up -/
  out : List RecUnit := []
  /-- elapsed times of uncorrectable errors of a FEC block in the last second (R485) -/
  fecTimes : Tab Nat (List Nat) := []
  /-- elapsed times of failed trainings of a quad in the last second (R486) -/
  quadFails : Tab Nat (List Nat) := []
  /-- heartbeats a die has missed in a row (R487) -/
  missed : Tab Nat Nat := []
  /-- when the next heartbeat is due (R487) -/
  heartAt : Nat := 0
  /-- protected groups a containment stopped, whose standby is to be released: glade, group, and the record (R490) -/
  standby : List (Nat × Nat × Nat) := []
  /-- a level-5 containment asks for a warm reset (R463) -/
  packageStop : Bool := false
  deriving DecidableEq, Repr

end Sys2Proof
end

