-- ==== Sys2Proof/Data/Spdm.lean ====
section
/-!
DEFINITION. What passes between a requester and Mewait as SPDM responder (17.6, R520): requests and answers by their content;
the encodings are those of the DMTF specifications that 17.6 names.
-/
namespace Sys2Proof

/-- An SPDM request. `ideKeys` is a key setting of IDE_KM or CXL_IDE_KM inside a secured session (R521). -/
inductive SpdmReq where
  | version | capabilities | algorithms
  | digests
  | certificate (slot : Nat)
  | challenge (slot : Nat)
  | measurements (index : Nat)
  | keyExchange
  | respondIfReady
  | finish (session : Nat)
  | keyUpdate (session : Nat)
  | endSession (session : Nat)
  | ideKeys (session : Nat) (cache : Bool)
  | other
  deriving DecidableEq, Repr

/-- A request as its code and operands. -/
def SpdmReq.code : SpdmReq → List Nat
  | .version => [0x84] | .capabilities => [0xE1] | .algorithms => [0xE3] | .digests => [0x81]
  | .certificate n => [0x82, n] | .challenge n => [0x83, n] | .measurements i => [0xE0, i] | .keyExchange => [0xE4]
  | .respondIfReady => [0xFF] | .finish n => [0xE5, n] | .keyUpdate n => [0xE9, n] | .endSession n => [0xEA, n]
  | .ideKeys n c => [0xFE, n, if c then 1 else 0] | .other => [0]

/-- The element of the OpaqueData field of a signed answer, in the DMTF general opaque data format (R539): the registry and the vendor
that its identifier names, and the SLH-DSA signature. -/
structure OpaqueElem where
  registry : Nat
  vendor : Nat
  slh : List (BitVec 8)
  deriving DecidableEq, Repr

/-- The signatures of an answer over one transcript hash (R539): the negotiated RSASSA-3072 signature, and the element that carries the
other. -/
structure SpdmSig where
  rsa : List (BitVec 8)
  elem : OpaqueElem
  deriving DecidableEq, Repr

/-- An answer of Mewait. A challenge or measurement answer carries both signatures of R539; `notReady` is ResponseNotReady with its
RDTM in seconds. -/
inductive SpdmRsp where
  | error
  | notReady (rdtm : Nat)
  | version (major minor : Nat)
  | capabilities | algorithms
  | digests (slots : List Nat)
  | certificate (slot : Nat) (chain : List (BitVec 8))
  | challengeAuth (slot : Nat) (sig : SpdmSig)
  | measurements (blocks : List (Nat × List (BitVec 8))) (sig : SpdmSig)
  | session (id : Nat)
  | done
  deriving DecidableEq, Repr

/-- What a DOE data object carries (R520). -/
inductive DoeBody where
  | discovery (index : Nat)
  | spdm (r : SpdmReq)
  | secured (session : Nat) (r : SpdmReq)
  | unknown
  deriving DecidableEq, Repr

/-- A DOE data object: its length in bytes and what it carries. -/
structure DoeObject where
  len : Nat
  body : DoeBody
  deriving DecidableEq, Repr

/-- The answer to a DOE data object: the vendor and protocol of a Discovery entry with the next index, an SPDM answer, or a
secured one. -/
inductive DoeAnswer where
  | discovery (protocol next : Nat)
  | spdm (r : SpdmRsp)
  | secured (session : Nat) (r : SpdmRsp)
  deriving DecidableEq, Repr

/-- An MCTP message (R546): control, PLDM by type with the sensor it reads, SPDM, secured, or any other message type. -/
inductive MctpMsg where
  | control (op : Nat)
  | pldm (typ : Nat) (sensor : Option Nat)
  | spdm (r : SpdmReq)
  | secured (session : Nat) (r : SpdmReq)
  | other (typ : Nat)
  deriving DecidableEq, Repr

/-- What the device answers on I3C: a GETSTATUS with the messages it has pending, an MCTP control answer, a sensor reading
with its state (0 normal, 1 warning, 2 critical, 3 fatal), a PLDM answer that carries none, or an SPDM answer. -/
inductive MgtAnswer where
  | i3cStatus (pending : Nat)
  | control (op : Nat)
  | reading (sensor value state : Nat)
  | pldm (typ : Nat)
  | spdm (r : SpdmRsp)
  | secured (session : Nat) (r : SpdmRsp)
  deriving DecidableEq, Repr

/-- A requester's way to Mewait. -/
inductive SpdmPath where
  | doe | mctp
  deriving DecidableEq, Repr

/-- The responder's state: the open sessions, the answer that waits for RESPOND_IF_READY, and the requests of the connection since its
last GET_VERSION, by path. -/
structure SpdmSt where
  sessions : List (SpdmPath × Nat) := []
  deferred : List (SpdmPath × SpdmReq) := []
  transcript : List (SpdmPath × SpdmReq) := []
  next : Nat := 1
  deriving DecidableEq, Repr

end Sys2Proof
end

