-- ==== Sys2Proof/Data/Host.lean ====
section
/-!
DEFINITION. The data of the host interface (chapter 16).
-/
namespace Sys2Proof

/-- A translation the cache holds (R515): function, page of the I/O virtual address, permissions, translated page. -/
structure Xlat where
  fn : Nat
  page : Nat
  read : Bool
  write : Bool
  tr : Nat
  deriving DecidableEq, Repr

/-- A write of one of the device's agents to host memory: function, owner, I/O virtual address and bytes. -/
structure HostWrite where
  fn : Nat
  owner : Nat
  addr : Nat
  bytes : List (BitVec 8)
  /-- the quad whose receive ring it fills a slot of (R416) -/
  rx : Option Nat := none
  deriving DecidableEq, Repr

/-- An ATS Invalidate Request that waits for the requests that used its translations (R515): function, first page and
pages, and those requests by site and request number. -/
structure Inval where
  fn : Nat
  page : Nat
  n : Nat
  open_ : List (Nat × Nat)
  deriving DecidableEq, Repr

/-- What the device answers on the link: a snoop (R516), an invalidation (R515), a DOE object (R520). -/
inductive HostAnswer where
  | rspIHitI
  | invalidated (fn page n : Nat)
  | doe (a : DoeAnswer)
  deriving DecidableEq, Repr

/-- Configuration space of the functions, as far as the host writes it: the BARs as bits [63:0], the SR-IOV control bits
and NumVFs, the VF BAR. -/
structure ConfigSt where
  bar0 : Nat := 0
  vfBar : Nat := 0
  memEnable : Bool := false
  vfMem : Bool := false
  ari : Bool := false
  vfEnable : Bool := false
  numVfs : Nat := 0
  deriving DecidableEq, Repr

/-- The state of the host interface that no register holds. -/
structure HostSt where
  cfg : ConfigSt := {}
  /-- interrupts sent: function (0 the PF, n VF n) and vector, oldest first -/
  sent : List (Nat × Nat) := []
  /-- writes made to host memory: translated address and bytes, oldest first -/
  writes : List (Nat × List (BitVec 8)) := []
  /-- writes that wait for a translation or for the link -/
  waiting : List HostWrite := []
  xlat : List Xlat := []
  inval : List Inval := []
  answers : List HostAnswer := []
  /-- since when the active port has been out of L0 -/
  down : Option Nat := none
  /-- a switch-over whose new port has not reached L0 -/
  switching : Bool := false
  /-- when a VF last sent a vector, and the vectors held back by a hold-off (R513) -/
  lastMsg : Tab (Nat × Nat) Nat := []
  holdoff : List (Nat × Nat) := []
  /-- the MSI-X tables of BAR 0 and BAR 2 (R510): function and byte offset of a 32-bit word -/
  msix : Tab (Nat × Nat) Nat := []
  /-- the object the DOE mailbox holds (R520) -/
  doe : Option DoeObject := none
  deriving DecidableEq, Repr

end Sys2Proof
end

