-- ==== Sys2Proof/Machine/Mem.lean ====
section
/-!
DEFINITION. Byte memories in one canonical form: a list of (address, byte) pairs, addresses strictly rising, no byte
0 listed. An unlisted address reads 0 (log entry 3: the spec gives no contents after power-on).
-/
namespace Sys2Proof

/-- A byte memory. -/
abbrev Mem := List Host.Cell

namespace Mem

/-- The byte at an address. -/
def read (m : Mem) (a : Nat) : Byte :=
  match m with
  | [] => 0
  | (k, v) :: r => if k = a then v else read r a

/-- The memory with one byte written; writing 0 takes the entry away. -/
def write (m : Mem) (a : Nat) (v : Byte) : Mem :=
  match m with
  | [] => if v = 0 then [] else [(a, v)]
  | (k, w) :: r =>
    if a < k then (if v = 0 then (k, w) :: r else (a, v) :: (k, w) :: r)
    else if k = a then (if v = 0 then r else (a, v) :: r)
    else (k, w) :: write r a v

/-- Whether every address of the list lies above `a`. -/
def above (a : Nat) (m : Mem) : Bool :=
  match m with
  | [] => true
  | (k, _) :: _ => a < k

/-- The canonical form: addresses strictly rising and no byte 0. -/
def wf (m : Mem) : Bool :=
  match m with
  | [] => true
  | (k, v) :: r => above k r && (v != 0) && wf r

/-- `n` bytes from `a` upward as one little-endian number (R5). -/
def readN (m : Mem) (a n : Nat) : Nat :=
  match n with
  | 0 => 0
  | n + 1 => (m.read a).toNat + 256 * readN m (a + 1) n

/-- `n` bytes from `a` upward written from a little-endian number. -/
def writeN (m : Mem) (a n v : Nat) : Mem :=
  match n with
  | 0 => m
  | n + 1 => writeN (m.write a (BitVec.ofNat 8 v)) (a + 1) n (v / 256)

/-- The bytes of a list written from `a` upward. -/
def writeBytes (m : Mem) (a : Nat) (bs : List Byte) : Mem :=
  match bs with
  | [] => m
  | b :: r => writeBytes (m.write a b) (a + 1) r

/-- `n` bytes from `a` upward. -/
def readBytes (m : Mem) (a n : Nat) : List Byte :=
  match n with
  | 0 => []
  | n + 1 => m.read a :: readBytes m (a + 1) n

/-- The memory with every listed byte of the range `[a, a + n)` back at 0 (R199). -/
def zero (m : Mem) (a n : Nat) : Mem := m.filter fun c => c.1 < a || a + n ≤ c.1

end Mem
end Sys2Proof
end

