-- ==== Sys2Proof/Data/Memory.lean ====
section
/-!
DEFINITION. The data of stores, movers, HBM and line caches (chapter 6).
-/
namespace Sys2Proof

/-- Bytes written to a 256-byte line, by offset. -/
abbrev LineBytes := List (Nat × Byte)

/-- An extent of an owner (6.5): clearing base page, device base page, length in pages, write permission. -/
structure Extent where
  clPage : Nat
  devPage : Nat
  pages : Nat
  write : Bool
  deriving DecidableEq, Repr

/-- A line of the package's memory: an HBM line by D / 256, or a Woruri line by fabric address / 256. -/
inductive LineKey where
  | hbm (n : Nat)
  | wor (n : Nat)
  deriving DecidableEq, Repr

/-- The address spaces of Table 6.1. -/
inductive Space where
  | core | cluster | hbm | woruri | host
  deriving DecidableEq, Repr

/-- A request of a mover for one 256-byte line (R203): its descriptor, its place among the mover's requests, the line
in its own space, for a write the bytes, and the tag it carries (R165, R166). A prefetch may run ahead of a read to line `pfLast`
(R224). -/
structure MovReq where
  id : Nat
  desc : Nat
  space : Space
  line : Nat
  key : LineKey
  write : Option LineBytes
  tag : Tag
  pfLast : Option Nat := none
  nextPage : Bool := false
  item : Option ItemRef := none
  /-- a reset has squashed it: its answer goes to no one (R298 step 4) -/
  squashed : Bool := false
  deriving DecidableEq, Repr

/-- The owner whose mover made a request (R166). -/
def MovReq.owner (r : MovReq) : Nat := r.tag.owner

/-- The 64-byte requests of the host link that a request is (R516). -/
def MovReq.hostParts (r : MovReq) : Nat :=
  match r.write with
  | none => 4
  | some b => (b.map fun x => x.1 / 64).eraseDups.length

/-- A request at a line cache: a mover's, or a write or read of the queue agent or the error path, which may be a
journal write (R221). -/
structure LcReq where
  key : LineKey
  write : Option LineBytes := none
  journal : Bool := false
  glade : Bool := false
  owner : Nat := 0x7FF
  /-- the mover's site and its request -/
  mover : Option (Nat × MovReq) := none
  deriving DecidableEq, Repr

/-- A fill in flight (R222, R225): the requests it answers, whether a prefetch began it, the class of its line, whether
an invalidate met it, and its data once they are there. -/
structure Fill where
  key : LineKey
  waiting : List LcReq
  glade : Bool
  dropped : Bool := false
  data : Option (List Byte) := none
  failed : Bool := false
  dirty : Bool := false
  deriving DecidableEq, Repr

/-- A fill as it answers the requests that waited for it: the line's data, whether it is dirty, the items whose writes it holds, and
whether its bytes are good. -/
structure FillSt where
  data : List Byte
  dirty : Bool
  items : List ItemRef := []
  good : Bool
  deriving DecidableEq, Repr

/-- A line a line cache holds: its data, whether it is dirty, its way, and the items whose writes it holds (R226). -/
structure LcLine where
  key : LineKey
  data : List Byte
  dirty : Bool
  way : Nat
  items : List ItemRef := []
  deriving DecidableEq, Repr

/-- The line cache of one die. -/
structure LineCache where
  /-- requests that have arrived, oldest first -/
  inq : List LcReq := []
  lines : List LcLine := []
  fills : List Fill := []
  /-- lines whose dirty data was lost, until rewritten (R226) -/
  lost : List LineKey := []
  deriving DecidableEq, Repr

/-- A line's data on their way to HBM. -/
structure WriteBack where
  line : Nat
  bytes : LineBytes
  /-- the journal write that HBM acknowledges (R221) -/
  ack : Option LcReq := none
  deriving DecidableEq, Repr

/-- A descriptor of a mover (Table 6.2): its words, its owner and item, its place in posting order, the index list it read as it
started (R202), the requests it has still to issue, those issued and not answered, the source lines it has staged, the lines it writes, and whether the
data movement itself is done. -/
structure MovDesc where
  words : List Nat
  serial : Nat
  owner : Nat
  item : Option ItemRef
  idx : List Nat := []
  todo : List MovReq := []
  waiting : List Nat := []
  staged : Tab (Space × Nat) (List Byte) := []
  failed : Bool := false
  /-- some failed answer has no record yet (R207, R468) -/
  owed : Bool := false
  wlines : List (Space × Nat) := []
  moved : Bool := false
  /-- the status of its transfers, as it started and as its source entries carried it (R168, R169) -/
  status : TagStatus := .good
  /-- 8-byte words of core store, by offset / 8, that a crossing's code could not correct as it read them (R187) -/
  zeroed : List Nat := []
  /-- anchor, block column and ordinal of the load a LOAD sent -/
  load : Option (Nat × Nat × Nat) := none
  deriving DecidableEq, Repr

/-- An answer on its way to a mover: the request, its data, and whether they failed. -/
structure MovResp where
  req : MovReq
  data : List Byte
  failed : Bool
  /-- a record of what failed has been written where it was found (R468) -/
  noted : Bool := false
  deriving DecidableEq, Repr

/-- The tag of an answer: its request's, Failed where the data failed (R165, R168). -/
def MovResp.tag (r : MovResp) : Tag := if r.failed then { r.req.tag with status := .failed } else r.req.tag

/-- A mover (R201 to R205, R227 to R229). -/
structure Mover where
  queue : List MovDesc := []
  active : List MovDesc := []
  slots : List MovReq := []
  parked : List MovReq := []
  /-- outstanding Woruri requests -/
  fabric : List MovReq := []
  /-- outstanding host requests -/
  host : List MovReq := []
  resp : List MovResp := []
  /-- pending entries of the context (R358): requests issued before its last stop and not ended -/
  late : List MovReq := []
  /-- stopped with its context: it starts and issues nothing (R358) -/
  halt : Bool := false
  /-- its site has left service: nothing of it goes on (R463) -/
  dead : Bool := false
  next : Nat := 0
  nextReq : Nat := 0
  deriving DecidableEq, Repr

/-- The stores, movers, extents, line caches and HBM. -/
structure MemSt where
  /-- bytes of HBM by device address D -/
  hbm : Mem := []
  /-- bad 8-byte words of cluster store, by address / 8 (R200) -/
  cluBad : List Nat := []
  /-- 64-byte pairs of HBM, by D / 64, whose next read is uncorrectable, until rewritten (R215, R216) -/
  hbmBad : List Nat := []
  /-- owner of a 64 KiB block of cluster store, by cluster and block (R197) -/
  blockOwner : Tab (Nat × Nat) Nat := []
  /-- extents by owner and index (6.5) -/
  extents : Tab (Nat × Nat) Extent := []
  lc : Tab Nat LineCache := []
  wb : List WriteBack := []
  movers : Tab Nat Mover := []
  /-- owners whose movers start no descriptor (R290, R298), the image loads and resets that stop them included -/
  movStop : List Nat := []
  deriving DecidableEq, Repr

end Sys2Proof
end

