-- ==== Sys2Proof/Data/Images.lean ====
section
/-!
DEFINITION. What a Rilpor image says (chapter 7), as data, and what a load keeps while it runs. Inside a section the
encoding belongs to the builder of the stepping (7.1); the model holds the content.
-/
namespace Sys2Proof

/-- A port in image terms: a port of an image core, or a FEC block port of the cluster of a group. -/
inductive ImgPort where
  | ingress (core port : Nat)
  | egress (core port : Nat)
  | sigIn (core engine : Nat)
  | sigOut (core engine : Nat)
  | fecIn (group k : Nat)
  | fecOut (group k : Nat)
  deriving DecidableEq, Repr

/-- A stream of the STREAMS section: its ends, the depth of its consumer FIFO, its reserved slots, and, for a stream into
a FEC block, the stream that takes its results (R157), by its place in the section. -/
structure ImgStream where
  prod : ImgPort
  cons : ImgPort
  depth : Nat
  res : Nat
  results : Option Nat := none
  deriving DecidableEq, Repr

/-- A register record of a CORE section: a field of the site's own blocks, with the engine for a signal engine block,
the repeat index and the value. -/
structure RegRec where
  reg : RegName
  lo : Nat
  eng : Option (Fin 2) := none
  idx : Nat := 0
  val : Nat
  deriving DecidableEq, Repr

/-- A CORE section: claimed core store in KiB, the combining area by its start in 64-byte units and its KiB, core store contents, signal programs and memories,
the vector program, descriptor seeds by core store offset, register records, the plans of its combining stage, and whether its programs
pass validation (R123, R137). -/
structure ImgCore where
  storeKiB : Nat := 0
  combBase : Nat := 0
  combKiB : Nat := 0
  bytes : List (Nat × Byte) := []
  vecProg : List Nat := []
  prog : Tab Nat (List Nat) := []
  sigMem : List (Nat × SigMem × Nat × Nat) := []
  seeds : List Nat := []
  recs : List RegRec := []
  plans : List SplitPlan := []
  valid : Bool := true
  usesSig : Bool := false
  deriving DecidableEq, Repr

/-- What the RADIO section declares of a lendable shape (11.6): the lend window in 64 KiB units, the site ports it
leaves free, and the use intervals in ns from the drumbeat. -/
structure LendDecl where
  first : Nat
  units : Nat
  ingress : List Nat := []
  egress : List Nat := []
  uses : List (Nat × Nat) := []
  deriving DecidableEq, Repr

/-- A shape of the SHAPES section: a field of Table 2.2, or one loose core; its image cores row by row, and the plans of
its field's passes, whose stream numbers are places in the STREAMS section. -/
structure ImgShape where
  loose : Bool := false
  code : Nat := 0
  cores : List Nat
  passes : List PassPlan := []
  lend : Option LendDecl := none
  deriving DecidableEq, Repr

/-- A group of shapes, placed within one cluster (11.2), with the cluster-store blocks it claims. -/
structure ImgGroup where
  borrow : Bool := false
  prot : Bool := false
  shapes : List ImgShape
  blocks : Nat := 0
  deriving DecidableEq, Repr

/-- A binding of the QUEUES section: local index, the ingress port its items enter by, the egress ports of its exit
streams. -/
structure ImgQueue where
  loc : Nat
  entry : Option ImgPort
  exits : List ImgPort
  deriving DecidableEq, Repr

/-- A claimed clearing range of CLAIMS: first page, pages, whether it is written. -/
structure ImgRange where
  page : Nat
  pages : Nat
  write : Bool
  deriving DecidableEq, Repr

/-- An end of a Ziura claim: the die of a group, of a stack or of a quad. -/
inductive RouteEnd where
  | group (g : Nat)
  | stack (k : Stack)
  | quad (q : Quad)
  deriving DecidableEq, Repr

/-- A cell of the RADIO section (12.5, 12.7, 12.9). The pattern says for each slot of its period whether it has
downlink symbols, and which of its 14 symbols are uplink. -/
structure ImgCell where
  cell : Nat
  group : Nat
  takeOver : Bool := false
  dec : Nat := 0
  enc : Nat := 0
  dlLoc : Nat
  ulLoc : Nat
  pattern : List (Bool × Nat) := []
  dlLead : Nat := 0
  ulCutoff : Nat := 0
  dlDeadline : Int := 0
  ulDeadline : Int := 0
  nbuf : Nat := 1
  deriving DecidableEq, Repr

/-- A fronthaul flow of the RADIO section: an allow-list entry (12.4) or an egress flow (12.8). -/
structure ImgFlow where
  egress : Bool
  quad : Quad
  cell : Nat
  mac : Nat
  vlan : Nat
  pcp : Nat := 0
  eaxc : Nat
  nPrb : Nat
  iq : Nat
  rate : Nat
  burstKB : Nat := 0
  winStart : Int := 0
  winEnd : Int := 0
  tc : Nat := 0
  buf : Nat := 0
  map : Nat := 0
  nbuf : Nat := 1
  /-- the second range of R488, of a flow of a protected group -/
  buf2 : Option (Nat × Nat) := none
  deriving DecidableEq, Repr

/-- The RADIO section. `mu` is 0, 1 or 3. -/
structure ImgRadio where
  mu : Nat
  cells : List ImgCell
  flows : List ImgFlow
  deriving DecidableEq, Repr

/-- The NUMERIC section: raw codes of the COR_NUMCFG fields, and the seed. -/
structure ImgNumeric where
  format : Nat := 0
  slice : Nat := 0
  outFmt : Nat := 0
  round : Nat := 0
  sat : Bool := false
  arrival : Bool := false
  determinism : Bool := true
  seed : Nat := 0
  deriving DecidableEq, Repr

/-- A section table entry (R239). `odd` says that a reserved byte of it is not zero. -/
structure SectEnt where
  typ : Nat
  index : Nat
  offset : Nat
  length : Nat
  odd : Bool := false
  deriving DecidableEq, Repr

/-- The header and section table of an image (R238, R239). `odd` says that a reserved byte is not zero. -/
structure ImgHeader where
  magic : Nat
  format : Nat
  cls : Nat
  part : Nat
  minFw : Nat
  secVer : Nat
  imageId : Nat := 0
  totalLen : Nat
  sigOff : Nat
  keyId : Nat
  sects : List SectEnt
  odd : Bool := false
  deriving DecidableEq, Repr

/-- The content of the sections. `plan` lists, for each reduction, the granule pieces (first, count) its units cover
(R108). `bytes` are the image's bytes 0 to SIG_OFF - 1, and `digest` is the measurement D, their SHA-384 (R240, R241), which FETCH_END
sets. -/
structure Image where
  glade : Bool := false
  numeric : ImgNumeric := {}
  groups : List ImgGroup := []
  cores : List ImgCore := []
  ranges : List ImgRange := []
  streams : List ImgStream := []
  plan : List (List (Nat × Nat)) := []
  queues : List ImgQueue := []
  /-- HBM claims: stack and MB/s on each of its pseudo-channels -/
  hbm : List (Stack × Nat) := []
  /-- Ziura claims: ends and share in 1/256 of 2.4 TB/s -/
  ziura : List (RouteEnd × RouteEnd × Nat) := []
  radio : Option ImgRadio := none
  /-- fabric windows used: export or import, and index -/
  windows : List (Bool × Nat) := []
  atomics : Bool := false
  bytes : List Byte := []
  digest : Nat := 0
  deriving DecidableEq, Repr

/-- A shape as placed (R346, R348): its group, its cluster, its anchor in logical rows and columns, its context slot,
and for a borrow shape the glade shape that hosts it. -/
structure Placed where
  group : Nat
  shape : ImgShape
  cluster : Nat
  row : Nat
  col : Nat
  slot : Nat := 0
  borrow : Bool := false
  host : Option (Nat × Nat) := none
  standby : Bool := false
  deriving DecidableEq, Repr

/-- An image as a clearing holds it: the image, its shapes as placed (in SHAPES order, standby shapes last), the stream
numbers given to it, those held for the standbys of its protected groups (by stream and group's place, R247, R488), and its
cluster-store blocks. -/
structure Loaded where
  img : Image
  placed : List Placed
  /-- cluster and number of each stream of the STREAMS section -/
  streams : List (Nat × Nat) := []
  sbStreams : Tab Nat (Nat × Nat) := []
  blocks : List (Nat × Nat) := []
  /-- groups whose standby has been released (R490), and so has left the glade -/
  gone : List Nat := []
  deriving DecidableEq, Repr

/-- The running load (7.3): its header and content once they have come, the key slot that verified it, its placement from
the end of ADMIT, the core sets whose windows have not ended (by cluster), the start of DRAIN, the slot of the first
drumbeat that may release a glade (R253), and the stacks over which it stripes the image, those in service as it began (R243). -/
structure LoadSt where
  owner : Nat
  replace : Bool
  hdr : Option ImgHeader := none
  img : Option Image := none
  slot : Nat := 0
  result : Option Loaded := none
  windows : List Nat := []
  drainStart : Nat := 0
  actSlot : Option Int := none
  staged : List Nat := []
  deriving DecidableEq, Repr

end Sys2Proof
end

