-- ==== Sys2Proof/Data/Mgmt.lean ====
section
/-!
DEFINITION. The data of management, boot and security (chapter 17), and of power and start-up (chapter 18): what the flash
holds, key slots, the identity, the boot of each die, the management ports.
-/
namespace Sys2Proof

/-- A key slot in use (17.4): KEY_ID and floor. -/
structure KeySlot where
  key : Nat
  floor : Nat := 0
  deriving DecidableEq, Repr

/-- A Mewait image (R527, R528): the bytes 0 to SIG_OFF - 1 of its container, and whether the carried keys hash to the ROM digest and both
signatures verify. What its sections hold, whose types only Folnex defines, is typed data (log entry 67): `slot0` is the KEY_ID of the
Folnex image key it carries. -/
structure FwImage where
  bytes : List (BitVec 8) := []
  signed : Bool
  slot0 : Nat := 0
  /-- the identifier of its function table set (R131) -/
  ftabSet : Nat := 0
  ftab : Tab Nat FtabHdr := []
  deriving DecidableEq, Repr

/-- The device manifest (R528): the bytes 0 to SIG_OFF - 1 of its container and its signatures as of a Mewait image, and what it holds: the units it lists as bad, the I3C addresses, the subsystem IDs, the dies whose helper data
and wrapped secret serve, the device secret that the copies wrap (R536), and the certificate chains of the identity by SPDM slot
(R537). -/
structure Manifest where
  bytes : List (BitVec 8) := []
  signed : Bool
  badDies : List Nat := []
  badSites : List Nat := []
  badStacks : List Nat := []
  badQuads : List Nat := []
  badFec : List Nat := []
  i3cStatic : Nat := 0
  provisional : Nat := 0
  subVendor : Nat := 0
  subId : Nat := 0
  helper : List Nat := []
  wrapped : List Nat := []
  secret : List (BitVec 8) := []
  chains : Tab Nat (List (BitVec 8)) := []
  deriving DecidableEq, Repr

/-- One copy of the persistent state (R528). -/
structure Persist where
  gen : Nat := 0
  epoch : Nat := 0
  fwFloor : Nat := 0
  slots : Tab Nat KeySlot := []
  anchors : Tab Nat (List (BitVec 8)) := []
  retired : List Nat := []
  deriving DecidableEq, Repr

/-- What the flash holds (Table 17.2). A region that does not hold a container, or a copy that is not valid, is `none`. -/
structure Flash where
  readable : Bool := true
  image : Option FwImage := none
  manifest : Option Manifest := none
  a : Option Persist := none
  b : Option Persist := none
  deriving DecidableEq, Repr

/-- A load that installed a resident image (R541, R542): its sequence, the slot that verified it, the image's D. -/
structure Resident where
  seq : Nat
  slot : Nat
  digest : Nat
  deriving DecidableEq, Repr

/-- A flash write that a mailbox command or a recovery push has begun (R533, R549): the image region, a copy of the
persistent state with the mailbox command it is for, or a chunk of a pushed region. -/
inductive FlashJob where
  | image (f : FwImage)
  | persist (op : Nat) (p : Persist)
  | chunk (manifest : Bool) (len : Nat)
  deriving DecidableEq, Repr


/-- A signed unlock record (R545): whether it verifies against the debug key, the serial number and the nonce it names. -/
structure UnlockRec where
  genuine : Bool
  serial : BitVec 64
  nonce : BitVec 64
  deriving DecidableEq, Repr

/-- What a recovery push left in its region, as END reads it (R549). -/
structure Pushed where
  image : Option FwImage := none
  manifest : Option Manifest := none
  deriving DecidableEq, Repr

/-- The recovery push in progress (R549): the region, how many bytes it has taken and which, and whether a chunk would have passed its end. -/
structure PushSt where
  manifest : Bool := false
  done : Nat := 0
  bytes : List (BitVec 8) := []
  passed : Bool := false
  deriving DecidableEq, Repr

/-- The device identity (R537): the seeds derived from the secret, which are the private halves, and the public keys. -/
structure Identity where
  slhSeed : List (BitVec 8)
  rsaSeed : List (BitVec 8)
  slhPublic : List (BitVec 8)
  rsaPublic : List (BitVec 8)
  deriving DecidableEq, Repr

/-- The management state that no register holds. -/
structure MgtSt where
  flash : Flash := {}
  /-- the manifest in force since the last boot -/
  manifest : Option Manifest := none
  /-- the Mewait image that runs, and the one staged -/
  running : Option FwImage := none
  staged : Option FwImage := none
  /-- the identity key pairs, from IDENTITY_END on (R537) -/
  identity : Option Identity := none
  slots : Tab Nat KeySlot := []
  anchors : Tab Nat (List (BitVec 8)) := []
  /-- L of R541: 48 bytes -/
  log : List (BitVec 8) := List.replicate 48 0
  resident : Tab Nat Resident := []
  job : Option FlashJob := none
  push : Option PushSt := none
  /-- MGT_RCV_DATA, by offset -/
  rcvData : List (Nat × BitVec 8) := []
  spdm : SpdmSt := {}
  answers : List MgtAnswer := []
  deriving DecidableEq, Repr

/-- Where the package stands between power-on and READY (Tables 17.1, 18.6). -/
inductive BootPhase where
  /-- POR_N is low -/
  | por
  /-- WARM_RST_N is low after a warm reset has stopped the package -/
  | warm
  /-- THERMTRIP_N is low: all clocks have stopped -/
  | tripped
  /-- the stages of Table 17.1 -/
  | stages
  deriving DecidableEq, Repr

/-- The state of boot (17.1, 17.3, 18.5, 18.6). -/
structure BootSt where
  phase : BootPhase := .por
  /-- whether this boot follows a warm reset -/
  warm : Bool := false
  /-- elapsed time at which stage 0x0 began, and at which the election began -/
  start : Nat := 0
  electStart : Nat := 0
  /-- the die whose controller reads the flash -/
  reader : Nat := 0
  /-- dies that stopped at a failed stage (R526), and dies the manifest disables -/
  failed : List Nat := []
  off : List Nat := []
  /-- dies whose PUF key was reconstructed -/
  puf : List Nat := []
  /-- the set of candidates of the last round, and the rounds in a row it has stood -/
  heard : Nat := 0
  rounds : Nat := 0
  /-- when the next round is due: the candidates send every 10 µs (R530) -/
  roundDue : Nat := 0
  /-- failed elections in a row -/
  electFails : Nat := 0
  /-- the chief's die is lost, with the SUB of its containment: the other dies elect (R531) -/
  lostChief : Option Nat := none
  /-- stacks whose contents were lost in self-refresh (R569) -/
  lostStacks : List Nat := []
  /-- stacks that have been initialised since power-on, and so hold contents -/
  trained : List Nat := []
  /-- a level-5 containment or a failed election began this warm reset -/
  level5 : Bool := false
  deriving DecidableEq, Repr

/-- The instruction register of the JTAG port (R544). -/
inductive JtagInstr where
  | idcode | bypass | samplePreload | extest | clamp | highz
  deriving DecidableEq, Repr

/-- The JTAG port: its instruction, the boundary scan register, and the values the pins are held at by EXTEST or CLAMP. -/
structure JtagSt where
  ir : JtagInstr := .idcode
  boundary : Nat := 0
  driven : Option Nat := none
  floating : Bool := false
  deriving DecidableEq, Repr

/-- What a thermal sample reads (R559 to R562): the sensors of the quadrants, die-common areas and stacks in degrees, and the
package power averaged over 1 ms in watts. -/
structure ThermalSample where
  quad : Vector (BitVec 8) 32
  common : Vector (BitVec 8) 8
  stack : Vector (BitVec 8) 16
  power : BitVec 11
  deriving DecidableEq, Repr

/-- A temperature sensor (R563). -/
inductive Sensor where
  | quadrant (q : Fin 32)
  | common (d : Die)
  | stack (k : Stack)
  deriving DecidableEq, Repr

/-- The state of power and temperature (chapter 18). -/
structure PowerSt where
  /-- since when a sensor has read 95 degrees or more -/
  hot : Tab Sensor Nat := []
  /-- when the next sample of the sensors is due (18.3) -/
  due : Nat := 0
  /-- THERMTRIP_N is low -/
  trip : Bool := false
  deriving DecidableEq, Repr

/-- What a start-up finds when BRING_UP ends (R571): sites that pass no start-up test, stacks that fail to train. -/
structure BringUp where
  badSites : List Nat := []
  badStacks : List Nat := []
  deriving DecidableEq, Repr

end Sys2Proof
end

