-- ==== Sys2Proof/Data/Queues.lean ====
section
/-!
DEFINITION. The data of queues, journals and once-only effects (chapter 10).
-/
namespace Sys2Proof

/-- A once-only effect (R324): a message to a global queue with its seven words, an atomic with its fabric address,
operation, operands and return address, or a frame with the words of its transmit descriptor (Table 12.7). -/
inductive Effect where
  | message (dst : Nat) (arg : List Nat)
  | atomic (dst addr op : Nat) (size8 : Bool) (operand operand2 ret : Nat)
  | frame (words : List Nat)
  deriving DecidableEq, Repr

/-- How an item finished: status code of Table 0.3, RESULT, and the record it names. -/
structure Finish where
  status : Nat
  result : Nat := 0
  errSeq : Nat := 0
  deriving DecidableEq, Repr

/-- What the exits of a running item have shown so far: the exits whose EOI flit has come, the status and lowest record
of its flits, and the result. -/
structure ExitSt where
  done : List Nat := []
  status : TagStatus := .good
  err : Option Nat := none
  result : Nat := 0
  deriving DecidableEq, Repr

/-- An acceptance record (R315): the epoch, owner and time of acceptance, the eight words, the measurement of the image
at acceptance, and what became of the item. -/
structure AccRec where
  epoch : Nat
  owner : Nat
  sec : Nat
  ns : Nat
  words : List Nat
  digest : Nat
  /-- a radio item's deadline in TAI nanoseconds, its cell, and whether R388 applies to it -/
  deadline : Option Nat := none
  cell : Option Nat := none
  ruAbsent : Bool := false
  released : Bool := false
  exits : ExitSt := {}
  finish : Option Finish := none
  /-- runs that a fault has ended (R330) -/
  runs : Nat := 0
  effects : List Effect := []
  committed : Bool := false
  deriving DecidableEq, Repr

/-- What a record being written is for: a slot of a ring, a message, a radio item. -/
inductive Origin where
  | ring
  | message (src item index : Nat)
  | radio
  deriving DecidableEq, Repr

/-- A mapped queue (10.1 to 10.4). -/
structure QueueSt where
  owner : Nat
  loc : Nat
  space : Nat
  msgFed : Bool
  sqLog : Nat
  cqLog : Nat
  msgFrom : Nat
  sqBase : Nat
  cqBase : Nat
  ctrl : Nat
  home : Nat
  /-- the die of the journal the queue belongs to, which names its dedup entries (R328) -/
  journal : Nat
  db : Nat := 0
  accepted : Nat := 0
  committed : Nat := 0
  consumed : Nat := 0
  /-- the slot being read, if one is (R314) -/
  reading : Option Nat := none
  /-- the agent stopped at a slot, and waits for the next doorbell (R314) -/
  stuck : Bool := false
  /-- records being written and not yet acknowledged, oldest first -/
  writing : List (AccRec × Origin) := []
  /-- acceptance records of accepted items, by sequence -/
  items : Tab Nat AccRec := []
  /-- the first effect not yet sent: item and index -/
  nextItem : Nat := 1
  nextIndex : Nat := 0
  /-- effects sent and not acknowledged, by item and index, oldest first -/
  sent : List (Nat × Nat) := []
  /-- effects in doubt that are sent again before any other, oldest first (R333) -/
  again : List (Nat × Nat) := []
  /-- the journal is lost (Table 10.4) -/
  lost : Bool := false
  /-- its clearing has been removed; it goes once the effects of its committed items are acknowledged (R298) -/
  leaving : Bool := false
  deriving DecidableEq, Repr

/-- Where a message stands: on its way, waiting for its destination, its record being written, or acknowledged. -/
inductive MsgPhase where
  | sent | waiting | writing | acked
  deriving DecidableEq, Repr

/-- A message between two queues (R325 to R328). -/
structure Msg where
  src : Nat
  item : Nat
  index : Nat
  gen : Nat
  owner : Nat
  dst : Nat
  arg : List Nat
  phase : MsgPhase := .sent
  deriving DecidableEq, Repr

/-- The state of the queue agents. -/
structure QueueMgr where
  queues : Tab Nat QueueSt := []
  /-- map generation of each global queue (R325) -/
  mapGen : Tab Nat Nat := []
  /-- dedup entries by journal and source queue: map generation, item and index last accepted (R328) -/
  dedup : Tab (Nat × Nat) (Nat × Nat × Nat) := []
  msgs : List Msg := []
  /-- dies whose homes hold no mirror (R308) -/
  noMirror : List Nat := []
  /-- queues that owe a sweep (R332) -/
  sweep : List Nat := []
  /-- whether homes and mirrors have been set, and the boot epoch read, since power-on (R308, R335) -/
  brought : Bool := false
  epochRead : Bool := false
  deriving DecidableEq, Repr

end Sys2Proof
end

