-- ==== Sys2Proof/Data/Radio.lean ====
section
/-!
DEFINITION. The data of the radio baseband service (chapter 12).
-/
namespace Sys2Proof

/-- An entry of an allow-list or of an egress flow table (12.4, 12.8): its flow, its owner, its counters, its token
bucket (in 1/5,000 of a bit, in which every fill of R382 is whole), and its sequence counters for U-plane and C-plane. -/
structure FlowEnt where
  flow : ImgFlow
  owner : Nat
  accepted : Nat := 0
  dropped : Nat := 0
  tokens : Nat := 0
  filled : Nat := 0
  seqU : Nat := 0
  seqC : Nat := 0
  /-- the standby buffer set is in force (R490) -/
  second : Bool := false
  deriving DecidableEq, Repr

/-- A fronthaul frame as received (Table 12.5): what the MAC and eCPRI headers say, and the U-plane content. A frame of
EtherType 0x88F7 brings its bytes from the destination address up to the last before the FCS (R416); a delay
measurement request brings its identifier. -/
structure RxFrame where
  fcsOk : Bool := true
  length : Nat
  oneTag : Bool := true
  etherType : Nat := 0xAEFE
  dst : Nat
  src : Nat
  vlan : Nat
  pcp : Nat := 0
  /-- eCPRI revision, concatenation bit, message type and payload size -/
  revision : Nat := 1
  concat : Bool := false
  msgType : Nat := 0
  payload : Nat := 0
  pcId : Nat := 0
  uplink : Bool := true
  version : Nat := 1
  frameId : Nat := 0
  subframe : Nat := 0
  slot : Nat := 0
  symbol : Nat := 0
  /-- the sections: first PRB and numPrbu (0 meaning all), and for each PRB its exponent and 24 mantissas -/
  sections : List (Nat × Nat × List (Nat × List Int)) := []
  measureId : Nat := 0
  raw : List Byte := []
  deriving DecidableEq, Repr

/-- A cell in service (12.5, 12.6, 12.9). -/
structure CellSt where
  owner : Nat
  /-- a pending move: its target and its switch slot -/
  next : Option (Nat × Int) := none
  /-- the glade that still serves slots below the last switch slot -/
  prev : Option (Nat × Int) := none
  absent : Bool := false
  /-- consecutive uplink cut-offs without a frame -/
  quiet : Nat := 0
  /-- a frame of the cell has passed check 8 since the last cut-off -/
  heard : Bool := false
  /-- PRBs that arrived, by quad, allow-list index, slot and symbol -/
  arrived : Tab (Nat × Nat × Int × Nat) (List Nat) := []
  /-- cut-offs still to come: glade, slot -/
  cutoffs : List (Nat × Int) := []
  deriving DecidableEq, Repr

/-- A radio item waiting at radio service (R387): its glade, its cell, its local queue, its seven argument words, its deadline
in TAI nanoseconds, and whether R388 applies to it. -/
structure RadItem where
  owner : Nat
  cell : Nat
  loc : Nat
  words : List Nat
  deadline : Nat
  ruAbsent : Bool
  deriving DecidableEq, Repr

/-- A glade in radio service. Its slots are numbered as in 12.5. -/
structure GladeSt where
  radio : ImgRadio
  /-- last slot whose drumbeat it received, if any -/
  lastM : Option Int := none
  deriving DecidableEq, Repr

/-- A frame queued on a class (R398): its effect (queue, item, index) or none, its egress flow or none, its bytes up to
the FCS, its launch time in TAI nanoseconds or none, its emission time, and the identifier of a requested timestamp. -/
structure TxFrame where
  effect : Option (Nat × Nat × Nat) := none
  flow : Option Nat := none
  bytes : List Byte
  launch : Option Nat := none
  queued : Nat
  stamp : Option Nat := none
  deriving DecidableEq, Repr

/-- Egress of one quad: frames waiting by class, oldest first; the class and frame being sent with its start; shaper
credits in 1/25,000 of a bit, in which every change of R400 is whole, with the time they stand for; the gates in force at
that time; and when the gate list took effect. -/
structure TxPort where
  queues : Tab Nat (List TxFrame) := []
  sending : Option (Nat × TxFrame × Nat) := none
  credit : Tab Nat Int := []
  creditAt : Nat := 0
  gates : Nat := 0xFF
  gateFrom : Option Nat := none
  /-- when the classes were last sampled (R401) -/
  sampledAt : Nat := 0
  /-- the last frame that left, with its FCS -/
  last : List (BitVec 8) := []
  deriving DecidableEq, Repr

/-- The state of radio service. -/
structure RadSt where
  cells : Tab Nat CellSt := []
  glades : Tab Nat GladeSt := []
  /-- allow-list and egress entries by quad, direction (egress) and index -/
  flows : Tab (Nat × Bool × Nat) FlowEnt := []
  waiting : List RadItem := []
  ports : Tab Nat TxPort := []
  /-- the window of R394 that runs -/
  window : Int := 0
  deriving DecidableEq, Repr

end Sys2Proof
end

