-- ==== Sys2Proof/Data/Recovery.lean ====
section
/-!
DEFINITION. What an ERROR_DETECT or CORE_HANG event says (Table 15.2): the errors whose detection no other command brings
about.
-/
namespace Sys2Proof

/-- The level-0 classes a cell or an engine detects. -/
inductive CellClass where
  | program | laneParity | dataUncorr
  deriving DecidableEq, Repr

/-- A unit and what it detects. `sub` counts the SUB values of the class from 0x01 up. -/
inductive Detected where
  /-- a cell or engine (level 0): its class, SUB, the site, UNIT, the item it fails, DETAIL -/
  | cell (cls : CellClass) (sub : Fin 11) (site : Site) (unit : Fin 8) (item : Option ItemRef) (detail : BitVec 64)
  /-- a core control slot: core store, vector, signal, stream word -/
  | core (site : Site) (sub : Fin 4) (unit : Fin 8)
  /-- a quadrant warden: rail, clock, thermal -/
  | quadrant (q : Fin 32) (sub : Fin 3)
  /-- a die controller, of a cluster: rail, clock, stitching -/
  | cluster (c : Cluster) (sub : Fin 3)
  /-- an HBM controller: PHY, ECC -/
  | stack (k : Stack) (sub : Fin 2)
  /-- a die: silent, rail, thermal -/
  | die (d : Die) (sub : Fin 3)
  /-- the HBM controller, in the staging reserve of a stack (R242, Table 7.6) -/
  | staging (k : Stack)
  deriving DecidableEq, Repr

/-- What a context of a row meets when its row takes another mask: it loses a core or a joined pair of rows, its sites
change, or nothing. -/
inductive RowHit where
  | lost | moves | stays
  deriving DecidableEq, Repr

end Sys2Proof
end

