-- ==== Sys2Proof/Data/Sched.lean ====
section
/-!
DEFINITION. The data of contexts, scheduling and lending (chapter 11), and of clearings (chapter 9).
-/
namespace Sys2Proof

/-- What a context is (R342, R343). -/
inductive CtxKind where
  | home | borrow | glade
  deriving DecidableEq, Repr

/-- Residency states of a context (Table 11.1). -/
inductive CtxRes where
  | saved | restoring | resident | saving | parked
  deriving DecidableEq, Repr

/-- The state of one core of a context in its save place (R362): the claimed core store by offset, the fields of the
site's registers with the unit made relative (0, or the signal engine), vector registers, signal engine state, ports
in the order of the site's ports, the mover, and the combining stage. -/
structure SavedCore where
  store : Mem := []
  regs : Tab FKey Nat := []
  vregs : Tab Nat (List Nat) := []
  gregs : Tab (Nat × Nat) Nat := []
  sigMem : Tab (Nat × SigMem × Nat) Nat := []
  sigProg : Tab Nat (List Nat) := []
  sigRepeat : Tab Nat Nat := []
  sigItem : Tab Nat Entry := []
  vecProg : List Nat := []
  ports : Tab Nat Port := []
  mover : Option Mover := none
  comb : Option CombSt := none
  deriving DecidableEq, Repr

/-- A context (R341), keyed by owner and shape index. Times are elapsed times. -/
structure Ctx where
  kind : CtxKind
  group : Nat
  cluster : Nat
  loose : Bool
  code : Nat
  row : Nat
  col : Nat
  slot : Nat := 0
  /-- the glade shape that hosts a borrow context -/
  host : Option (Nat × Nat) := none
  /-- a standby context of R489, held stopped until it is released -/
  standby : Bool := false
  res : CtxRes := .saved
  /-- whether a context that is not resident is ready (R355) -/
  ready : Bool := false
  /-- start of the charge not yet applied -/
  since : Nat := 0
  quantumEnd : Option Nat := none
  /-- since when every engine and mover of a resident context has been stalled without a break (R354) -/
  stall : Option Nat := none
  /-- when a resident context became blocked -/
  blocked : Option Nat := none
  waitClass : Nat := 0
  /-- whether it was blocked when it was last saved -/
  wasBlocked : Bool := false
  /-- since when it has been ready and neither resident nor displaced -/
  readySince : Nat := 0
  urgent : Option Nat := none
  saved : List SavedCore := []
  field : Option FieldSt := none
  /-- the sites the saved state came from -/
  oldSites : List Nat := []
  /-- signal engines that ran when the context stopped, as core * 2 + engine -/
  running : List Nat := []
  /-- held by an armed barrier (R271) -/
  held : Bool := false
  /-- owed a save because a recovery moves it (R478) -/
  moving : Bool := false
  deriving DecidableEq, Repr

/-- The phase of a lendable glade shape. -/
inductive LendPhase where
  | starting | lent | returning
  deriving DecidableEq, Repr

/-- A lent glade shape: its borrower, its phase, the start of its next use in TAI nanoseconds, when it was recalled. -/
structure LendSt where
  borrower : Nat × Nat
  phase : LendPhase
  use : Option Int := none
  recallAt : Nat := 0
  deriving DecidableEq, Repr

/-- The scheduler's state (11.3, 11.4). -/
structure SchedSt where
  ctxs : Tab (Nat × Nat) Ctx := []
  /-- start tags S(o, c) -/
  tags : Tab (Nat × Nat) Nat := []
  /-- virtual times V(c) -/
  vtime : Tab Nat Nat := []
  /-- when an owner last gained an urgent allotment in a cluster -/
  urgentAt : Tab (Nat × Nat) Nat := []
  lent : Tab (Nat × Nat) LendSt := []
  /-- clusters that owe a decision (R352) -/
  due : List Nat := []
  /-- when the image of an owner was released (Table 16.6) -/
  released : Tab Nat Nat := []
  /-- by owner and group: time with a context resident, and since when one is (Table 16.6) -/
  groups : Tab (Nat × Nat) (Nat × Option Nat) := []
  deriving DecidableEq, Repr

/-- The steps of a tenant reset or removal at which it waits (R298): for the last switch window of a load, or for the
issued requests. -/
inductive ResetStep where
  | waitSwitch | drain
  deriving DecidableEq, Repr

/-- A running tenant reset or removal. -/
structure ResetSt where
  step : ResetStep
  start : Nat
  step3 : Nat := 0
  source : Nat
  limit : Nat
  /-- host requests issued before step 3 and not answered -/
  left : List (Nat × MovReq) := []
  /-- the drain limit has passed with requests left (R298 step 4) -/
  squashed : Bool := false
  deriving DecidableEq, Repr

/-- What an extent command waits for (R290, R291). -/
inductive ExtentPhase where
  | zeroing | idle
  deriving DecidableEq, Repr

/-- The command of SCH_CMD that runs (R285, R290): the owner, the extent index, the extent (none for UNMAP_EXTENT), and
since when it waits for the movers. -/
structure ExtentCmd where
  owner : Nat
  index : Nat
  ext : Option Extent
  phase : ExtentPhase
  since : Nat := 0
  deriving DecidableEq, Repr

/-- The state of clearings that no register holds. -/
structure TenSt where
  images : Tab Nat Loaded := []
  load : Option LoadSt := none
  resets : Tab Nat ResetSt := []
  cmd : Option ExtentCmd := none
  deriving DecidableEq, Repr

end Sys2Proof
end

