-- ==== Sys2Proof/Data/Timing.lean ====
section
/-!
DEFINITION. The data of tolls and timestamp queues (chapter 13).
-/
namespace Sys2Proof

/-- The inactive edge of a pulse: at a value of the counter, in its own units (R422), or, where the counter has been stepped, at an
elapsed time (R424). -/
inductive PulseEnd where
  | count (c : Nat) | elapsed (e : Nat)
  deriving DecidableEq, Repr

/-- An armed toll: its first edge in TAI nanoseconds, the number of its next edge, the first edge it was armed for, the edge of its last
pulse, and, while a pulse is active, where it ends. -/
structure TollSt where
  start : Nat
  next : Nat := 0
  first : Nat := 0
  given : Option Nat := none
  pulseEnd : Option PulseEnd := none
  deriving DecidableEq, Repr

/-- An entry of a transmit timestamp queue (R420): its identifier, the counter (in its own units), TIMING. -/
structure TsEntry where
  id : Nat
  at_ : Nat
  timing : Bool
  deriving DecidableEq, Repr

/-- The state of the time function that no register holds. -/
structure TimeSt where
  /-- armed tolls -/
  tolls : Tab Nat TollSt := []
  /-- die 7 drives the toll pins (R425) -/
  taken : Bool := false
  stamps : Tab Nat (List TsEntry) := []
  /-- elapsed time since which REF_CLK shows no edge (R413) -/
  lostAt : Option Nat := none
  /-- elapsed time of the last gap of REF_CLK (R413) -/
  gapAt : Nat := 0
  /-- elapsed time at which the source of a recovered clock output last changed (R418) -/
  synceAt : Tab Nat Nat := []
  /-- elapsed time of the last PPS_IN edge -/
  ppsAt : Nat := 0
  /-- slots of a transmit ring that the manager has handed over and the port has not taken (R417) -/
  ring : Tab Nat (List (List (BitVec 8))) := []
  deriving DecidableEq, Repr

end Sys2Proof
end

