-- ==== Sys2Proof/Data/Woruri.lean ====
section
/-!
DEFINITION. The data of the Woruri fabric (chapter 14): packets, windows, delivery state per destination and source,
links, the replay table and the store-merge buffers.
-/
namespace Sys2Proof

/-- Packet types (Table 14.2); WRITE_ACK and INV_ACK share a code and differ in ARGS bit 0. -/
inductive PktType where
  | read | write | atomic | inv | readRsp | writeAck | invAck | atomicRsp | nack | probe | probeAck | spdm
  deriving DecidableEq, Repr

/-- Packet classes (R436); the fourth is reserved. -/
inductive PktClass where
  | request | response | control | reserved
  deriving DecidableEq, Repr

/-- One atomic: the payload of an ATOMIC packet, or a constituent entry (Tables 14.2 and 14.4). `operand2` is COMPARE,
`ret` the RETURN of a response. -/
structure AtomEntry where
  src : Nat := 0
  seq : Nat := 0
  identity : Nat
  epoch : Nat
  stamp : Nat
  operand : Nat
  operand2 : Nat := 0
  ret : Nat := 0
  deriving DecidableEq, Repr

/-- A fabric packet (Table 14.1). `mask` lists the bytes a WRITE writes, as a bit for each byte of its line; `odd` says
that a reserved field is not zero. -/
structure Packet where
  typ : PktType
  cls : PktClass
  nocomb : Bool := false
  combined : Bool := false
  count : Nat := 0
  src : Nat
  dst : Nat
  incarn : Nat := 0
  seq : Nat := 0
  cum : Nat := 0
  addr : Nat := 0
  len : Nat := 0
  held : Bool := false
  busy : Bool := false
  stale : Bool := false
  odd : Bool := false
  op : Nat := 0
  size8 : Bool := false
  lines : Nat := 0
  mask : Nat := 0
  data : List Byte := []
  atoms : List AtomEntry := []
  deriving DecidableEq, Repr

/-- A packet as it comes in at a port: the quad, its LINK_CTR, whether its integrity tag verifies, and the packet. -/
structure InPkt where
  quad : Quad
  ctr : Nat
  tagOk : Bool
  pkt : Packet
  deriving DecidableEq, Repr

/-- An import window of an owner (R432): fabric byte address, pages of 4 KiB, permissions. -/
structure ImportWin where
  base : Nat
  pages : Nat
  read : Bool
  write : Bool
  atomic : Bool
  deriving DecidableEq, Repr

/-- An export window (R433): offset, pages, permissions, the node allowed if not any, the owner and its clearing
address. -/
structure ExportWin where
  base : Nat
  pages : Nat
  read : Bool
  write : Bool
  atomic : Bool
  anyNode : Bool
  node : Nat
  owner : Nat
  clBase : Nat
  deriving DecidableEq, Repr

/-- An effect in an effect log: item and index within it (R324). -/
structure EffectRef where
  queue : Nat
  item : Nat
  index : Nat
  deriving DecidableEq, Repr

/-- Who waits for the response of a request: a line cache's fill of a read, a mover's write, an atomic effect, the INV
command, a write of a queue agent. -/
inductive FabricWait where
  | fill (die : Nat) (line : Nat)
  | write (site : Nat) (req : MovReq)
  | effect (e : EffectRef)
  | inv
  | agent
  deriving DecidableEq, Repr

/-- A request to a destination that has its sequence (R437): when it was issued, whether its port has sent it since the
last resend order, whether the destination has acknowledged it, and whether its response has come or it has ended. -/
structure OutReq where
  pkt : Packet
  wait : FabricWait
  issued : Nat
  unsent : Bool := true
  acked : Bool := false
  answered : Bool := false
  resent : Bool := false
  deriving DecidableEq, Repr

/-- The device as a source toward one destination node (R431, R437, R453). `again` holds atomics answered BUSY with the time
from which they go again (R447); `deadSeq` is the record of the node's death. -/
structure DestSt where
  route : Nat := 0
  port : Option Nat := none
  next : Nat := 1
  cum : Nat := 0
  unacked : List OutReq := []
  /-- requests that wait for the window of 1,024 sequences -/
  waiting : List (Packet × FabricWait × Nat) := []
  /-- responses and control packets to send, oldest first -/
  replies : List Packet := []
  heard : Nat := 0
  lastProbe : Nat := 0
  dead : Bool := false
  deadSeq : Nat := 0
  again : List (Packet × FabricWait × Nat) := []
  deriving DecidableEq, Repr

/-- A source node as seen by the device as a destination (R438 to R440). `early` is the highest sequence that has come above
CUM + 1: a gap remains below it. -/
structure SrcSt where
  incarn : Nat := 0
  cum : Nat := 0
  lastNack : Nat := 0
  early : Option Nat := none
  deriving DecidableEq, Repr

/-- One port's link (R441, R455 to R457, R452). Credits are in 32-byte units, by class: `cred` those the partner has granted, `given`
those the partner holds of what this port grants. -/
structure PortLink where
  credReq : Nat := 0
  credRsp : Nat := 0
  credCtl : Nat := 0
  givenReq : Nat := 0
  givenRsp : Nat := 0
  givenCtl : Nat := 0
  high : Nat := 0
  fresh : Bool := true
  accepted : List Nat := []
  /-- elapsed times of integrity and replay failures in the last millisecond -/
  fails : List Nat := []
  /-- the packet at a stalled input and since when it stalls -/
  stalled : Option (InPkt × Nat) := none
  /-- requests that have passed the checks behind it, oldest first -/
  behind : List InPkt := []
  /-- SPDM messages passed to Mewait while securing -/
  spdm : List (List Byte) := []
  /-- the packet the port sent last, as its header left (R436) -/
  last : Option Packet := none
  deriving DecidableEq, Repr

/-- An entry of the replay table (R447): pairs of effect order and identity, with their RETURN, lowest first. -/
structure ReplayEntry where
  pairs : List (Nat × Nat × Nat) := []
  used : Nat := 0
  deriving DecidableEq, Repr

/-- A store in a store-merge buffer: where it goes, and who is to be acknowledged. -/
structure MergeStore where
  line : Nat
  bytes : LineBytes
  src : Nat
  incarn : Nat
  seq : Nat
  deriving DecidableEq, Repr

/-- The state of the fabric. -/
structure WorSt where
  imports : Tab (Nat × Nat) ImportWin := []
  exports : Tab Nat ExportWin := []
  dests : Tab Nat DestSt := []
  srcs : Tab Nat SrcSt := []
  /-- early packets of all sources, in order of arrival (R438) -/
  reorder : List InPkt := []
  links : Tab Nat PortLink := []
  /-- keyed by source node, epoch, upper half of the stamp, upper bits of the identity -/
  replay : Tab (Nat × Nat × Nat × Nat) ReplayEntry := []
  /-- by package pseudo-channel: stack * 32 + pseudo-channel -/
  merge : Tab Nat (List MergeStore) := []
  /-- an INV command that waits for its fence: the packet, and by node how many requests issued before it are not
  acknowledged (R443, R449) -/
  inv : Option (Packet × Tab Nat Nat) := none
  deriving DecidableEq, Repr

end Sys2Proof
end

