-- ==== Sys2Proof/Data/Ziura.lean ====
section
/-!
DEFINITION. The data of the Ziura mesh (chapter 1): route orders, flits, and what the dies hold of them.
-/
namespace Sys2Proof

/-- The three orders of R33, numbered as the ORDER fields of ZIU_ROUTE are (Table 1.8). -/
inductive ZOrder where
  | horizontalFirst | verticalFirst | detour
  deriving DecidableEq, Repr

/-- The kinds of traffic on the mesh (Table 1.5). -/
inductive ZKind where
  | canopy | recordMirror
  | gladeStream | gladeMover
  | inferenceStream | moverRequest
  | response
  deriving DecidableEq, Repr

/-- The virtual channel of a kind of traffic (R34, Table 1.5). -/
def ZKind.vc : ZKind → Fin 4
  | .canopy | .recordMirror => 0
  | .gladeStream | .gladeMover => 1
  | .inferenceStream | .moverRequest => 2
  | .response => 3

/-- A Ziura flit: its source and destination die, its kind of traffic, its sequence in the triple (R35), its order (R33), its
payload words, the item whose data it carries, and the core that takes them. -/
structure ZFlit where
  src : Die
  dst : Die
  kind : ZKind
  seq : Nat
  order : ZOrder
  words : List Nat := []
  item : Option ItemRef := none
  core : Option Site := none
  deriving DecidableEq, Repr

/-- The virtual channel of a flit, the third part of its triple (R34, R35). -/
def ZFlit.vc (f : ZFlit) : Fin 4 := f.kind.vc

/-- What a destination keeps of a triple (R35): the sequence to be released next, and the flits that came early. DESIGN CHOICE (log
entry 104): R35 gives a sequence neither a first value nor a width, and the model starts each triple at 0 and never wraps. -/
structure ZTriple where
  next : Nat := 0
  held : List ZFlit := []
  deriving DecidableEq, Repr

/-- The state of the mesh that no register holds. -/
structure ZiuraSt where
  triples : Tab (Nat × Nat × Nat) ZTriple := []
  /-- flits released to the units of a die, in the order of their release -/
  released : Tab Nat (List ZFlit) := []
  /-- flits that wait at a die for new orders (R36) -/
  waiting : Tab Nat (List ZFlit) := []
  /-- flits that a die has sent again on new orders and that have not arrived -/
  onward : List ZFlit := []
  /-- orders that a source has given flits for a destination before the order its ZIU_ROUTE now shows: flits that were sent under
  them may still be on their way (R33, R38) -/
  given : Tab (Nat × Nat) (List ZOrder) := []
  /-- elapsed times of the retries of a port in the last millisecond -/
  retries : Tab (Nat × Nat) (List Nat) := []
  /-- ends of a port that went down whose PORT_EN has not been cleared since (R38) -/
  owed : List (Nat × Nat) := []
  /-- ports whose VDD_ZIU rail is out of range (R38) -/
  railOut : List (Nat × Nat) := []
  /-- a port or a die has changed since the last orders (R37) -/
  due : Bool := false
  deriving DecidableEq, Repr

end Sys2Proof
end

