-- ==== Sys2Proof/Syntax.lean ====
section
/-!
DEFINITION. The commands of the block, one constructor for each row of the opcode table: a register write of the host, a request or
response of a bus, an event on a pin, or an event of one of the device's own units. The operands name the unit, and give what the
outside or the unit's own choice supplies.
-/
namespace Sys2Proof

/-- One command. Each constructor's docstring is its row. -/
inductive Instr where
  /-- REGISTER_WRITE (R7). A write to a register with no row of its own takes effect as its access code gives, including clamps, w1c clears, lock and ignore conditions. -/
  | registerWrite (sp : HostSpace) (addr size : Nat) (data : Word)
  /-- ZIURA_FLIT_ARRIVE (R35). A Ziura flit arrives at its destination die and is held, released in sequence order, or dropped as already delivered. -/
  | ziuraFlitArrive (f : ZFlit) (half : Fin 2) (ecc : EntryEcc) (srcHalf : Fin 2) (srcEcc : EntryEcc)
  /-- ZIURA_LINK_RETRY (R36). A Ziura flit fails its CRC and is retried at link level, adding to the port's retry count. -/
  | ziuraLinkRetry (d : Die) (p : Fin 3)
  /-- ZIURA_PORT_DOWN (R36). A port reaches 16 retries within 1 ms or fails training and goes down; flits wait at the sending die and the fault is reported to the chief. -/
  | ziuraPortDown (d : Die) (p : Fin 3) (near far : List ZFlit)
  /-- ZIURA_REROUTE (R37). The chief controller sets new route orders in every die after a port or die change, or declares a partition. -/
  | ziuraReroute
  /-- PORT_EN_WRITE (R38). A write to ZIU_CTRL PORT_EN takes a port down on clear or starts its retraining when set on both ends. -/
  | portEnWrite (d : Die) (v : Word)
  /-- ZIURA_TRAINING_END (R38). Ziura port training ends with the port up, triggering new routes, or with training failed and the port left down. -/
  | ziuraTrainingEnd (d : Die) (p : Fin 3) (ok : Bool)
  /-- ZIU_VC1_RESERVE_WRITE (R41). A write to ZIU_VC1_RESERVE sets the radio reservation, clamped to 0x80, and is ignored while any glade holds an image. -/
  | ziuVc1ReserveWrite (d : Die) (v : Word)
  /-- TENSOR_STEP (R49). A field fires one step when every needed input lane holds a position and every output lane has room, multiplying, passing elements east and partials south, and shifting loads. -/
  | tensorStep (anchor : Site) (fault : Option LaneFault)
  /-- PASS_RELEASE (R68). The west edge releases a held swapping pass once its load is complete in every column, ending the bubbles. -/
  | passRelease (anchor : Site)
  /-- FIELD_STOPPED (R79). A stopping field finishes draining released positions and started loads and reports STOPPED. -/
  | fieldStopped (anchor : Site)
  /-- VEC_ADD (R121). The vector engine adds two vectors elementwise in binary32. -/
  | vecAdd (c : VCtl) (a b : VOpnd)
  /-- VEC_SUB (R121). The vector engine subtracts two vectors elementwise in binary32. -/
  | vecSub (c : VCtl) (a b : VOpnd)
  /-- VEC_MUL (R121). The vector engine multiplies two vectors elementwise in binary32. -/
  | vecMul (c : VCtl) (a b : VOpnd)
  /-- VEC_FMA (R121). The vector engine performs a fused multiply-add elementwise with one rounding. -/
  | vecFma (c : VCtl) (a b d : VOpnd)
  /-- VEC_MIN (R122). The vector engine takes the elementwise minimum, with NaN and signed-zero rules. -/
  | vecMin (c : VCtl) (a b : VOpnd)
  /-- VEC_MAX (R122). The vector engine takes the elementwise maximum, with NaN and signed-zero rules. -/
  | vecMax (c : VCtl) (a b : VOpnd)
  /-- VEC_ABS (R121). The vector engine takes the elementwise absolute value. -/
  | vecAbs (c : VCtl) (a : VOpnd)
  /-- VEC_NEG (R121). The vector engine negates each element. -/
  | vecNeg (c : VCtl) (a : VOpnd)
  /-- VEC_COMPARE (R121). The vector engine compares two vectors elementwise. -/
  | vecCompare (c : VCtl) (r : VRel) (a b : VOpnd)
  /-- VEC_SELECT (R121). The vector engine selects elementwise between two vectors. -/
  | vecSelect (c : VCtl) (cond a b : VOpnd)
  /-- VEC_FORMAT_CONVERSION (R121). The vector engine converts elements between FP32 and BF16. -/
  | vecFormatConversion (c : VCtl) (a : VOpnd)
  /-- REDUCE_SUM (R124). The vector engine sums elements over the canonical binary64 tree and rounds once. -/
  | reduceSum (c : VCtl) (a : VOpnd) (n : Nat) (piece : Option SumPiece)
  /-- REDUCE_MAX (R125). The vector engine returns the maximum of a vector. -/
  | reduceMax (c : VCtl) (a : VOpnd) (n : Nat)
  /-- REDUCE_MIN (R125). The vector engine returns the minimum of a vector. -/
  | reduceMin (c : VCtl) (a : VOpnd) (n : Nat)
  /-- ARGMAX (R125). The vector engine returns the lowest index of the maximum. -/
  | argmax (c : VCtl) (a : VOpnd) (n : Nat)
  /-- ARGMIN (R125). The vector engine returns the lowest index of the minimum. -/
  | argmin (c : VCtl) (a : VOpnd) (n : Nat)
  /-- EXP2 (R132). The vector engine evaluates exp2 from its function table. -/
  | exp2 (c : VCtl) (slot : Nat) (a : VOpnd)
  /-- LOG2 (R132). The vector engine evaluates log2 from its function table. -/
  | log2 (c : VCtl) (slot : Nat) (a : VOpnd)
  /-- RECIPROCAL (R132). The vector engine evaluates a reciprocal from its function table. -/
  | reciprocal (c : VCtl) (slot : Nat) (a : VOpnd)
  /-- RECIPROCAL_SQUARE_ROOT (R132). The vector engine evaluates a reciprocal square root from its function table. -/
  | reciprocalSquareRoot (c : VCtl) (slot : Nat) (a : VOpnd)
  /-- INTERVAL_FUNCTION (R132). The vector engine evaluates an interval table function such as tanh, sigmoid or erf. -/
  | intervalFunction (c : VCtl) (slot func : Nat) (a : VOpnd)
  /-- SOFTMAX (R130). The vector engine computes softmax by the fixed sequence of steps. -/
  | softmax (c : VCtl) (slotExp slotRecip : Nat) (a : VOpnd) (n : Nat)
  /-- LAYER_NORMALISATION (R130). The vector engine computes layer normalisation by the fixed sequence of steps. -/
  | layerNormalisation (c : VCtl) (slotRsqrt : Nat) (eps : Nat) (a g b : VOpnd) (n : Nat)
  /-- COMBINING_NODE_ARRIVE (R107). A partial node reaches a combining stage and is held or joined with its canonical sibling, or slice roots are summed in fixed order. -/
  | combiningNodeArrive (site : Site) (src : NodeSrc) (ecc : Ecc)
  /-- MAC (R135). The signal engine adds a product to ACC. -/
  | mac (e : SigEngine) (a b : SigOpnd) (ecc : Ecc) (item : Option ItemRef)
  /-- MSU (R135). The signal engine subtracts a product from ACC. -/
  | msu (e : SigEngine) (a b : SigOpnd) (ecc : Ecc) (item : Option ItemRef)
  /-- MACZ (R135). The signal engine replaces ACC with the product. -/
  | macz (e : SigEngine) (a b : SigOpnd) (ecc : Ecc) (item : Option ItemRef)
  /-- MSUZ (R135). The signal engine replaces ACC with minus the product. -/
  | msuz (e : SigEngine) (a b : SigOpnd) (ecc : Ecc) (item : Option ItemRef)
  /-- STACC (R136). The signal engine stores ACC shifted, rounded and saturated. -/
  | stacc (e : SigEngine) (dst : SigOpnd) (ecc : Ecc) (item : Option ItemRef)
  /-- MOVE (R137). The signal engine moves a word between X, Y and the general registers. -/
  | move (e : SigEngine) (dst src : SigOpnd) (ecc : Ecc) (item : Option ItemRef)
  /-- SIG_ADD (R137). The signal engine adds general registers with wrapping. -/
  | sigAdd (e : SigEngine) (d a b : Fin 16) (ecc : Ecc) (item : Option ItemRef)
  /-- SIG_SUB (R137). The signal engine subtracts general registers with wrapping. -/
  | sigSub (e : SigEngine) (d a b : Fin 16) (ecc : Ecc) (item : Option ItemRef)
  /-- SIG_ARITHMETIC_SHIFT (R137). The signal engine shifts a general register arithmetically. -/
  | sigArithmeticShift (e : SigEngine) (d a : Fin 16) (left : Bool) (n : Nat) (ecc : Ecc) (item : Option ItemRef)
  /-- SIG_LOGICAL_SHIFT (R137). The signal engine shifts a general register logically. -/
  | sigLogicalShift (e : SigEngine) (d a : Fin 16) (left : Bool) (n : Nat) (ecc : Ecc) (item : Option ItemRef)
  /-- SIG_AND (R137). The signal engine ANDs general registers. -/
  | sigAnd (e : SigEngine) (d a b : Fin 16) (ecc : Ecc) (item : Option ItemRef)
  /-- SIG_OR (R137). The signal engine ORs general registers. -/
  | sigOr (e : SigEngine) (d a b : Fin 16) (ecc : Ecc) (item : Option ItemRef)
  /-- SIG_XOR (R137). The signal engine XORs general registers. -/
  | sigXor (e : SigEngine) (d a b : Fin 16) (ecc : Ecc) (item : Option ItemRef)
  /-- SETAG (R143). The signal engine writes BASE, LEN, INDEX or STEP of one address generator. -/
  | setag (e : SigEngine) (g : Fin 16) (f : AgField) (v : SigVal) (ecc : Ecc) (item : Option ItemRef)
  /-- IN (R139). The signal engine takes the next word of its input port, stalling while it is empty. -/
  | in_ (e : SigEngine) (dst : SigOpnd) (last : Bool) (ecc : Ecc) (item : Option ItemRef)
  /-- OUT (R139). The signal engine sends a word or the stored ACC to its output port, stalling while it is full. -/
  | out (e : SigEngine) (src : OutSrc) (endItem : Bool) (ecc : Ecc) (item : Option ItemRef)
  /-- BR (R137). The signal engine branches unconditionally. -/
  | br (e : SigEngine) (target : Fin 4096) (ecc : Ecc) (item : Option ItemRef)
  /-- BRZ (R137). The signal engine branches when a general register is zero. -/
  | brz (e : SigEngine) (n : Fin 16) (target : Fin 4096) (ecc : Ecc) (item : Option ItemRef)
  /-- BRNZ (R137). The signal engine branches when a general register is not zero. -/
  | brnz (e : SigEngine) (n : Fin 16) (target : Fin 4096) (ecc : Ecc) (item : Option ItemRef)
  /-- REPEAT (R137). The signal engine repeats the next instruction n times. -/
  | repeat (e : SigEngine) (n : Nat) (ecc : Ecc) (item : Option ItemRef)
  /-- WAITBEAT (R139). The signal engine stalls until the next drumbeat of its glade. -/
  | waitbeat (e : SigEngine) (ecc : Ecc) (item : Option ItemRef)
  /-- FEC_DESCRIPTOR (R151). A code-block descriptor arrives at the FEC block and is queued, or rejected as malformed. -/
  | fecDescriptor (c : Cluster) (k : Nat) (item : Option ItemRef)
  /-- DECODE_START (R151). A free decoder takes the waiting decode descriptor with the earliest deadline, or expires it. -/
  | decodeStart (c : Cluster) (i : Fin 2)
  /-- DECODE_DONE (R147). A decoder stops after syndrome success or MAX_ITER and writes its hard decisions. -/
  | decodeDone (c : Cluster) (i : Fin 2) (ecc store : Ecc)
  /-- ENCODE_START (R151). The encoder takes the waiting encode descriptor with the earliest deadline, or expires it. -/
  | encodeStart (c : Cluster)
  /-- ENCODE_DONE (R150). The encoder finishes an LDPC or polar code block. -/
  | encodeDone (c : Cluster) (ecc store : Ecc)
  /-- FEC_RESULT_EMIT (R153). The FEC block emits a result record from its reorder buffer in descriptor arrival order. -/
  | fecResultEmit (c : Cluster) (stream : Nat)
  /-- FLIT_SEND (R177). A producer port holding a credit sends a flit and spends the credit. -/
  | flitSend (p : PortId) (new : Option OutFlit) (ecc : EntryEcc)
  /-- FLIT_FORWARD (R178). A router link direction chooses and sends a flit by reservation and round robin. -/
  | flitForward (site : Site) (d : Dir) (ecc : EntryEcc)
  /-- RESERVATION_WINDOW (R178). A 64-cycle reservation window ends and slot usage restarts. -/
  | reservationWindow (c : Cluster)
  /-- FLIT_ARRIVE (R167). An entry arrives at an ingress, signal, FEC, core store port or mover and is taken or discarded by owner check. -/
  | flitArrive (a : Arrival) (ecc : EntryEcc)
  /-- CREDIT_RETURN (R177). A consumer reads an entry and one credit returns to its producer. -/
  | creditReturn (p : PortId)
  /-- DESCRIPTOR_POST (R204). A core program posts a descriptor to its mover queue. -/
  | descriptorPost (site : Site) (off : Nat) (item : Option ItemRef) (ecc : Ecc)
  /-- DESCRIPTOR_START (R204). A mover starts the next descriptor in queue order once fence and line conditions allow. -/
  | descriptorStart (site : Site) (ecc : Ecc)
  /-- COPY (R202). The mover copies strided elements from source to destination. -/
  | copy (site : Site) (ecc : Ecc)
  /-- FEED (R208). The mover writes a skewed streamed operand and its control entries into core store. -/
  | feed (site : Site) (scales : List (Nat × Nat)) (ecc : Ecc)
  /-- LOAD (R210). The mover sends stationary elements into the load lanes bottom row first. -/
  | load (site : Site) (scales : List (List (Nat × Nat))) (ecc : Ecc)
  /-- GATHER (R202). The mover copies with an index list on the source side. -/
  | gather (site : Site) (ecc : Ecc)
  /-- SCATTER (R202). The mover copies with an index list on the destination side. -/
  | scatter (site : Site) (ecc : Ecc)
  /-- ZERO (R202). The mover writes zeros over its destination elements. -/
  | zero (site : Site)
  /-- HBM_REQUEST_ISSUE (R228). A mover issues a request when a slot and bank-group cap allow, or parks it. -/
  | hbmRequestIssue (site : Site) (ecc : EntryEcc)
  /-- HBM_RESPONSE (R227). Data or a write acknowledgement returns to a mover and frees its slot. -/
  | hbmResponse (site : Site) (ecc : EntryEcc)
  /-- DESCRIPTOR_COMPLETE (R204). A descriptor completes in queue order once its writes are acknowledged and reads returned. -/
  | descriptorComplete (site : Site)
  /-- LINE_CACHE_REQUEST (R220). A request reaches the home line cache and is served in arrival order, possibly starting a prefetch. -/
  | lineCacheRequest (d : Die) (ext : Option LcReq) (ecc : Ecc) (ahead : Nat)
  /-- LINE_FILL (R225). A fill from HBM completes and answers waiting requests, installed unless invalidated in flight. -/
  | lineFill (d : Die) (key : LineKey) (way : Fin 16) (victim : Option LineKey)
  /-- HBM_READ (R215). An HBM read completes with correction, write-back, or uncorrectable failure. -/
  | hbmRead (k : Stack) (line : Fin (2 ^ 28)) (pair : Fin 4) (ecc : Ecc)
  /-- HBM_WRITE (R215). An HBM write completes, merging partial pairs by read-modify-write. -/
  | hbmWrite (k : Stack) (line : Fin (2 ^ 28)) (pair : Fin 4) (ecc : Ecc)
  /-- SCRUB_LINE (R216). The scrub timer reads the next line of the stack. -/
  | scrubLine (k : Stack) (pair : Fin 4) (ecc : Ecc)
  /-- HBM_RESERVE_WRITE (R230). A write to HBM_RESERVE sets the glade share, ignored while any glade holds an image. -/
  | hbmReserveWrite (k : Stack) (v : Word)
  /-- HBM_LC_CTRL_WRITE (R223). A write to HBM_LC_CTRL sets prefetch and glade ways, ignoring a GLADE_WAYS change while a glade holds an image. -/
  | hbmLcCtrlWrite (d : Die) (v : Word)
  /-- IMG_ARG_WRITE (R244). A write to a load argument register takes effect unless a load is BUSY. -/
  | imgArgWrite (a : ImgArg) (v : Word)
  /-- START (R243). START begins an image load, running the clearing and length checks, or is lost while BUSY. -/
  | start
  /-- ABORT (R255). ABORT cancels a load in its current phase as Table 7.6 gives. -/
  | abort
  /-- IMAGE_HEADER_ARRIVE (R246). The image header arrives during FETCH and format, part, firmware and key checks run. -/
  | imageHeaderArrive (bytes : List Byte)
  /-- FETCH_END (R243). The image is fully fetched into the staging reserve and VERIFY begins. -/
  | fetchEnd (i : Image) (poison : Bool)
  /-- VERIFY_END (R241). Both signatures and the security version are checked and ADMIT begins or the load is refused. -/
  | verifyEnd (rsa slh : Bool)
  /-- ADMIT_END (R246). The admission checks and placement finish, refusing the load or reserving its resources. -/
  | admitEnd
  /-- DISTRIBUTE_END (R243). CORE sections are copied to the dies' staging reserves and DRAIN or SWITCH begins. -/
  | distributeEnd
  /-- DRAIN_END (R249). Every accepted item of a replaced clearing has its completion and SWITCH begins. -/
  | drainEnd
  /-- DRAIN_LIMIT_EXPIRE (R249). The drain limit expires and incomplete items are ended Cancelled. -/
  | drainLimitExpire
  /-- SWITCH_WINDOW_END (R250). A switch window for a core set ends; after the last, the clearing is released or awaits activation. -/
  | switchWindowEnd (c : Cluster) (ns : Fin 50001)
  /-- GLADE_ACTIVATE (R253). The activation drumbeat releases a loaded glade and ends its load Done. -/
  | gladeActivate
  /-- ARM (R270). ARM arms a barrier for a clearing or refuses with a cause. -/
  | arm
  /-- CANCEL (R273). CANCEL releases an armed barrier at once as cancelled. -/
  | cancel
  /-- BARRIER_RELEASE (R272). At time T the core control slots start the units of each resident context of the clearing. -/
  | barrierRelease
  /-- SENTINEL_SAMPLE (R274). An engine-pass selected by the sampling count is captured into the sentinel reserve or skipped. -/
  | sentinelSample (site : Site) (upset : Option (List GranPartial)) (env : CoreEnv) (busy : Bool)
  /-- SENTINEL_CHECK_START (R275). A sample record is started on a free checker core. -/
  | sentinelCheckStart (d : Die) (i : Nat)
  /-- SENTINEL_CHECK_DONE (R277). The checker's recomputation is compared; a match is counted, a mismatch marks suspects and starts arbitration. -/
  | sentinelCheckDone (d : Die) (i : Nat) (upset : Option (List GranPartial)) (env : CoreEnv)
  /-- SENTINEL_ARBITER_DONE (R278). The arbiter's result decides which core is wrong and records the verdict. -/
  | sentinelArbiterDone (d : Die) (i : Nat) (upset : Option (List GranPartial)) (env : CoreEnv)
  /-- SENTINEL_TIMEOUT (R276). A record finds no checker or arbiter within 100 ms and is dropped or judged undecided. -/
  | sentinelTimeout (d : Die) (i : Nat)
  /-- PENDING_CLEAR (R279). Writing 1 to GLB_SENT_LAST PENDING frees the last-mismatch registers for the next mismatch. -/
  | pendingClear
  /-- CREATE (R286). CREATE makes a clearing Active with its budgets, reach, weight and drain limit. -/
  | create (owner : Fin 2048)
  /-- MAP_EXTENT (R290). MAP_EXTENT checks causes and zeroes the pages of a new extent. -/
  | mapExtent (owner : Fin 2048)
  /-- EXTENT_ZERO_DONE (R290). Zeroing of a new extent ends and the owner's movers are stopped from starting descriptors. -/
  | extentZeroDone (ok : Bool)
  /-- MOVERS_IDLE (R290). The owner's movers fall idle and the extent change is installed on every die. -/
  | moversIdle
  /-- MOVERS_BUSY (R290). The drain limit passes before the movers fall idle and the extent command is refused. -/
  | moversBusy
  /-- UNMAP_EXTENT (R291). UNMAP_EXTENT stops the owner's movers to remove an extent after write-back and invalidation. -/
  | unmapExtent (owner : Fin 2048)
  /-- BUDGET (R287). BUDGET changes the core budget and queue allotment of a clearing without an image. -/
  | budget (owner : Fin 2048)
  /-- RESET (R298). RESET begins a tenant reset of the clearing. -/
  | reset (owner : Fin 2048)
  /-- REMOVE (R300). REMOVE begins removal of the clearing, or takes over a running reset. -/
  | remove (owner : Fin 2048)
  /-- VF_FLR (R297). A function-level reset of a bound VF begins a tenant reset. -/
  | vfFlr (vf : Fin 1024)
  /-- VF_DISABLE (R297). The host clears VF Enable or lowers NumVFs below a bound VF, beginning its tenant reset. -/
  | vfDisable (n : Option (Fin 1024))
  /-- RESET_DRAIN_END (R298). Every issued request of a resetting clearing has been answered, so cancelled completions are written and the clearing returns to Active or Free. -/
  | resetDrainEnd (owner : Fin 1024)
  /-- SQUASH (R298). The reset drain limit expires and remaining transfers are squashed. -/
  | squash (owner : Fin 1024)
  /-- VF_UNBOUND_ACCESS (R292). An access to the BAR 2 of an enabled but unbound VF reads zero and is counted. -/
  | vfUnboundAccess (vf : Fin 1024) (off : Fin 0x200000) (size : Fin 65)
  /-- QUEUE_MAP (R307). MAP binds an owner's local index to a global queue, sets its home and advances its map generation. -/
  | queueMap (owner : Fin 2048) (loc : Fin 65536)
  /-- QUEUE_UNMAP (R339). UNMAP frees a queue binding and every die's dedup entry for it. -/
  | queueUnmap (owner : Fin 2048) (loc : Fin 65536)
  /-- DOORBELL (R312). A doorbell write raises DB for a queue or counts a QUEUE violation. -/
  | doorbell (src : Reach) (v : Word)
  /-- ACCEPT_ATTEMPT (R313). The queue agent takes the next item when every acceptance condition holds. -/
  | acceptAttempt (q : Nat) (ctrlWord : Nat)
  /-- SUBMISSION_ENTRY_READ (R314). The agent's read of a submission slot returns and the item's acceptance records are written, or the read stops on a mismatch or poison. -/
  | submissionEntryRead (q : Nat) (words : Vector Word 8) (poison : Bool)
  /-- ACCEPTANCE_RECORD_ACK (R315). Both journal copies of acceptance records are acknowledged and ACCEPTED advances. -/
  | acceptanceRecordAck (q : Nat)
  /-- ITEM_RELEASE (R319). The agent releases an accepted item into its entry stream while the context is resident. -/
  | itemRelease (q : Nat)
  /-- ITEM_FINISH (R320). EOI arrives on every exit stream of an item and its acceptance record is marked finished. -/
  | itemFinish (q n : Nat)
  /-- COMMIT (R321). The agent writes the completion record of the next finished item in order and advances COMMITTED. -/
  | commit (q : Nat)
  /-- EFFECT_LOG_WRITE (R324). A pipeline writes a once-only effect entry to its item's effect log. -/
  | effectLogWrite (q n : Nat) (shape : Fin 1024) (e : Effect)
  /-- EFFECT_EMIT (R326). The agent emits the next eligible effect of a queue in order. -/
  | effectEmit (q : Fin 1048576)
  /-- EFFECT_ACK (R326). An effect is acknowledged and the emitted position is journaled. -/
  | effectAck (src : Fin 1048576)
  /-- MESSAGE_RECEIVE (R327). A message reaches its destination agent and is accepted, deduplicated, or discarded as a violation. -/
  | messageReceive (src : Fin 1048576)
  /-- MESSAGE_REOFFER (R327). A waiting message is offered again when the condition that stopped it changes. -/
  | messageReoffer (src : Fin 1048576)
  /-- MIRROR_REBUILD_END (R331). A mirror rebuild ends and acceptance on those homes resumes. -/
  | mirrorRebuildEnd (d : Die)
  /-- SWEEP (R332). After a home change or port switch the agent re-reads submission slots of affected ring-fed queues. -/
  | sweep (q : Nat)
  /-- SCHEDULER_DECISION (R356). The die controller decides which contexts of a cluster run, saving displaced ones and restoring chosen ones. -/
  | schedulerDecision (cluster : Cluster)
  /-- QUANTUM_EXPIRY (R353). A residency's quantum expires, the context is charged and a decision is taken. -/
  | quantumExpiry (owner : Fin 2048) (shape : Fin 1024)
  /-- CONTEXT_BLOCKED (R354). A resident context has stalled for BLOCK_US and becomes blocked in a class. -/
  | contextBlocked (owner : Fin 2048) (shape : Fin 1024)
  /-- CONTEXT_URGENT (R357). A ready home context not run for URGENT_MS becomes urgent. -/
  | contextUrgent (owner : Fin 2048) (shape : Fin 1024)
  /-- SAVE_DONE (R362). A context's save completes, its charge is applied and a decision follows. -/
  | saveDone (owner : Fin 2048) (shape : Fin 1024)
  /-- RESTORE_DONE (R360). A context's restore completes, pending reads are re-issued and it becomes resident. -/
  | restoreDone (owner : Fin 2048) (shape : Fin 1024)
  /-- PENDING_ENTRY_END (R359). A late response to a pending entry arrives and is written into the context's current save place. -/
  | pendingEntryEnd (owner : Fin 2048) (shape : Fin 1024) (j id : Nat) (data : List Byte) (failed : Bool)
  /-- LEND_START (R366). The device lends an idle glade shape, saving the glade state and restoring a borrow context. -/
  | lendStart (glade : Fin 2048) (shape : Fin 1024)
  /-- RECALL (R367). A lent shape is recalled 6 µs before its next use interval or on an event that demands it. -/
  | recall (glade : Fin 2048) (shape : Fin 1024)
  /-- RETURN_DONE (R370). The glade is released on its shape after a return, setting OVER if it took over 6 µs. -/
  | returnDone (glade : Fin 2048) (shape : Fin 1024)
  /-- SCH_CTRL_WRITE (R352). A write to SCH_CTRL sets quantum, blocking and urgency thresholds and triggers a decision. -/
  | schCtrlWrite (v : Word)
  /-- SCH_LEND_CTRL_WRITE (R372). A write of LEND_EN 0 recalls every lent shape; LEND_EN 1 allows lending again. -/
  | schLendCtrlWrite (v : Word)
  /-- RAD_Q_MODE_WRITE (R379). A write to RAD_Q_MODE sets the quad's mode, ignored while a glade flow or Woruri port uses it. -/
  | radQModeWrite (q : Quad) (v : Word)
  /-- FRAME_RECEIVE (R381). A fronthaul frame is received and checked, then written to the glade buffer, answered, or dropped. -/
  | frameReceive (q : Quad) (x : RxFrame)
  /-- DRUMBEAT (R385). The drumbeat of a slot reaches the glade's core control slots and downlink items are created. -/
  | drumbeat (glade : Fin 1024)
  /-- UPLINK_CUTOFF (R384). At a slot's uplink cut-off the arrival map is written and the uplink radio item is created. -/
  | uplinkCutoff (cell : Fin 512)
  /-- RADIO_ITEM_OFFER (R387). A waiting radio item is offered to its queue again when the holding condition changes. -/
  | radioItemOffer (i : Nat)
  /-- RADIO_ITEM_DISCARD (R387). A radio item not yet accepted reaches its deadline and is discarded as UNSENT. -/
  | radioItemDiscard (i : Nat)
  /-- FRAME_TRANSMIT (R398). The port starts the eligible head frame of the highest class, taking a timestamp if requested. -/
  | frameTransmit (q : Quad)
  /-- FRAME_SENT (R326). The port sends a frame's last byte and the effect is acknowledged. -/
  | frameSent (q : Quad)
  /-- TX_DROP (R398). A head frame passes TX_LATE_NS after its launch time or its quad is down and is dropped. -/
  | txDrop (q : Quad) (k : Fin 8)
  /-- GATE_INTERVAL (R399). A gate list entry's interval ends and the next entry's gates apply. -/
  | gateInterval (q : Quad)
  /-- QUEUE_SAMPLE (R401). Every SAMPLE_NS the port samples each class's depth and head delay. -/
  | queueSample (q : Quad)
  /-- FEC_USE_WINDOW (R394). At the end of each 500 µs window FEC occupancy per glade is compared with its declaration. -/
  | fecUseWindow
  /-- MOVE_CANCEL (R403). CANCEL withdraws a pending cell move. -/
  | moveCancel
  /-- QUAD_DOWN (R404). A quad's link goes down, its flows receive nothing and queued egress frames are dropped. -/
  | quadDown (q : Quad)
  /-- SET (R411). SET loads the time counter in every replica and makes VALID 1. -/
  | set
  /-- STEP (R411). STEP adds a signed amount to the time counter in every replica. -/
  | step
  /-- SNAP (R427). SNAP latches the master counter into the snapshot registers. -/
  | snap
  /-- HOLDOVER (R413). REF_CLK shows no edge for 1 µs and the counter runs in holdover. -/
  | holdover
  /-- REF_CLK_RESTORE (R413). REF_CLK has run 1 ms without a gap and the counter returns to it. -/
  | refClkRestore
  /-- PPS_EDGE (R414). A rising edge of PPS_IN latches the counter and adds to COUNT. -/
  | ppsEdge
  /-- PPS_LOSS (R414). No PPS_IN edge for 1.1 s clears PPS_OK. -/
  | ppsLoss
  /-- TX_RING_PROD_WRITE (R417). The manager advances PROD of a transmit ring and the port sends or drops the timing frames. -/
  | txRingProdWrite (q : Quad) (prod : BitVec 16) (slots : List (List Byte)) (bad : List Nat)
  /-- SYNCE_SQUELCH (R418). A recovered clock output is squelched or follows a new lane after its cause. -/
  | synceSquelch (k : Fin 2)
  /-- POP (R420). POP removes the head of a transmit timestamp queue. -/
  | pop (q : Quad)
  /-- TOLL_ARM (R423). Writing EN = 1 arms a toll, or sets BAD or LATE instead. -/
  | tollArm (t : Fin 8) (v : Word)
  /-- TOLL_DISARM (R423). Writing EN = 0 disarms a toll and ends any pulse. -/
  | tollDisarm (t : Fin 8) (v : Word)
  /-- TOLL_EDGE (R422). At edge time S_n a toll drives its pin active. -/
  | tollEdge (t : Fin 8)
  /-- TOLL_PULSE_END (R422). After WIDTH_NS a toll drives its pin inactive, disarming a once toll. -/
  | tollPulseEnd (t : Fin 8)
  /-- TOLL_HANDOVER (R425). Die 7 takes over the toll pins after die 0 is contained. -/
  | tollHandover
  /-- WOR_PORT_EN_WRITE (R457). A write to WOR_P_CTRL EN takes the port down or trains and secures it. -/
  | worPortEnWrite (q : Quad) (v : Word)
  /-- PORT_SECURED (R455). The SPDM session completes and the Woruri port enters the up state. -/
  | portSecured (q : Quad) (root : Option (Fin 4))
  /-- KEY_UPDATE (R455). The device updates the link key before LINK_CTR reaches 2^47. -/
  | keyUpdate (q : Quad)
  /-- PACKET_SEND (R441). A packet is sent once it holds credit, control before responses before requests. -/
  | packetSend (q : Quad) (n : Fin 4096) (req rsp ctl : Fin 2049)
  /-- READ (R442). A received READ is checked, delivered in order and answered from the home line cache or denied. -/
  | read (i : InPkt)
  /-- WRITE (R451). A received WRITE is delivered in order into the store-merge buffer or stalls its input. -/
  | write (i : InPkt)
  /-- ATOMIC (R447). A received ATOMIC is applied once via the replay table or answered from it, STALE or BUSY. -/
  | atomic (i : InPkt)
  /-- INV (R450). A received INV removes lines from every die's line cache and is answered with INV_ACK. -/
  | inv (i : InPkt)
  /-- READ_RSP (R438). A read response arrives, delivers data and acknowledges requests up to CUM. -/
  | readRsp (i : InPkt)
  /-- WRITE_ACK (R443). A write acknowledgement arrives and advances CUM for fences. -/
  | writeAck (i : InPkt)
  /-- INV_ACK (R449). An invalidate acknowledgement arrives and ends the INV command Done. -/
  | invAck (i : InPkt)
  /-- ATOMIC_RSP (R448). An atomic response arrives and its returned value is stored, counting combined responses. -/
  | atomicRsp (i : InPkt)
  /-- NACK (R439). A received NACK makes the source resend the named packet. -/
  | nack (i : InPkt)
  /-- PROBE (R440). A received PROBE is answered with PROBE_ACK carrying CUM and HELD. -/
  | probe (i : InPkt)
  /-- PROBE_ACK (R440). A received PROBE_ACK acknowledges requests and may trigger a resend when HELD is 0. -/
  | probeAck (i : InPkt)
  /-- SPDM (R455). An SPDM packet is passed to Mewait while the port is securing. -/
  | spdm (i : InPkt)
  /-- PROBE_INTERVAL (R439). At each PROBE interval a source probes and a destination re-sends a NACK for a gap. -/
  | probeInterval (n : Fin 4096)
  /-- REROUTE (R431). A Woruri port leaves up and destinations move to the next port with unacknowledged requests resent. -/
  | reroute (q : Quad)
  /-- DEAD_TARGET (R453). A destination silent for DEAD_US becomes dead and its requests end failed. -/
  | deadTarget (n : Fin 4096)
  /-- DEAD_CLEAR (R454). Writing 1 to DEAD clears a node's dead state. -/
  | deadClear
  /-- MERGE_APPLY (R451). The store-merge buffer applies and acknowledges the next store, freeing room for a stalled input. -/
  | mergeApply (k : Stack) (c : Fin 32)
  /-- REPLAY_ENTRY_FREE (R447). A replay table entry idle for 10 s is freed. -/
  | replayEntryFree (src : Fin 4096) (epoch gen queue : Nat)
  /-- MAP_IMPORT (R432). MAP_IMPORT installs an owner's import window. -/
  | mapImport (owner : Fin 2048) (idx : Fin 256)
  /-- MAP_EXPORT (R433). MAP_EXPORT installs an export window. -/
  | mapExport (owner : Fin 2048) (idx : Fin 256)
  /-- UNMAP (R460). UNMAP removes an import or export window for later requests. -/
  | unmap (owner : Fin 2048) (idx : Fin 256) (exp : Bool)
  /-- SEND (R449). SEND issues an INV to a node for a run of lines. -/
  | send
  /-- ERROR_DETECT (R464). A unit detects an error, classes it, writes its record and contains it or queues a recovery. -/
  | errorDetect (e : Detected)
  /-- CORE_HANG (R464). A core control slot fails to acknowledge a canopy command within 100 µs. -/
  | coreHang (site : Site) (restore : Bool)
  /-- HEARTBEAT (R487). The 2 µs heartbeat exchange runs; four misses contain the die at level 4. -/
  | heartbeat (answered : BitVec 8)
  /-- RECOVERY_START (R471). The chief starts the next queued recovery in chain order. -/
  | recoveryStart
  /-- RECOVERY_END (R471). The last step of a recovery ends and the next queued recovery may start. -/
  | recoveryEnd
  /-- STANDBY_RELEASE (R490). The standby group of a protected glade group is released within 50 µs of the fault. -/
  | standbyRelease (glade : Fin 2048) (group : Fin 1024)
  /-- CE_LIMIT_REACHED (R493). A site's corrected errors reach CE_LIMIT within an hour and it enters probation or is retired. -/
  | ceLimitReached (site : Site)
  /-- PROBATION_END (R494). After PROBATION_H hours a site on probation returns to Good if its samples qualify. -/
  | probationEnd (site : Site)
  /-- LINK_TIMEOUT (R500). The active CXL port stays out of L0 for LINK_TMO_MS and, with AUTO_SWITCH, the role moves to port B. -/
  | linkTimeout
  /-- SWITCH (R500). SWITCH moves the active host role to port B if it is held. -/
  | switch
  /-- PORT_SWITCH (R500). The new host port reaches L0 and waiting host requests are reissued. -/
  | portSwitch (x16 gt64 : Bool)
  /-- IRQ_HOLDOFF_END (R513). A VF's hold-off ends and the message is sent if its pending bit is still set. -/
  | irqHoldoffEnd (vf : Fin 1024) (v : Fin 4)
  /-- ATS_TRANSLATION (R515). An ATS translation completion arrives and is cached or treated as a fault. -/
  | atsTranslation (x : Xlat) (victim : Nat)
  /-- ATS_INVALIDATE (R515). An ATS Invalidate Request drops translations and is answered after their requests complete. -/
  | atsInvalidate (fn : Fin 1024) (page n : Nat)
  /-- SNOOP (R516). A CXL.cache snoop is answered with RspIHitI. -/
  | snoop
  /-- HOST_READ_DATA (R517). Host read data arrives, failing the transfer with a POISON record if poisoned. -/
  | hostReadData (site : Site) (id : Nat) (data : Vector Byte 256) (poison : Bool)
  /-- GLOBAL_OBSERVATION (R517). A global-observation response arrives, allowing the completion record to be written. -/
  | globalObservation (site : Site) (id : Nat)
  /-- DOE_OBJECT (R520). A DOE data object arrives and Mewait answers it as SPDM responder. -/
  | doeObject (o : DoeObject)
  /-- DOE_ABORT (R520). A DOE abort ends the object in progress within 1 ms. -/
  | doeAbort
  /-- IDE_FAIL (R521). An IDE check fails and the stream becomes insecure until keys are set again. -/
  | ideFail (cache : Bool)
  /-- LINK_RESET (R522). A PERST, hot reset or link-down reset returns configuration space to reset values. -/
  | linkReset
  /-- PF_FLR (R522). A function-level reset of the PF resets its space and clears VF Enable. -/
  | pfFlr
  /-- SELF_TEST_END (R525). Stage 0x0 ends and the die proceeds to PUF reconstruction or stops. -/
  | selfTestEnd (d : Die) (ok : Bool) (ports : BitVec 3)
  /-- PUF_END (R525). The PUF key is reconstructed and the manifest stage begins. -/
  | pufEnd (d : Die) (ok : Bool)
  /-- FLASH_READER_TAKEOVER (R525). Die 0 has not completed its first flash read in 20 ms and die 7 reads the flash. -/
  | flashReaderTakeover
  /-- MANIFEST_END (R525). The manifest is read and verified and sent to good dies, or the package enters RECOVERY. -/
  | manifestEnd
  /-- FIRMWARE_END (R527). A die has verified its copy of the Mewait image. -/
  | firmwareEnd (d : Die) (ok : Bool)
  /-- ELECTION_ROUND (R530). Every 10 µs candidates announce themselves; a stable set elects the lowest die as chief. -/
  | electionRound (heard : BitVec 8)
  /-- ELECTION_TIMEOUT (R530). No chief confirmation within 1 ms fails the election and warm-resets the package. -/
  | electionTimeout
  /-- IDENTITY_END (R537). The device secret is unwrapped, identity keys derived and the epoch written. -/
  | identityEnd
  /-- BRING_UP_END (R571). Bring-up finishes, capacity registers are filled and the package becomes ready. -/
  | bringUpEnd (b : BringUp)
  /-- FW_STAGE (R533). FW_STAGE fetches and verifies a Mewait image into the staging reserve. -/
  | fwStage (img : FwImage)
  /-- FW_COMMIT (R533). FW_COMMIT writes the staged image to the flash image region. -/
  | fwCommit
  /-- FW_FLOOR (R533). FW_FLOOR raises the firmware floor. -/
  | fwFloor
  /-- KEY_SET (R533). KEY_SET writes a key slot's public keys and floor. -/
  | keySet (key : Vector Byte 416)
  /-- KEY_CLEAR (R533). KEY_CLEAR empties a key slot. -/
  | keyClear
  /-- KEY_FLOOR (R533). KEY_FLOOR raises a key slot's floor. -/
  | keyFloor
  /-- ANCHOR_SET (R533). ANCHOR_SET sets or clears a fabric trust anchor. -/
  | anchorSet (cert : List Byte)
  /-- DEBUG_UNLOCK (R545). DEBUG_UNLOCK verifies a signed record, erases identity and opens debug. -/
  | debugUnlock (r : UnlockRec)
  /-- NONCE_READ (R545). A read of SEC_NONCE returns the nonce and makes a fresh one. -/
  | nonceRead
  /-- BEGIN (R549). BEGIN starts a recovery push to the firmware or manifest region. -/
  | begin (manifest : Bool)
  /-- APPEND (R549). APPEND writes a chunk from MGT_RCV_DATA to the flash target region. -/
  | append (len : BitVec 16)
  /-- END (R549). END verifies the pushed region and resumes boot or stays in RECOVERY. -/
  | end_ (c : Pushed)
  /-- ENTDAA (R546). The I3C target takes a dynamic address with its provisional ID. -/
  | entdaa (addr : BitVec 7)
  /-- SETDASA (R546). The I3C target takes a dynamic address from its static address. -/
  | setdasa (static_ addr : BitVec 7)
  /-- RSTDAA (R546). The I3C target drops its dynamic address. -/
  | rstdaa
  /-- GETSTATUS (R546). The I3C target returns its status. -/
  | getstatus
  /-- SET_ENDPOINT_ID (R546). The baseboard controller assigns the MCTP endpoint ID. -/
  | setEndpointId (eid : BitVec 8)
  /-- MCTP_MESSAGE (R546). An MCTP control, PLDM, SPDM or secured message is received and answered. -/
  | mctpMessage (m : MctpMsg)
  /-- IDCODE (R544). The JTAG IDCODE instruction selects the 0x15A8_19A7 identification register. -/
  | idcode
  /-- BYPASS (R544). The JTAG BYPASS instruction selects the bypass register. -/
  | bypass
  /-- SAMPLE_PRELOAD (R544). The JTAG SAMPLE/PRELOAD instruction captures or loads the boundary scan register. -/
  | samplePreload (pins : Nat)
  /-- EXTEST (R544). The JTAG EXTEST instruction drives pins from the boundary register while held in reset. -/
  | extest
  /-- CLAMP (R544). The JTAG CLAMP instruction holds pins while held in reset. -/
  | clamp
  /-- HIGHZ (R544). The JTAG HIGHZ instruction floats outputs while held in reset. -/
  | highz
  /-- TAP_RESET (R567). TRST_N low resets the JTAG TAP only. -/
  | tapReset
  /-- POWER_ON_RESET (R567). POR_N low holds the package in power-on reset, overriding any warm reset. -/
  | powerOnReset
  /-- POR_RELEASE (R525). POR_N rises and boot begins at stage 0x0 with a new epoch. -/
  | porRelease
  /-- WARM_RESET (R568). WARM_RST_N falls or a level-5 containment occurs and the package stops, writes back and enters self-refresh. -/
  | warmReset (pin : Bool) (lost : BitVec 8)
  /-- WARM_RESET_RELEASE (R567). WARM_RST_N rises and boot restarts from stage 0x0. -/
  | warmResetRelease
  /-- RAIL_OUT_OF_RANGE (R557). A rail reads outside its range for 10 samples and its units are contained. -/
  | railOutOfRange (d : Die) (r : Fin 16) (mv : BitVec 13) (da : BitVec 16)
  /-- HBM_LOST (R569). An HBM rail leaves range during self-refresh and the stacks' contents are lost. -/
  | hbmLost (d : Die) (r : Fin 4)
  /-- THERMAL_SAMPLE (R559). Every 100 µs wardens read sensors and adjust K for throttling, power cap and HBM refresh. -/
  | thermalSample (t : ThermalSample)
  /-- THERMAL_CONTAINMENT (R563). A sensor reads 95 °C for 1 ms and its quadrant or die is contained. -/
  | thermalContainment (x : Sensor)
  /-- THERMTRIP (R563). A die sensor reaches 105 °C, THERMTRIP_N falls and all clocks stop. -/
  | thermtrip (d : Die)
  /-- PLL_LOCK_LOSS (R572). REF_CLK stays lost for 1 ms after stage 0x0 and the dies are contained at level 4. -/
  | pllLockLoss
  /-- CELL_MOVE (R402). A MOVE written to RAD_MOVE_CMD schedules a cell's move to a take-over glade at switch slot M, or is refused with a cause of Table 12.8. -/
  | cellMove
  /-- QUAD_TRAINING_END (R486). A SerDes quad in Ethernet or Woruri mode ends link training, either up (or securing, for Woruri) or failed, with three failures in a second taking the quad out of service. -/
  | quadTrainingEnd (q : Quad) (ok : Bool) (lanes : BitVec 4)
  /-- CXL_LINK_L0 (R570). The active CXL port's link reaches L0, after which the PF answers configuration requests and a pending LINK_TMO_MS wait is ended. -/
  | cxlLinkL0 (x16 gt64 : Bool)
  /-- RAIL_IN_RANGE (R557). A rail that was out of range returns within its range, so its rail monitor reads in range again and, for VDD_ZIU, the die's Ziura ports may train again. -/
  | railInRange (d : Die) (r : Fin 16) (mv : BitVec 13) (da : BitVec 16)
  /-- FLASH_WRITE_END (R533). A flash write begun by a mailbox command or a recovery APPEND finishes and is read back and verified, ending the command Done or Failed. -/
  | flashWriteEnd (ok : Bool)
  deriving DecidableEq, Repr

end Sys2Proof
end

