-- ==== Sys2Proof/Decode.lean ====
section
/-!
DEFINITION. Words of the opcode table. Its rows give no bits: a command of this block is not spelled by a word, so no word spells one.
-/
namespace Sys2Proof

/-- The command a word spells by the table's bits: none, as the table gives no row any bits (log entry 2). -/
def decodeTableWord (_nbits _w : Nat) : Option Instr := none

end Sys2Proof
end

