-- ==== Sys2Proof/Config.lean ====
section
/-!
DEFINITION. The free values of the model: what the spec leaves open. Each is a constant without a body, so no proof
can see what it is. Every one has an entry in the assumption log.
-/
namespace Sys2Proof.Config

/-- The content of a bank cell that R74 or R577 leaves undefined: draw, row, column. -/
opaque freeElem : Nat → Nat → Nat → Nat

/-- What an elementwise compare writes for false and true; the spec names the operation and gives no encoding. -/
opaque compareCode : Bool → BitVec 32

/-- Coefficient `c` (0 to 2) of a segment of the function table of a FUNC code, by table set (R131). -/
opaque ftabCoef : Nat → Nat → Nat → Nat → BitVec 32

/-- The reciprocal of an infinity, by its sign: R132 states none. -/
opaque recipOfInf : Bool → BitVec 32

/-- The reciprocal square root of plus infinity: R132 states none. -/
opaque rsqrtOfInf : BitVec 32

/-- The length a generator takes when SETAG writes a LEN above 32,768, which 4.6 gives no meaning. -/
opaque lenBeyond : Nat → Nat

/-- Entries of row `r` of an LDPC base graph, by graph and lifting size: columns with their shifts (TS 38.212, R144,
by reference). -/
opaque ldpcRow : Bool → Nat → Nat → List (Nat × Nat)

/-- The k-th index of the polar reliability order, least reliable first (TS 38.212 Table 5.3.1.2-1, R144, by
reference). -/
opaque polarOrder : Nat → Nat

/-- The polar input interleaver of 164 (TS 38.212 Table 5.3.1.1-1, R144, by reference). -/
opaque polarInterleave : Nat → Nat

/-- SUB of the LINK record of a failed IDE check (R521): Table 15.2 lists none for it. -/
opaque ideSub : Nat

/-- The ROM contents of the stepping, as their SHA-384 of 48 bytes (R540); the spec gives none. -/
opaque romDigest : Nat → BitVec 8

/-- A fresh nonce of SEC_NONCE (R545), by draw. -/
opaque nonce : Nat → BitVec 64

/-- The SLH-DSA-SHA2-128s public key of the derived seeds (FIPS 205, R537, by reference). -/
opaque slhPublic : List (BitVec 8) → List (BitVec 8)

/-- The public key of the RSA-3072 pair that FIPS 186-5 generates from a Hash_DRBG of the derived value (R537, by reference). -/
opaque rsaPublic : List (BitVec 8) → List (BitVec 8)

/-- The SLH-DSA-SHA2-128s signature of a message, by the seeds of the key and the draw of the signer (FIPS 205, R539). -/
opaque slhSign : List (BitVec 8) → List (BitVec 8) → Nat → List (BitVec 8)

/-- The RSASSA-PSS signature of a hash, by the seed of the key and the draw of its salt (R539). -/
opaque rsaSign : List (BitVec 8) → List (BitVec 8) → Nat → List (BitVec 8)

/-- The SPDM transcript hash (R539): of the requests of a connection by their codes, and the draw of the responder's nonces. The
encodings are those of SPDM 1.3. -/
opaque transcriptHash : List (List Nat) → Nat → List (BitVec 8)

/-- The phase the free-running generator draws for a site's engine, by the run of engine-passes it is for (R274). -/
opaque samplePhase : Nat → Nat → Nat

end Sys2Proof.Config
end

