-- ==== Sys2Proof/Machine/Numeric.lean ====
section
/-!
DEFINITION. Exact arithmetic and canonical reduction (chapter 3), as functions of values alone: element decoding,
products, lanes, granule partials, node_add, the pending-partial stack, slice combination, rounding and output
conversion.
-/
namespace Sys2Proof

/-- How a format encodes its specials. -/
inductive SpecialKind where
  | ieee | e4m3 | finite
  deriving DecidableEq, Repr

/-- A binary floating format: precision with the hidden bit, exponent width, exponent of the last place of a
subnormal, and kind of specials. -/
structure FFmt where
  p : Nat
  w : Nat
  emin : Int
  kind : SpecialKind
  deriving DecidableEq, Repr

def FFmt.fp64 : FFmt := ⟨53, 11, -1074, .ieee⟩
def FFmt.fp32 : FFmt := ⟨24, 8, -149, .ieee⟩
def FFmt.bf16 : FFmt := ⟨8, 8, -133, .ieee⟩
def FFmt.fp16 : FFmt := ⟨11, 5, -24, .ieee⟩
def FFmt.e4m3 : FFmt := ⟨4, 4, -9, .e4m3⟩
def FFmt.e5m2 : FFmt := ⟨3, 5, -16, .ieee⟩
def FFmt.e2m1 : FFmt := ⟨2, 2, -1, .finite⟩

/-- The exponent of the minimum normal number of a format. -/
def FFmt.minNormal (f : FFmt) : Int := f.emin + (f.p - 1 : Nat)

/-- Width of a format in bits. -/
def FFmt.bits (f : FFmt) : Nat := f.p + f.w

/-- The value an encoding stands for (R87). -/
def FFmt.decode (f : FFmt) (b : Nat) : FVal :=
  let mant := b % 2 ^ (f.p - 1)
  let ex := b / 2 ^ (f.p - 1) % 2 ^ f.w
  let neg := b / 2 ^ (f.bits - 1) % 2 = 1
  if f.kind = .ieee ∧ ex = 2 ^ f.w - 1 then (if mant = 0 then .inf neg else .nan)
  else if f.kind = .e4m3 ∧ ex = 2 ^ f.w - 1 ∧ mant = 2 ^ (f.p - 1) - 1 then .nan
  else if ex = 0 then .fin neg mant f.emin
  else .fin neg (mant + 2 ^ (f.p - 1)) (f.emin + (ex - 1 : Nat))

/-- The largest finite magnitude of a format, as significand and exponent. -/
def FFmt.maxFinite (f : FFmt) : Nat × Int :=
  match f.kind with
  | .ieee => (2 ^ f.p - 1, f.emin + (2 ^ f.w - 3 : Nat))
  | .e4m3 => (2 ^ f.p - 2, f.emin + (2 ^ f.w - 2 : Nat))
  | .finite => (2 ^ f.p - 1, f.emin + (2 ^ f.w - 2 : Nat))

/-- The encoding of `(-1)^neg * m * 2^q`, where `m < 2^p` and `q` is the exponent of the last place. -/
def FFmt.encode (f : FFmt) (neg : Bool) (m : Nat) (q : Int) : Nat :=
  let sg := if neg then 2 ^ (f.bits - 1) else 0
  if m < 2 ^ (f.p - 1) then sg + m
  else sg + ((q - f.emin + 1).toNat) * 2 ^ (f.p - 1) + (m - 2 ^ (f.p - 1))

/-- The encoding of an infinity of a format that has them. -/
def FFmt.infBits (f : FFmt) (neg : Bool) : Nat :=
  (if neg then 2 ^ (f.bits - 1) else 0) + (2 ^ f.w - 1) * 2 ^ (f.p - 1)

/-- The quiet NaN the device writes: sign 0, the top fraction bit set. -/
def FFmt.quietNan (f : FFmt) : Nat := (2 ^ f.w - 1) * 2 ^ (f.p - 1) + 2 ^ (f.p - 2)

/-- Whether the discarded part of a magnitude rounds away from zero: `rem` of `2^sh` above the kept magnitude `lo`.
In stochastic mode `u` is the 24-bit dither and the threshold is measured from the lower of the two adjacent values
(R118), so the part is mirrored for a negative value. -/
def roundsAway (mode : RoundMode) (neg : Bool) (lo rem sh u : Nat) : Bool :=
  match mode with
  | .nearestEven => decide (2 ^ sh < 2 * rem) || (decide (2 * rem = 2 ^ sh) && decide (lo % 2 = 1))
  | .towardZero => false
  | .stochastic =>
    if neg then decide ((2 ^ sh - rem) * 2 ^ 24 / 2 ^ sh ≤ u)
    else decide (u < rem * 2 ^ 24 / 2 ^ sh)

/-- A positive magnitude `mag * 2^e` rounded to precision `p` with last places no lower than `emin` (R116): the
significand and the exponent of its last place. Every exponent above is allowed; overflow is judged afterwards. -/
def roundMag (p : Nat) (emin : Int) (mode : RoundMode) (neg : Bool) (u mag : Nat) (e : Int) : Nat × Int :=
  if mag = 0 then (0, emin)
  else
    let q := max (e + (Nat.log2 mag : Int) - (p - 1 : Nat)) emin
    if q ≤ e then (mag * 2 ^ (e - q).toNat, q)
    else
      let sh := (q - e).toNat
      let lo := mag / 2 ^ sh
      let rem := mag % 2 ^ sh
      let m := if rem ≠ 0 ∧ roundsAway mode neg lo rem sh u then lo + 1 else lo
      if m = 2 ^ p then (2 ^ (p - 1), q + 1) else (m, q)

/-- Whether `m * 2^q` exceeds `m' * 2^q'`. -/
def magExceeds (m : Nat) (q : Int) (m' : Nat) (q' : Int) : Bool :=
  let b := min q q'
  decide (m' * 2 ^ (q' - b).toNat < m * 2 ^ (q - b).toNat)

/-- `n * 2^e` rounded to the nearest binary64 value, ties to even: significand with sign and exponent (R100, R103). -/
def round64 (n e : Int) : Int × Int :=
  let r := roundMag 53 (-1074) .nearestEven (n < 0) 0 n.natAbs e
  if r.1 = 0 then (0, 0) else (if n < 0 then -(r.1 : Int) else (r.1 : Int), r.2)

/-! ### Elements and products -/

/-- The value of an element of a format with signed-integer or floating encoding (R87). -/
def OpFormat.decode (f : OpFormat) (b : Nat) : FVal :=
  match f with
  | .int8 => signedVal 8 b
  | .int4 => signedVal 4 b
  | .int16 => signedVal 16 b
  | .cint16 => signedVal 16 b
  | .mxfp4 => FFmt.e2m1.decode b
  | .e4m3 => FFmt.e4m3.decode b
  | .e5m2 => FFmt.e5m2.decode b
  | .bf16 => FFmt.bf16.decode b
  | .fp16 => FFmt.fp16.decode b
  | .fp32 => FFmt.fp32.decode b
where
  /-- A two's complement number of `w` bits. -/
  signedVal (w b : Nat) : FVal :=
    let v := b % 2 ^ w
    if v < 2 ^ (w - 1) then .fin false v 0 else .fin true (2 ^ w - v) 0

/-- Digit `i` of an INT16 element: the top digit is signed, the bottom one is not (R110). -/
def int16Digit (i : Nat) (v : FVal) : FVal :=
  match v with
  | .fin neg m _ =>
    let x : Int := if neg then -(m : Int) else m
    let d : Int := if i = 0 then x.fdiv 256 else x.fmod 256
    .fin (d < 0) d.natAbs 0
  | v => v

/-- Digit `i` of an FP32 element: eight bits of the 24-bit significand with the element's sign and exponent (R111). -/
def fp32Digit (i : Nat) (v : FVal) : FVal :=
  match v with
  | .fin neg m e => .fin neg (m / 2 ^ (16 - 8 * i) % 256) (e + (16 - 8 * i : Nat))
  | v => v

/-- Whether an element counts as zero for R93: its whole value is zero. -/
def FVal.isZero : FVal → Bool
  | .fin _ m _ => m = 0
  | _ => false

/-- The special flags of the product of two whole elements (R93, R111). DESIGN CHOICE (log entry 130): two infinities set the
infinity of their signs' product. -/
def specialFlags (a b : FVal) : Flags :=
  match a, b with
  | .nan, _ => { nan := true }
  | _, .nan => { nan := true }
  | .inf na, .inf nb => if na != nb then { ninf := true } else { pinf := true }
  | .inf na, .fin nb m _ => if m = 0 then { nan := true } else if na != nb then { ninf := true } else { pinf := true }
  | .fin na m _, .inf nb => if m = 0 then { nan := true } else if na != nb then { ninf := true } else { pinf := true }
  | .fin .., .fin .. => {}

def Flags.any (f : Flags) : Bool := f.nan || f.pinf || f.ninf

/-- Flags of a sum (R93). -/
def Flags.or (a b : Flags) : Flags := ⟨a.nan || b.nan, a.pinf || b.pinf, a.ninf || b.ninf⟩

/-- An element as a cell holds it: the value its digit of the pass stands for, and the whole element, which alone
decides the special flags (R93, R111). -/
structure CellEl where
  val : FVal
  whole : FVal
  deriving DecidableEq, Repr

/-- The cell's form of an element in a pass that multiplies digit `d` (R87, R110, R111). `raw` is the element's code;
for INT16 it is the digit's byte, top digit signed, and for FP32 the whole element, whose sign and exponent the digit
carries. -/
def OpFormat.cellEl (f : OpFormat) (d raw : Nat) : CellEl :=
  match f with
  | .int16 | .cint16 =>
    let v := if d = 0 then OpFormat.int8.decode raw else .fin false (raw % 256) 0
    ⟨v, v⟩
  | .fp32 => ⟨fp32Digit d (FFmt.fp32.decode raw), FFmt.fp32.decode raw⟩
  | f => ⟨f.decode raw, f.decode raw⟩

/-- The product of two cell elements: exact value `n * 2^e`, and its special flags; a special product adds nothing
(R88, R93). -/
def cellProduct (a b : CellEl) : Int × Int × Flags :=
  let fl := specialFlags a.whole b.whole
  if fl.any then (0, 0, fl)
  else
    match a.val, b.val with
    | .fin na ma ea, .fin nb mb eb =>
      let m : Int := (ma * mb : Nat)
      (if na != nb then -m else m, ea + eb, {})
    | _, _ => (0, 0, {})

/-! ### Lanes and granule partials -/

/-- Formats whose lanes hold the exact sum (Table 3.1). INT16 slices are window formats whose lanes never lose a
bit. -/
def OpFormat.exact : OpFormat → Bool
  | .int8 | .int4 | .mxfp4 | .e4m3 => true
  | _ => false

/-- Formats whose lane is placed per granule from the block exponents (R98). -/
def OpFormat.placed : OpFormat → Bool
  | .e5m2 | .bf16 | .fp16 | .fp32 => true
  | _ => false

/-- The weight exponent L of the lane's last place (R92, R98): `ea` and `eb` are the block-maximum exponents. -/
def OpFormat.laneL (f : OpFormat) (i j : Nat) (ea eb : Int) : Int :=
  match f with
  | .int4 | .int8 => 0
  | .e4m3 => -18
  | .mxfp4 => -2
  | .int16 | .cint16 => 8 * (2 - (i : Int) - j)
  | .e5m2 | .bf16 | .fp16 | .fp32 => ea + eb + 8 - 71

/-- A 72-bit two's complement lane value (R91). -/
def wrap72 (v : Int) : Int := (v + 2 ^ 71) % 2 ^ 72 - 2 ^ 71

/-- The lane after one row adds its product (R91, R99). An INT16 digit product is a number of lane units (R110).
`row` is the row within the granule, which names the MX-FP4 block. -/
def Lane.add (ln : Lane) (f : OpFormat) (L : Int) (row : Nat) (a b : CellEl) : Lane :=
  let (n, e, fl) := cellProduct a b
  let sh : Int := match f with | .int16 | .cint16 => 0 | _ => e - L
  let add := if 0 ≤ sh then n * 2 ^ sh.toNat else n.fdiv (2 ^ (-sh).toNat)
  let lost := decide (sh < 0) && n.fmod (2 ^ (-sh).toNat) != 0
  let ln := { ln with t := ln.t || lost, flags := ln.flags.or fl }
  if f = .mxfp4 ∧ row < 32 then { ln with s0 := wrap72 (ln.s0 + add) } else { ln with s1 := wrap72 (ln.s1 + add) }

/-- node_add in exact mode (R102): the aligned sum, halved until it fits 128 bits; `fuel` bounds the halvings. -/
def normNode (fuel : Nat) (v x : Int) (s : Bool) : Int × Int × Bool :=
  match fuel with
  | 0 => (v, x, s)
  | k + 1 =>
    if v < -(2 ^ 127) ∨ 2 ^ 127 ≤ v then normNode k (v.fdiv 2) (x + 1) (s || v.fmod 2 != 0) else (v, x, s)

/-- node_add (R102, R103); `exact` says which mode the reduction runs in. -/
def nodeAdd (exact : Bool) (l r : Node) : Node :=
  let fl := l.flags.or r.flags
  if exact then
    if l.n = 0 ∧ l.s = false then { r with flags := fl }
    else if r.n = 0 ∧ r.s = false then { l with flags := fl }
    else
      let x := min l.x r.x
      let v := l.n * 2 ^ (l.x - x).toNat + r.n * 2 ^ (r.x - x).toNat
      let (n, x', s) := normNode (Nat.log2 v.natAbs + 1) v x (l.s || r.s)
      ⟨n, x', s, fl⟩
  else
    let x := min l.x r.x
    let (n, x') := round64 (l.n * 2 ^ (l.x - x).toNat + r.n * 2 ^ (r.x - x).toNat) x
    ⟨n, x', false, fl⟩

/-- One half of an MX-FP4 granule partial (R96): the block sum in bits [19:0], the combined scale in [29:20], NaN in
[30]. -/
def mxHalf (b : Int) (sc : Nat × Nat) : BitVec 48 :=
  (BitVec.ofInt 20 b).setWidth 48 ||| (BitVec.ofInt 10 ((sc.1 : Int) + sc.2 - 254)).setWidth 48 <<< 20
    ||| (if sc.1 = 255 ∨ sc.2 = 255 then 1 <<< 30 else 0)

/-- The granule partial of MX-FP4: half h in bits [48h + 47:48h] (R96). -/
def mxPartial (h0 h1 : BitVec 48) : BitVec 96 := h1 ++ h0

/-- Half `h` of a granule partial as a node: n = B, x = sigma - 2, s = 0 (R96). -/
def mxNode (p : BitVec 96) (h : Nat) : Node :=
  let v := p.extractLsb' (48 * h) 48
  { n := (v.extractLsb' 0 20).toInt, x := (v.extractLsb' 20 10).toInt - 2, flags := { nan := v.getLsbD 30 } }

/-- The tree leaf of a granule (R92, R95, R96, R100) whose lane has last place 2^L; for MX-FP4, the E8M0 scale codes of
the two blocks as pairs (streamed, stationary). -/
def Lane.leaf (ln : Lane) (f : OpFormat) (L : Int) (sc0 sc1 : Nat × Nat) : Node :=
  if f = .mxfp4 then
    let p := mxPartial (mxHalf ln.s0 sc0) (mxHalf ln.s1 sc1)
    let r := nodeAdd true (mxNode p 0) (mxNode p 1)
    { r with flags := r.flags.or ln.flags }
  else if f.exact then ⟨ln.s1, L, false, ln.flags⟩
  else
    let (n, x) := round64 (2 * ln.s1 + (if ln.t then 1 else 0)) (L - 1)
    ⟨n, x, false, ln.flags⟩

/-- Joins the two top nodes of a stack while their levels agree (R105). -/
def joinTop (exact : Bool) (fuel : Nat) (st : PStack) : PStack :=
  match fuel, st with
  | k + 1, (r, lr) :: (l, ll) :: t =>
    if lr = ll then joinTop exact k ((nodeAdd exact l r, lr + 1) :: t) else st
  | _, st => st

/-- What an engine does with the stack at its bottom (R105). -/
def pushLeaf (exact : Bool) (st : PStack) (leaf : Node) : PStack :=
  joinTop exact (st.length + 1) ((leaf, 0) :: st)

/-! ### Block exponents -/

/-- The floating format of an operand format that has one. -/
def OpFormat.ffmt : OpFormat → Option FFmt
  | .e5m2 => some FFmt.e5m2
  | .bf16 => some FFmt.bf16
  | .fp16 => some FFmt.fp16
  | .fp32 => some FFmt.fp32
  | _ => none

/-- The unbiased exponent of an element; a subnormal counts as the minimum normal exponent, and infinities, NaNs and
zeros are left out (R97). -/
def elemExponent (f : FFmt) (b : Nat) : Option Int :=
  match f.decode b with
  | .fin _ m e => if m = 0 then none else some (max (e + (Nat.log2 m : Int)) f.minNormal)
  | _ => none

/-- The block-maximum exponent of a list of elements; an all-zero block takes the minimum normal exponent (R97). DESIGN
CHOICE (log entry 110): the integer formats among the window formats, whose elements have no exponent, take 0, and their
control entries are VALID. -/
def blockExponent (f : OpFormat) (els : List Nat) : Int :=
  match f.ffmt with
  | none => 0
  | some ff => els.foldl (fun a b => match elemExponent ff b with | some e => max a e | none => a) ff.minNormal

/-- The block exponent of a slice pass: lowered by 8 per digit in FP32 (R97). -/
def passExponent (f : OpFormat) (digit : Nat) (els : List Nat) : Int :=
  let e := blockExponent f els
  if f = .fp32 then e - 8 * digit else e

/-! ### Slice combination -/

/-- The slice passes of a reduction, in the order their roots are added (R112). -/
def Slicing.order : Slicing → List (Nat × Nat)
  | .none => []
  | .int16Four => [(1, 1), (1, 0), (0, 1), (0, 0)]
  | .fp32Nine => [(2, 2), (1, 2), (2, 1), (0, 2), (1, 1), (2, 0), (0, 1), (1, 0), (0, 0)]
  | .fp32Six => [(0, 2), (1, 1), (2, 0), (0, 1), (1, 0), (0, 0)]

/-- The sum of slice roots in the order of Table 3.5 (R112). -/
def sliceSum (roots : List Node) : Node :=
  match roots with
  | [] => {}
  | r :: rs => rs.foldl (nodeAdd false) r

/-- Complex INT16 replaces the part value -32,768 with -32,767 (R114). -/
def cint16Part (b : Nat) : Nat := if b % 65536 = 0x8000 then 0x8001 else b % 65536

/-! ### Output conversion -/

/-- The dither of R118, modulo 2^64. -/
def dither (seed tensor i n : Nat) : Nat :=
  let M := 2 ^ 64
  let z := seed % M ^^^ (tensor * 2 ^ 48 % M) ^^^ (i * 0x9E3779B97F4A7C15 % M) ^^^ (n * 0xD6E8FEB86659FD93 % M)
  let z := (z ^^^ (z / 2 ^ 30)) * 0xBF58476D1CE4E5B9 % M
  let z := (z ^^^ (z / 2 ^ 27)) * 0x94D049BB133111EB % M
  z ^^^ (z / 2 ^ 31)

/-- The 24 dither bits [63:40] (R118). -/
def ditherU (seed tensor i n : Nat) : Nat := dither seed tensor i n / 2 ^ 40 % 2 ^ 24

/-- The floating format of an output code. -/
def OutFormat.ffmt : OutFormat → Option FFmt
  | .fp32 => some FFmt.fp32
  | .bf16 => some FFmt.bf16
  | .fp16 => some FFmt.fp16
  | .e4m3 => some FFmt.e4m3
  | .e5m2 => some FFmt.e5m2
  | .fp64 => some FFmt.fp64
  | .int32 | .int8 => none

/-- The width of an integer output. -/
def OutFormat.intBits : OutFormat → Nat
  | .int8 => 8
  | _ => 32

/-- A number rounded to an integer under a mode (R116). -/
def roundInt (mode : RoundMode) (u : Nat) (n e : Int) : Int :=
  if 0 ≤ e then n * 2 ^ e.toNat
  else
    let sh := (-e).toNat
    let lo := n.natAbs / 2 ^ sh
    let rem := n.natAbs % 2 ^ sh
    let m := if rem ≠ 0 ∧ roundsAway mode (n < 0) lo rem sh u then lo + 1 else lo
    if n < 0 then -(m : Int) else m

/-- The NaN result of Table 3.6. -/
def OutFormat.nanBits : OutFormat → Nat
  | .int32 | .int8 => 0
  | .fp32 => 0x7FC00000
  | .bf16 => 0x7FC0
  | .fp16 => 0x7E00
  | .e4m3 => 0x7F
  | .e5m2 => 0x7E
  | .fp64 => 0x7FF8000000000000

/-- The largest finite magnitude of a floating output with its sign. -/
def FFmt.maxBits (f : FFmt) (neg : Bool) : Nat := f.encode neg f.maxFinite.1 f.maxFinite.2

/-- An infinite result of Table 3.6 (and, for E4M3, the code its overflow writes). -/
def infResult (out : OutFormat) (sat neg : Bool) : Nat :=
  match out.ffmt with
  | none => if neg then 2 ^ (out.intBits - 1) else 2 ^ (out.intBits - 1) - 1
  | some f =>
    if out = .e4m3 then (if sat then f.maxBits neg else (if neg then 0x80 else 0) + 0x7F)
    else f.infBits neg

/-- An overflow of Table 3.6; round toward zero always gives the largest finite magnitude (R117). -/
def overflowResult (out : OutFormat) (mode : RoundMode) (sat neg : Bool) : Nat :=
  match out.ffmt with
  | none => if neg then 2 ^ (out.intBits - 1) else 2 ^ (out.intBits - 1) - 1
  | some f => if sat ∨ mode = .towardZero then f.maxBits neg else infResult out false neg

/-- A finite value `n * 2^e` in the output format (R115 to R118). -/
def convertFinite (out : OutFormat) (mode : RoundMode) (sat : Bool) (u : Nat) (n e : Int) : Nat :=
  match out.ffmt with
  | none =>
    let v := roundInt mode u n e
    let top : Int := 2 ^ (out.intBits - 1)
    if v < -top ∨ top ≤ v then overflowResult out mode sat (n < 0) else (v % (2 * top)).toNat
  | some f =>
    let (m, q) := roundMag f.p f.emin mode (n < 0) u n.natAbs e
    if m = 0 then 0
    else if magExceeds m q f.maxFinite.1 f.maxFinite.2 then overflowResult out mode sat (n < 0)
    else f.encode (n < 0) m q

/-- Output conversion of a root (R93, R115 to R117). -/
def convertRoot (out : OutFormat) (mode : RoundMode) (sat : Bool) (u : Nat) (r : Node) : Nat :=
  if r.flags.nan ∨ (r.flags.pinf ∧ r.flags.ninf) then out.nanBits
  else if r.flags.pinf then infResult out sat false
  else if r.flags.ninf then infResult out sat true
  else convertFinite out mode sat u (2 * r.n + (if r.s then 1 else 0)) (r.x - 1)

end Sys2Proof
end

