-- ==== Sys2Proof/Machine/Coords.lean ====
section
/-!
DEFINITION. The coordinates of the units (R12 to R14, R21).
-/
namespace Sys2Proof

namespace Unit

/-- Package cluster of a site. -/
def clusterOf (s : Nat) : Nat := s / 72
/-- Physical site index (R13). -/
def siteIx (s : Nat) : Nat := s % 72
/-- Row of a site (R13). -/
def rowOf (s : Nat) : Nat := s % 72 / 9
/-- Physical column of a site (R13). -/
def colOf (s : Nat) : Nat := s % 9
/-- Die of a package cluster. -/
def dieOfCluster (c : Nat) : Nat := c / 2
/-- Die of a site. -/
def dieOf (s : Nat) : Nat := s / 144
/-- Package row number of a site: package cluster * 8 + row. -/
def rowIx (s : Nat) : Nat := s / 9
/-- Package quadrant number of a site: die * 4 + 2c + h (R14). -/
def quadrantOf (s : Nat) : Nat := 2 * clusterOf s + rowOf s / 4
/-- The site at a row and physical column of a package cluster (R13). -/
def siteAt (c row col : Nat) : Nat := c * 72 + row * 9 + col

end Unit

end Sys2Proof
end

