-- ==== Sys2Proof/Machine/Fabric.lean ====
section
/-!
DEFINITION. Sequences, routes and windows of the Woruri fabric (R431 to R433, R437, R458).
-/
namespace Sys2Proof

/-- Whether a request is complete once it is acknowledged, without its response. -/
def FabricWait.isWrite : FabricWait → Bool
  | .write .. | .agent => true
  | _ => false

/-- Sequences in play toward a node: numbered and not acknowledged (R437). -/
def DestSt.inPlay (d : DestSt) : Nat := (d.next + 2 ^ 33 - 1 - d.cum) % 2 ^ 32

/-- A request takes the next sequence. -/
def DestSt.number (d : DestSt) (p : Packet) (w : FabricWait) (now : Nat) : DestSt :=
  { d with next := (d.next + 1) % 2 ^ 32, unacked := d.unacked ++ [{ pkt := { p with seq := d.next }, wait := w, issued := now }] }

/-- Whether a request has left the device. -/
def OutReq.gone (u : OutReq) : Bool := !u.unsent || u.resent

/-- Every request that is not acknowledged is to be sent again under a new incarnation, from sequence 1 (R458). -/
def DestSt.renumber (incarn : Nat) (d : DestSt) : DestSt :=
  let left := d.unacked.filter fun u => !u.acked
  let us := left.zipIdx.map fun x =>
    { x.1 with pkt := { x.1.pkt with seq := x.2 + 1, incarn := incarn }, unsent := true, resent := true }
  { d with next := us.length + 1, cum := 0, unacked := (d.unacked.filter fun u => u.acked && !u.answered && !u.wait.isWrite) ++ us }

/-- Of the first `m` requests to a node that are not acknowledged, those that wait for a sequence and go (R443). -/
def DestSt.fenced (d : DestSt) (m : Nat) (go : FabricWait → Bool) : Nat :=
  ((d.waiting.take (m - (d.unacked.filter fun u => !u.acked).length)).filter fun x => go x.2.1).length

/-- The requests of a kind are answered to no one: those that have a sequence once they are acknowledged, those that wait for one at
once. -/
def DestSt.forget (d : DestSt) (go : FabricWait → Bool) : DestSt :=
  { d with unacked := d.unacked.map fun u => if go u.wait then { u with answered := true } else u
           waiting := d.waiting.filter fun x => !go x.2.1 }

/-- The same for every node; an INV command waits for the requests that went no longer (R443, R449). -/
def WorSt.forget (w : WorSt) (go : FabricWait → Bool) : WorSt :=
  { w with dests := w.dests.mapVal fun _ d => d.forget go
           inv := w.inv.map fun x => (x.1, x.2.map fun e => (e.1, e.2 - (w.dests.findD e.1 {}).fenced e.2 go)) }

/-- The node as the ports now stand (R431): it is served through the lowest-numbered port of its mask that is up; when the
port that served it has left the up state, what is not acknowledged goes again. -/
def DestSt.reroute (up : Nat → Bool) (d : DestSt) : DestSt :=
  let p := (List.range 16).find? fun q => d.route.testBit q && up q
  let lost := d.port.any fun q => !up q
  let again (u : OutReq) : OutReq := if u.unsent ∨ u.acked then u else { u with unsent := true, resent := true }
  { d with port := p, unacked := if lost then d.unacked.map again else d.unacked }

/-- Whether a window covers a byte range. -/
def ImportWin.covers (w : ImportWin) (a n : Nat) : Bool := w.base ≤ a && a + n ≤ w.base + w.pages * 4096

def ExportWin.covers (w : ExportWin) (a n : Nat) : Bool := w.base ≤ a && a + n ≤ w.base + w.pages * 4096

end Sys2Proof
end

