-- ==== Sys2Proof/Machine/Fields.lean ====
section
/-!
DEFINITION. Every field of every register of the spec, with its bits, access code and reset value (the register
tables of R40, R42, R83, R85, R119, R159 to R161, R190, R191, R231 to R234, R258, R280, R304, R338, R373, R405, R406,
R427, R459, R461, R497, R511, R512, R523, R550 and R573), and where each register lies in its block. Reserved bits
have no field: they read 0 and ignore writes (R9).
-/
namespace Sys2Proof

namespace R

/-! ZIU_CTRL, R40: Port enables -/
def ZIU_CTRL.PORT_EN (p : Nat) : Fld := ⟨.ZIU_CTRL, 0 + 1 * p, 1, .rw, 1⟩

/-! ZIU_ROUTE, R40: Order and reachability per destination -/
def ZIU_ROUTE.ORDER (e : Nat) : Fld := ⟨.ZIU_ROUTE, 0 + 2 * e, 2, .ro, 0⟩
def ZIU_ROUTE.REACH (e : Nat) : Fld := ⟨.ZIU_ROUTE, 16 + 1 * e, 1, .ro, 1⟩

/-! ZIU_VC1_RESERVE, R40: Radio reservation per port -/
def ZIU_VC1_RESERVE.RES (p : Nat) : Fld := ⟨.ZIU_VC1_RESERVE, 0 + 8 * p, 8, .rw, 0⟩

/-! ZIU_PORT_STATE, R40: Port state and partner -/
def ZIU_PORT_STATE.STATE : Fld := ⟨.ZIU_PORT_STATE, 0, 2, .ro, 0⟩
def ZIU_PORT_STATE.PARTNER : Fld := ⟨.ZIU_PORT_STATE, 2, 3, .ro, 0⟩

/-! ZIU_PORT_RETRY, R40: Retry count, saturating at 0xFFFF_FFFF -/
def ZIU_PORT_RETRY.COUNT : Fld := ⟨.ZIU_PORT_RETRY, 0, 32, .rw, 0⟩

/-! ZIU_ROUTE_GEN, R40: Route change count -/
def ZIU_ROUTE_GEN.GEN : Fld := ⟨.ZIU_ROUTE_GEN, 0, 32, .ro, 0⟩

/-! GLB_PART, R42: Family, device and stepping -/
def GLB_PART.DEVICE_DIGIT : Fld := ⟨.GLB_PART, 0, 8, .ro, 56⟩
def GLB_PART.DEVICE_LETTER : Fld := ⟨.GLB_PART, 8, 8, .ro, 90⟩
def GLB_PART.STEP_LETTER : Fld := ⟨.GLB_PART, 16, 8, .ro, 65⟩
def GLB_PART.STEP_NUMBER : Fld := ⟨.GLB_PART, 24, 8, .ro, 1⟩
def GLB_PART.FAMILY : Fld := ⟨.GLB_PART, 32, 32, .ro, 2583⟩

/-! GLB_SHAPE, R42: Fixed counts per level -/
def GLB_SHAPE.DIES : Fld := ⟨.GLB_SHAPE, 0, 4, .ro, 8⟩
def GLB_SHAPE.CLUSTERS : Fld := ⟨.GLB_SHAPE, 4, 4, .ro, 2⟩
def GLB_SHAPE.ROWS : Fld := ⟨.GLB_SHAPE, 8, 4, .ro, 8⟩
def GLB_SHAPE.PHYS_COLS : Fld := ⟨.GLB_SHAPE, 12, 4, .ro, 9⟩
def GLB_SHAPE.LOG_COLS : Fld := ⟨.GLB_SHAPE, 16, 4, .ro, 8⟩
def GLB_SHAPE.QUADRANTS : Fld := ⟨.GLB_SHAPE, 20, 4, .ro, 4⟩
def GLB_SHAPE.STACKS : Fld := ⟨.GLB_SHAPE, 24, 4, .ro, 2⟩
def GLB_SHAPE.QUADS : Fld := ⟨.GLB_SHAPE, 28, 4, .ro, 2⟩

/-! GLB_DIE_STATE, R42: State of each die, chief die, degraded flag -/
def GLB_DIE_STATE.DIE (d : Nat) : Fld := ⟨.GLB_DIE_STATE, 0 + 2 * d, 2, .ro, 0⟩
def GLB_DIE_STATE.CHIEF : Fld := ⟨.GLB_DIE_STATE, 16, 3, .ro, 0⟩
def GLB_DIE_STATE.DEGRADED : Fld := ⟨.GLB_DIE_STATE, 20, 1, .ro, 0⟩

/-! GLB_CAPACITY, R42: Units in service -/
def GLB_CAPACITY.CORES : Fld := ⟨.GLB_CAPACITY, 0, 11, .ro, 0⟩
def GLB_CAPACITY.CLUSTERS : Fld := ⟨.GLB_CAPACITY, 16, 5, .ro, 0⟩
def GLB_CAPACITY.DIES : Fld := ⟨.GLB_CAPACITY, 24, 4, .ro, 0⟩
def GLB_CAPACITY.STACKS : Fld := ⟨.GLB_CAPACITY, 32, 5, .ro, 0⟩
def GLB_CAPACITY.QUADS : Fld := ⟨.GLB_CAPACITY, 40, 5, .ro, 0⟩
def GLB_CAPACITY.FEC : Fld := ⟨.GLB_CAPACITY, 48, 5, .ro, 0⟩

/-! GLB_CAP_GEN, R42: Change count for the two registers above -/
def GLB_CAP_GEN.GEN : Fld := ⟨.GLB_CAP_GEN, 0, 32, .ro, 0⟩

/-! TNS_CFG, R83: Field membership and place in field -/
def TNS_CFG.SHAPE : Fld := ⟨.TNS_CFG, 0, 3, .ro, 0⟩
def TNS_CFG.ENG_ROW : Fld := ⟨.TNS_CFG, 3, 3, .ro, 0⟩
def TNS_CFG.ENG_COL : Fld := ⟨.TNS_CFG, 6, 3, .ro, 0⟩
def TNS_CFG.ANCHOR : Fld := ⟨.TNS_CFG, 9, 6, .ro, 0⟩
def TNS_CFG.IN_FIELD : Fld := ⟨.TNS_CFG, 15, 1, .ro, 0⟩

/-! TNS_STATE, R83: Bank states, record index, hold and drain -/
def TNS_STATE.BANK0 : Fld := ⟨.TNS_STATE, 0, 2, .ro, 0⟩
def TNS_STATE.BANK1 : Fld := ⟨.TNS_STATE, 2, 2, .ro, 0⟩
def TNS_STATE.REC : Fld := ⟨.TNS_STATE, 4, 3, .ro, 0⟩
def TNS_STATE.HOLD : Fld := ⟨.TNS_STATE, 7, 1, .ro, 0⟩
def TNS_STATE.DRAINED : Fld := ⟨.TNS_STATE, 8, 1, .ro, 1⟩
def TNS_STATE.STOPPED : Fld := ⟨.TNS_STATE, 9, 1, .ro, 1⟩

/-! TNS_PASS_COUNT, R83: Passes completed -/
def TNS_PASS_COUNT.COUNT : Fld := ⟨.TNS_PASS_COUNT, 0, 48, .ro, 0⟩

/-! TNS_ERR, R83: Field fault flags -/
def TNS_ERR.GRANULE_ALIGN : Fld := ⟨.TNS_ERR, 0, 1, .w1c, 0⟩
def TNS_ERR.LOAD_ORDER : Fld := ⟨.TNS_ERR, 1, 1, .w1c, 0⟩
def TNS_ERR.LANE_PARITY : Fld := ⟨.TNS_ERR, 2, 1, .w1c, 0⟩

/-! TNS_ROWMASK, R83: Rows of this engine fed under record j -/
def TNS_ROWMASK.ROWS : Fld := ⟨.TNS_ROWMASK, 0, 64, .ro, 0⟩

/-! TNS_COLMASK, R83: Columns of this engine fed under record j -/
def TNS_COLMASK.COLS : Fld := ⟨.TNS_COLMASK, 0, 64, .ro, 0⟩

/-! TNS_PASSREC, R83: Validity and successor of record j -/
def TNS_PASSREC.NEXT : Fld := ⟨.TNS_PASSREC, 0, 3, .ro, 0⟩
def TNS_PASSREC.VALID : Fld := ⟨.TNS_PASSREC, 3, 1, .ro, 0⟩

/-! TNS_FIELDMAP, R85: Shape of the field holding each engine of logical row r -/
def TNS_FIELDMAP.SHAPE (j : Nat) : Fld := ⟨.TNS_FIELDMAP, 0 + 8 * j, 3, .ro, 0⟩
def TNS_FIELDMAP.USED (j : Nat) : Fld := ⟨.TNS_FIELDMAP, 3 + 8 * j, 1, .ro, 0⟩

/-! TNS_ROUTE, R85: Excluded columns, active sites and south offsets of logical row r -/
def TNS_ROUTE.EXCL_COL : Fld := ⟨.TNS_ROUTE, 0, 4, .ro, 8⟩
def TNS_ROUTE.SOUTH (j : Nat) : Fld := ⟨.TNS_ROUTE, 8 + 2 * j, 2, .ro, 0⟩
def TNS_ROUTE.ACTIVE : Fld := ⟨.TNS_ROUTE, 24, 9, .ro, 255⟩

/-! TNS_ROUTE_GEN, R85: Route change count -/
def TNS_ROUTE_GEN.GEN : Fld := ⟨.TNS_ROUTE_GEN, 0, 32, .ro, 0⟩

/-! COR_NUMCFG, R119: Format, slicing, output, rounding and reduction settings -/
def COR_NUMCFG.FORMAT : Fld := ⟨.COR_NUMCFG, 0, 4, .ro, 0⟩
def COR_NUMCFG.SLICE : Fld := ⟨.COR_NUMCFG, 4, 2, .ro, 0⟩
def COR_NUMCFG.OUT_FMT : Fld := ⟨.COR_NUMCFG, 6, 4, .ro, 0⟩
def COR_NUMCFG.ROUND : Fld := ⟨.COR_NUMCFG, 10, 2, .ro, 0⟩
def COR_NUMCFG.SAT : Fld := ⟨.COR_NUMCFG, 12, 1, .ro, 0⟩
def COR_NUMCFG.ARRIVAL : Fld := ⟨.COR_NUMCFG, 13, 1, .ro, 0⟩
def COR_NUMCFG.DETERMINISM : Fld := ⟨.COR_NUMCFG, 14, 1, .ro, 1⟩

/-! COR_SR_SEED, R119: Stochastic rounding seed of the clearing -/
def COR_SR_SEED.SEED : Fld := ⟨.COR_SR_SEED, 0, 64, .ro, 0⟩

/-! COR_NUM_STICKY, R119: Granule partials formed with t = 1 -/
def COR_NUM_STICKY.COUNT : Fld := ⟨.COR_NUM_STICKY, 0, 32, .rw, 0⟩

/-! COR_NUM_SPECIAL, R119: Granule partials with any special flag set -/
def COR_NUM_SPECIAL.COUNT : Fld := ⟨.COR_NUM_SPECIAL, 0, 32, .rw, 0⟩

/-! VEC_COMB_CFG, R159: Combining area -/
def VEC_COMB_CFG.BASE : Fld := ⟨.VEC_COMB_CFG, 0, 15, .ro, 0⟩
def VEC_COMB_CFG.SIZE : Fld := ⟨.VEC_COMB_CFG, 16, 15, .ro, 0⟩

/-! VEC_STATE, R159: Activity and combining-area use -/
def VEC_STATE.BUSY : Fld := ⟨.VEC_STATE, 0, 1, .ro, 0⟩
def VEC_STATE.STOPPED : Fld := ⟨.VEC_STATE, 1, 1, .ro, 1⟩
def VEC_STATE.COMB_USED : Fld := ⟨.VEC_STATE, 16, 15, .ro, 0⟩

/-! VEC_ERR, R159: Fault flags -/
def VEC_ERR.COMB_PLAN : Fld := ⟨.VEC_ERR, 0, 1, .w1c, 0⟩
def VEC_ERR.TABLE_INVALID : Fld := ⟨.VEC_ERR, 1, 1, .w1c, 0⟩
def VEC_ERR.ECC_UNCORR : Fld := ⟨.VEC_ERR, 2, 1, .w1c, 0⟩

/-! VEC_ECC_CORR, R159: Corrected errors -/
def VEC_ECC_CORR.COUNT : Fld := ⟨.VEC_ECC_CORR, 0, 32, .rw, 0⟩

/-! VEC_FTAB_GEN, R159: Table set identifier -/
def VEC_FTAB_GEN.SET : Fld := ⟨.VEC_FTAB_GEN, 0, 32, .ro, 0⟩

/-! VEC_FTAB, R159: Function table slot j -/
def VEC_FTAB.KIND : Fld := ⟨.VEC_FTAB, 0, 3, .ro, 0⟩
def VEC_FTAB.FUNC : Fld := ⟨.VEC_FTAB, 8, 8, .ro, 0⟩
def VEC_FTAB.MAX_ERR_ULP : Fld := ⟨.VEC_FTAB, 16, 8, .ro, 0⟩

/-! SIG_MODE, R160: Arithmetic mode -/
def SIG_MODE.FRAC : Fld := ⟨.SIG_MODE, 0, 1, .ro, 1⟩
def SIG_MODE.SAT_ACC : Fld := ⟨.SIG_MODE, 1, 1, .ro, 0⟩
def SIG_MODE.SAT_STORE : Fld := ⟨.SIG_MODE, 2, 1, .ro, 1⟩
def SIG_MODE.ROUND : Fld := ⟨.SIG_MODE, 3, 2, .ro, 2⟩
def SIG_MODE.SHIFT : Fld := ⟨.SIG_MODE, 5, 5, .ro, 16⟩

/-! SIG_STATE, R160: Program counter, run state, stall cause -/
def SIG_STATE.PC : Fld := ⟨.SIG_STATE, 0, 12, .ro, 0⟩
def SIG_STATE.RUNNING : Fld := ⟨.SIG_STATE, 12, 1, .ro, 0⟩
def SIG_STATE.STOPPED : Fld := ⟨.SIG_STATE, 13, 1, .ro, 1⟩
def SIG_STATE.WAIT : Fld := ⟨.SIG_STATE, 14, 2, .ro, 0⟩

/-! SIG_STATUS, R160: Sticky flags -/
def SIG_STATUS.ACC_OVF : Fld := ⟨.SIG_STATUS, 0, 1, .w1c, 0⟩
def SIG_STATUS.STORE_SAT : Fld := ⟨.SIG_STATUS, 1, 1, .w1c, 0⟩
def SIG_STATUS.ECC_UNCORR : Fld := ⟨.SIG_STATUS, 2, 1, .w1c, 0⟩

/-! SIG_ACC, R160: Accumulator -/
def SIG_ACC.ACC : Fld := ⟨.SIG_ACC, 0, 40, .ro, 0⟩
def SIG_ACC.ACC_SX : Fld := ⟨.SIG_ACC, 40, 24, .ro, 0⟩

/-! SIG_ECC_CORR, R160: Corrected errors -/
def SIG_ECC_CORR.COUNT : Fld := ⟨.SIG_ECC_CORR, 0, 32, .rw, 0⟩

/-! SIG_BASE, R160: Generator base -/
def SIG_BASE.BASE : Fld := ⟨.SIG_BASE, 0, 15, .ro, 0⟩

/-! SIG_LEN, R160: Generator length -/
def SIG_LEN.LEN : Fld := ⟨.SIG_LEN, 0, 16, .ro, 0⟩

/-! SIG_INDEX, R160: Generator index -/
def SIG_INDEX.INDEX : Fld := ⟨.SIG_INDEX, 0, 15, .ro, 0⟩

/-! SIG_STEP, R160: Generator step -/
def SIG_STEP.STEP : Fld := ⟨.SIG_STEP, 0, 16, .ro, 0⟩

/-! FEC_CTRL, R161: Service state -/
def FEC_CTRL.ENABLE : Fld := ⟨.FEC_CTRL, 0, 1, .ro, 0⟩
def FEC_CTRL.IN_SERVICE : Fld := ⟨.FEC_CTRL, 1, 1, .ro, 0⟩

/-! FEC_STATE, R161: Activity and queue depths -/
def FEC_STATE.DEC0_BUSY : Fld := ⟨.FEC_STATE, 0, 1, .ro, 0⟩
def FEC_STATE.DEC1_BUSY : Fld := ⟨.FEC_STATE, 1, 1, .ro, 0⟩
def FEC_STATE.ENC_BUSY : Fld := ⟨.FEC_STATE, 2, 1, .ro, 0⟩
def FEC_STATE.DEC_QUEUE : Fld := ⟨.FEC_STATE, 16, 9, .ro, 0⟩
def FEC_STATE.ENC_QUEUE : Fld := ⟨.FEC_STATE, 32, 8, .ro, 0⟩

/-! FEC_ERR, R161: Fault flags -/
def FEC_ERR.DESC_FORMAT : Fld := ⟨.FEC_ERR, 0, 1, .w1c, 0⟩
def FEC_ERR.ECC_UNCORR : Fld := ⟨.FEC_ERR, 1, 1, .w1c, 0⟩

/-! FEC_DEC_BLOCKS, R161: Code blocks decoded by decoder i -/
def FEC_DEC_BLOCKS.COUNT : Fld := ⟨.FEC_DEC_BLOCKS, 0, 48, .rw, 0⟩

/-! FEC_DEC_ITERS, R161: Iterations run by both decoders -/
def FEC_DEC_ITERS.COUNT : Fld := ⟨.FEC_DEC_ITERS, 0, 48, .rw, 0⟩

/-! FEC_DEC_FAIL, R161: Decodes ending with SYND_OK = 0 -/
def FEC_DEC_FAIL.COUNT : Fld := ⟨.FEC_DEC_FAIL, 0, 48, .rw, 0⟩

/-! FEC_ENC_BLOCKS, R161: Code blocks encoded -/
def FEC_ENC_BLOCKS.COUNT : Fld := ⟨.FEC_ENC_BLOCKS, 0, 48, .rw, 0⟩

/-! FEC_EXPIRED, R161: Descriptors not processed under R152 -/
def FEC_EXPIRED.COUNT : Fld := ⟨.FEC_EXPIRED, 0, 48, .rw, 0⟩

/-! FEC_ECC_CORR, R161: Corrected errors -/
def FEC_ECC_CORR.COUNT : Fld := ⟨.FEC_ECC_CORR, 0, 32, .rw, 0⟩

/-! STR_SITE, R190: Owner and bypass -/
def STR_SITE.OWNER : Fld := ⟨.STR_SITE, 0, 11, .ro, 2047⟩
def STR_SITE.BYPASS : Fld := ⟨.STR_SITE, 11, 1, .ro, 0⟩

/-! STR_STATE, R190: Stall causes -/
def STR_STATE.IN_WAIT (p : Nat) : Fld := ⟨.STR_STATE, 0 + 1 * p, 1, .ro, 0⟩
def STR_STATE.OUT_WAIT (p : Nat) : Fld := ⟨.STR_STATE, 8 + 1 * p, 1, .ro, 0⟩
def STR_STATE.SIG_IN_WAIT (e : Nat) : Fld := ⟨.STR_STATE, 16 + 1 * e, 1, .ro, 0⟩
def STR_STATE.SIG_OUT_WAIT (e : Nat) : Fld := ⟨.STR_STATE, 18 + 1 * e, 1, .ro, 0⟩

/-! STR_ERR, R190: Fault flags -/
def STR_ERR.DATA_UNCORR : Fld := ⟨.STR_ERR, 0, 1, .w1c, 0⟩
def STR_ERR.TAG_UNCORR : Fld := ⟨.STR_ERR, 1, 1, .w1c, 0⟩
def STR_ERR.NO_ROUTE : Fld := ⟨.STR_ERR, 2, 1, .w1c, 0⟩
def STR_ERR.STATUS_CLASS : Fld := ⟨.STR_ERR, 3, 1, .w1c, 0⟩
def STR_ERR.EXP_MISSING : Fld := ⟨.STR_ERR, 4, 1, .w1c, 0⟩

/-! STR_ECC_CORR, R190: Corrected errors -/
def STR_ECC_CORR.COUNT : Fld := ⟨.STR_ECC_CORR, 0, 32, .rw, 0⟩

/-! STR_RT_SEL, R190: Route entry selector -/
def STR_RT_SEL.STREAM : Fld := ⟨.STR_RT_SEL, 0, 12, .rw, 0⟩

/-! STR_RT_ENTRY, R190: Selected route entry -/
def STR_RT_ENTRY.OUT : Fld := ⟨.STR_RT_ENTRY, 0, 3, .ro, 0⟩
def STR_RT_ENTRY.PORT : Fld := ⟨.STR_RT_ENTRY, 3, 4, .ro, 0⟩
def STR_RT_ENTRY.GLADE : Fld := ⟨.STR_RT_ENTRY, 7, 1, .ro, 0⟩
def STR_RT_ENTRY.RES : Fld := ⟨.STR_RT_ENTRY, 8, 7, .ro, 0⟩

/-! STR_IN, R190: Ingress port p -/
def STR_IN.STREAM : Fld := ⟨.STR_IN, 0, 12, .ro, 0⟩
def STR_IN.BOUND : Fld := ⟨.STR_IN, 12, 1, .ro, 0⟩
def STR_IN.DEPTH_LOG2 : Fld := ⟨.STR_IN, 13, 3, .ro, 0⟩
def STR_IN.LEVEL : Fld := ⟨.STR_IN, 16, 7, .ro, 0⟩

/-! STR_OUT, R190: Egress port p -/
def STR_OUT.STREAM : Fld := ⟨.STR_OUT, 0, 12, .ro, 0⟩
def STR_OUT.BOUND : Fld := ⟨.STR_OUT, 12, 1, .ro, 0⟩
def STR_OUT.DEPTH_LOG2 : Fld := ⟨.STR_OUT, 13, 3, .ro, 0⟩
def STR_OUT.CREDITS : Fld := ⟨.STR_OUT, 16, 7, .ro, 0⟩

/-! STR_SIG_IN, R190: Input port of signal engine e -/
def STR_SIG_IN.STREAM : Fld := ⟨.STR_SIG_IN, 0, 12, .ro, 0⟩
def STR_SIG_IN.BOUND : Fld := ⟨.STR_SIG_IN, 12, 1, .ro, 0⟩
def STR_SIG_IN.DEPTH_LOG2 : Fld := ⟨.STR_SIG_IN, 13, 3, .ro, 0⟩
def STR_SIG_IN.LEVEL : Fld := ⟨.STR_SIG_IN, 16, 7, .ro, 0⟩

/-! STR_SIG_OUT, R190: Output port of signal engine e -/
def STR_SIG_OUT.STREAM : Fld := ⟨.STR_SIG_OUT, 0, 12, .ro, 0⟩
def STR_SIG_OUT.BOUND : Fld := ⟨.STR_SIG_OUT, 12, 1, .ro, 0⟩
def STR_SIG_OUT.DEPTH_LOG2 : Fld := ⟨.STR_SIG_OUT, 13, 3, .ro, 0⟩
def STR_SIG_OUT.CREDITS : Fld := ⟨.STR_SIG_OUT, 16, 7, .ro, 0⟩

/-! STR_LINK_SEL, R191: Link selector -/
def STR_LINK_SEL.SITE : Fld := ⟨.STR_LINK_SEL, 0, 7, .rw, 0⟩
def STR_LINK_SEL.DIR : Fld := ⟨.STR_LINK_SEL, 7, 2, .rw, 0⟩

/-! STR_LINK_ENTRY, R191: Reservations on the selected link direction -/
def STR_LINK_ENTRY.RES_GLADE : Fld := ⟨.STR_LINK_ENTRY, 0, 7, .ro, 0⟩
def STR_LINK_ENTRY.RES_OTHER : Fld := ⟨.STR_LINK_ENTRY, 8, 7, .ro, 0⟩
def STR_LINK_ENTRY.PRESENT : Fld := ⟨.STR_LINK_ENTRY, 15, 1, .ro, 0⟩

/-! STR_CL_ECC_CORR, R191: Corrected errors at the FEC, HBM and Ziura crossings -/
def STR_CL_ECC_CORR.COUNT : Fld := ⟨.STR_CL_ECC_CORR, 0, 32, .rw, 0⟩

/-! STR_ROUTE_GEN, R191: Route change count -/
def STR_ROUTE_GEN.GEN : Fld := ⟨.STR_ROUTE_GEN, 0, 32, .ro, 0⟩

/-! MOV_STATE, R231: Occupancy -/
def MOV_STATE.IDLE : Fld := ⟨.MOV_STATE, 0, 1, .ro, 1⟩
def MOV_STATE.QUEUED : Fld := ⟨.MOV_STATE, 1, 6, .ro, 0⟩
def MOV_STATE.SLOTS : Fld := ⟨.MOV_STATE, 8, 6, .ro, 0⟩
def MOV_STATE.PARKED : Fld := ⟨.MOV_STATE, 16, 5, .ro, 0⟩
def MOV_STATE.FABRIC : Fld := ⟨.MOV_STATE, 32, 10, .ro, 0⟩

/-! MOV_ERR, R231: Fault flags -/
def MOV_ERR.DESC_FORMAT : Fld := ⟨.MOV_ERR, 0, 1, .w1c, 0⟩
def MOV_ERR.READ_UNCORR : Fld := ⟨.MOV_ERR, 1, 1, .w1c, 0⟩
def MOV_ERR.CS_UNCORR : Fld := ⟨.MOV_ERR, 2, 1, .w1c, 0⟩

/-! MOV_CS_ECC_CORR, R231: Core-store corrected errors -/
def MOV_CS_ECC_CORR.COUNT : Fld := ⟨.MOV_CS_ECC_CORR, 0, 32, .rw, 0⟩

/-! MOV_DESC_COUNT, R231: Descriptors completed -/
def MOV_DESC_COUNT.COUNT : Fld := ⟨.MOV_DESC_COUNT, 0, 48, .ro, 0⟩

/-! MOV_LIMITS, R231: Fixed limits -/
def MOV_LIMITS.SLOTS : Fld := ⟨.MOV_LIMITS, 0, 8, .ro, 48⟩
def MOV_LIMITS.BG_CAP : Fld := ⟨.MOV_LIMITS, 8, 8, .ro, 12⟩
def MOV_LIMITS.PARK : Fld := ⟨.MOV_LIMITS, 16, 8, .ro, 16⟩
def MOV_LIMITS.DESC_Q : Fld := ⟨.MOV_LIMITS, 24, 8, .ro, 32⟩
def MOV_LIMITS.FABRIC : Fld := ⟨.MOV_LIMITS, 32, 16, .ro, 512⟩

/-! CLU_STATE, R232: Service state -/
def CLU_STATE.IN_SERVICE : Fld := ⟨.CLU_STATE, 0, 1, .ro, 0⟩

/-! CLU_ERR, R232: Fault flags -/
def CLU_ERR.UNCORR : Fld := ⟨.CLU_ERR, 0, 1, .w1c, 0⟩

/-! CLU_ECC_CORR, R232: Corrected errors -/
def CLU_ECC_CORR.COUNT : Fld := ⟨.CLU_ECC_CORR, 0, 32, .rw, 0⟩

/-! CLU_OWN_SEL, R232: Block selector -/
def CLU_OWN_SEL.BLOCK : Fld := ⟨.CLU_OWN_SEL, 0, 10, .rw, 0⟩

/-! CLU_OWN_ENTRY, R232: Owner of the selected block -/
def CLU_OWN_ENTRY.OWNER : Fld := ⟨.CLU_OWN_ENTRY, 0, 11, .ro, 0⟩
def CLU_OWN_ENTRY.ASSIGNED : Fld := ⟨.CLU_OWN_ENTRY, 11, 1, .ro, 0⟩
def CLU_OWN_ENTRY.GLADE : Fld := ⟨.CLU_OWN_ENTRY, 12, 1, .ro, 0⟩

/-! CLU_OWN_GEN, R232: Ownership change count -/
def CLU_OWN_GEN.GEN : Fld := ⟨.CLU_OWN_GEN, 0, 32, .ro, 0⟩

/-! HBM_STATE, R233: Service state and temperature -/
def HBM_STATE.IN_SERVICE : Fld := ⟨.HBM_STATE, 0, 1, .ro, 0⟩
def HBM_STATE.SELF_REFRESH : Fld := ⟨.HBM_STATE, 1, 1, .ro, 0⟩
def HBM_STATE.TEMP : Fld := ⟨.HBM_STATE, 8, 8, .ro, 0⟩

/-! HBM_ERR, R233: Fault flags -/
def HBM_ERR.UNCORR : Fld := ⟨.HBM_ERR, 0, 1, .w1c, 0⟩
def HBM_ERR.SCRUB_UNCORR : Fld := ⟨.HBM_ERR, 1, 1, .w1c, 0⟩
def HBM_ERR.TRAIN_FAIL : Fld := ⟨.HBM_ERR, 2, 1, .w1c, 0⟩

/-! HBM_ECC_CORR, R233: Corrected reads -/
def HBM_ECC_CORR.COUNT : Fld := ⟨.HBM_ECC_CORR, 0, 32, .rw, 0⟩

/-! HBM_ECC_UNCORR, R233: Uncorrectable reads -/
def HBM_ECC_UNCORR.COUNT : Fld := ⟨.HBM_ECC_UNCORR, 0, 32, .rw, 0⟩

/-! HBM_RESERVE, R233: Glade share -/
def HBM_RESERVE.RES : Fld := ⟨.HBM_RESERVE, 0, 6, .rw, 0⟩

/-! HBM_SCRUB, R233: Scrub period -/
def HBM_SCRUB.PERIOD : Fld := ⟨.HBM_SCRUB, 0, 8, .rw, 24⟩

/-! HBM_SCRUB_POS, R233: Next line to scrub -/
def HBM_SCRUB_POS.LINE : Fld := ⟨.HBM_SCRUB_POS, 0, 28, .ro, 0⟩

/-! HBM_LC_CTRL, R234: Prefetch and glade ways -/
def HBM_LC_CTRL.PF_EN : Fld := ⟨.HBM_LC_CTRL, 0, 1, .rw, 1⟩
def HBM_LC_CTRL.PF_DIST : Fld := ⟨.HBM_LC_CTRL, 1, 4, .rw, 8⟩
def HBM_LC_CTRL.GLADE_WAYS : Fld := ⟨.HBM_LC_CTRL, 8, 4, .rw, 0⟩

/-! HBM_LC_STATE, R234: Service state and dirty lines -/
def HBM_LC_STATE.IN_SERVICE : Fld := ⟨.HBM_LC_STATE, 0, 1, .ro, 0⟩
def HBM_LC_STATE.DIRTY : Fld := ⟨.HBM_LC_STATE, 16, 18, .ro, 0⟩

/-! HBM_LC_ERR, R234: Fault flags -/
def HBM_LC_ERR.DIRTY_UNCORR : Fld := ⟨.HBM_LC_ERR, 0, 1, .w1c, 0⟩

/-! HBM_LC_ECC_CORR, R234: Corrected errors -/
def HBM_LC_ECC_CORR.COUNT : Fld := ⟨.HBM_LC_ECC_CORR, 0, 32, .rw, 0⟩

/-! HBM_LC_PF_DROP, R234: Prefetches dropped at unmapped pages -/
def HBM_LC_PF_DROP.COUNT : Fld := ⟨.HBM_LC_PF_DROP, 0, 32, .rw, 0⟩

/-! HBM_XT_SEL, R234: Extent selector -/
def HBM_XT_SEL.OWNER : Fld := ⟨.HBM_XT_SEL, 0, 11, .rw, 0⟩
def HBM_XT_SEL.INDEX : Fld := ⟨.HBM_XT_SEL, 16, 5, .rw, 0⟩

/-! HBM_XT_MAP, R234: Clearing page and access of the selected extent -/
def HBM_XT_MAP.CL_PAGE : Fld := ⟨.HBM_XT_MAP, 0, 28, .ro, 0⟩
def HBM_XT_MAP.VALID : Fld := ⟨.HBM_XT_MAP, 32, 1, .ro, 0⟩
def HBM_XT_MAP.WRITE : Fld := ⟨.HBM_XT_MAP, 33, 1, .ro, 0⟩

/-! HBM_XT_DEV, R234: Device page and length of the selected extent -/
def HBM_XT_DEV.DEV_PAGE : Fld := ⟨.HBM_XT_DEV, 0, 28, .ro, 0⟩
def HBM_XT_DEV.PAGES : Fld := ⟨.HBM_XT_DEV, 32, 24, .ro, 0⟩

/-! HBM_XT_GEN, R234: Extent change count -/
def HBM_XT_GEN.GEN : Fld := ⟨.HBM_XT_GEN, 0, 32, .ro, 0⟩

/-! GLB_IMG_SRC, R258: Host address of the image -/
def GLB_IMG_SRC.ADDR : Fld := ⟨.GLB_IMG_SRC, 12, 52, .rw, 0⟩

/-! GLB_IMG_LEN, R258: Image length -/
def GLB_IMG_LEN.LEN : Fld := ⟨.GLB_IMG_LEN, 0, 30, .rw, 0⟩

/-! GLB_IMG_TARGET, R258: Target clearing and mode -/
def GLB_IMG_TARGET.OWNER : Fld := ⟨.GLB_IMG_TARGET, 0, 11, .rw, 0⟩
def GLB_IMG_TARGET.MODE : Fld := ⟨.GLB_IMG_TARGET, 11, 2, .rw, 0⟩

/-! GLB_IMG_ACT_TIME, R258: Activation time of a glade image -/
def GLB_IMG_ACT_TIME.NS : Fld := ⟨.GLB_IMG_ACT_TIME, 0, 32, .rw, 0⟩
def GLB_IMG_ACT_TIME.SEC_LO : Fld := ⟨.GLB_IMG_ACT_TIME, 32, 32, .rw, 0⟩

/-! GLB_IMG_DRAIN, R258: Drain limit -/
def GLB_IMG_DRAIN.LIMIT_US : Fld := ⟨.GLB_IMG_DRAIN, 0, 24, .rw, 2000⟩

/-! GLB_IMG_CMD, R258: Start and abort -/
def GLB_IMG_CMD.CMD : Fld := ⟨.GLB_IMG_CMD, 0, 2, .wo, 0⟩

/-! GLB_IMG_STATUS, R258: Phase, outcome and reason -/
def GLB_IMG_STATUS.BUSY : Fld := ⟨.GLB_IMG_STATUS, 0, 1, .ro, 0⟩
def GLB_IMG_STATUS.PHASE : Fld := ⟨.GLB_IMG_STATUS, 1, 3, .ro, 0⟩
def GLB_IMG_STATUS.STATUS : Fld := ⟨.GLB_IMG_STATUS, 4, 4, .ro, 0⟩
def GLB_IMG_STATUS.REASON : Fld := ⟨.GLB_IMG_STATUS, 8, 8, .ro, 0⟩
def GLB_IMG_STATUS.START_LOST : Fld := ⟨.GLB_IMG_STATUS, 16, 1, .w1c, 0⟩
def GLB_IMG_STATUS.LOAD_SEQ : Fld := ⟨.GLB_IMG_STATUS, 32, 32, .ro, 0⟩

/-! GLB_IMG_DETAIL, R258: Where a refusal arose -/
def GLB_IMG_DETAIL.SEC : Fld := ⟨.GLB_IMG_DETAIL, 0, 16, .ro, 0⟩
def GLB_IMG_DETAIL.DIE : Fld := ⟨.GLB_IMG_DETAIL, 16, 3, .ro, 0⟩
def GLB_IMG_DETAIL.CLUSTER : Fld := ⟨.GLB_IMG_DETAIL, 19, 1, .ro, 0⟩
def GLB_IMG_DETAIL.SITE : Fld := ⟨.GLB_IMG_DETAIL, 20, 7, .ro, 0⟩
def GLB_IMG_DETAIL.DIR : Fld := ⟨.GLB_IMG_DETAIL, 27, 2, .ro, 0⟩
def GLB_IMG_DETAIL.NEED : Fld := ⟨.GLB_IMG_DETAIL, 32, 16, .ro, 0⟩
def GLB_IMG_DETAIL.AVAIL : Fld := ⟨.GLB_IMG_DETAIL, 48, 16, .ro, 0⟩

/-! GLB_IMG_ERR_SEQ, R258: Error record of a failed load -/
def GLB_IMG_ERR_SEQ.SEQ : Fld := ⟨.GLB_IMG_ERR_SEQ, 0, 48, .ro, 0⟩

/-! GLB_IMG_WINDOW, R258: Longest switch window -/
def GLB_IMG_WINDOW.LONGEST_NS : Fld := ⟨.GLB_IMG_WINDOW, 0, 32, .ro, 0⟩

/-! GLB_IMG_COUNTS, R258: Outcomes since last cleared -/
def GLB_IMG_COUNTS.DONE : Fld := ⟨.GLB_IMG_COUNTS, 0, 16, .rw, 0⟩
def GLB_IMG_COUNTS.REFUSED : Fld := ⟨.GLB_IMG_COUNTS, 16, 16, .rw, 0⟩
def GLB_IMG_COUNTS.FAILED : Fld := ⟨.GLB_IMG_COUNTS, 32, 16, .rw, 0⟩
def GLB_IMG_COUNTS.CANCELLED : Fld := ⟨.GLB_IMG_COUNTS, 48, 16, .rw, 0⟩

/-! GLB_DET_SEL, R280: Clearing selector -/
def GLB_DET_SEL.OWNER : Fld := ⟨.GLB_DET_SEL, 0, 11, .rw, 0⟩

/-! GLB_DET_SIG_A, R280: Signature of the selected clearing -/
def GLB_DET_SIG_A.STEPPING : Fld := ⟨.GLB_DET_SIG_A, 0, 16, .ro, 0⟩
def GLB_DET_SIG_A.FW_VERSION : Fld := ⟨.GLB_DET_SIG_A, 16, 32, .ro, 0⟩
def GLB_DET_SIG_A.NUMCFG : Fld := ⟨.GLB_DET_SIG_A, 48, 15, .ro, 0⟩
def GLB_DET_SIG_A.VALID : Fld := ⟨.GLB_DET_SIG_A, 63, 1, .ro, 0⟩

/-! GLB_DET_SIG_B, R280: Seed of the selected clearing -/
def GLB_DET_SIG_B.SEED : Fld := ⟨.GLB_DET_SIG_B, 0, 64, .ro, 0⟩

/-! GLB_DET_ND_COUNT, R280: Counted choices of the selected clearing -/
def GLB_DET_ND_COUNT.ORDER : Fld := ⟨.GLB_DET_ND_COUNT, 0, 32, .rw, 0⟩
def GLB_DET_ND_COUNT.ATOMIC : Fld := ⟨.GLB_DET_ND_COUNT, 32, 32, .rw, 0⟩

/-! GLB_DET_GEN, R280: Change count for the selected views -/
def GLB_DET_GEN.GEN : Fld := ⟨.GLB_DET_GEN, 0, 32, .ro, 0⟩

/-! GLB_DET_BAR_TARGET, R280: Barrier owner -/
def GLB_DET_BAR_TARGET.OWNER : Fld := ⟨.GLB_DET_BAR_TARGET, 0, 11, .rw, 0⟩

/-! GLB_DET_BAR_TIME, R280: Barrier time -/
def GLB_DET_BAR_TIME.NS : Fld := ⟨.GLB_DET_BAR_TIME, 0, 32, .rw, 0⟩
def GLB_DET_BAR_TIME.SEC_LO : Fld := ⟨.GLB_DET_BAR_TIME, 32, 32, .rw, 0⟩

/-! GLB_DET_BAR_CMD, R280: Arm and cancel -/
def GLB_DET_BAR_CMD.CMD : Fld := ⟨.GLB_DET_BAR_CMD, 0, 2, .wo, 0⟩

/-! GLB_DET_BAR_STATUS, R280: Barrier state -/
def GLB_DET_BAR_STATUS.STATE : Fld := ⟨.GLB_DET_BAR_STATUS, 0, 3, .ro, 0⟩
def GLB_DET_BAR_STATUS.ARM_REFUSED : Fld := ⟨.GLB_DET_BAR_STATUS, 3, 1, .w1c, 0⟩
def GLB_DET_BAR_STATUS.OWNER : Fld := ⟨.GLB_DET_BAR_STATUS, 8, 11, .ro, 0⟩
def GLB_DET_BAR_STATUS.CAUSE : Fld := ⟨.GLB_DET_BAR_STATUS, 19, 4, .ro, 0⟩
def GLB_DET_BAR_STATUS.LATE_NS : Fld := ⟨.GLB_DET_BAR_STATUS, 32, 32, .ro, 0⟩

/-! GLB_SENT_CTRL, R280: Sampling control -/
def GLB_SENT_CTRL.RATE_LOG2 : Fld := ⟨.GLB_SENT_CTRL, 0, 5, .rw, 12⟩
def GLB_SENT_CTRL.GLADES : Fld := ⟨.GLB_SENT_CTRL, 5, 1, .rw, 1⟩
def GLB_SENT_CTRL.PREFER_DIE : Fld := ⟨.GLB_SENT_CTRL, 6, 1, .rw, 1⟩

/-! GLB_SENT_RUNS, R280: Samples compared -/
def GLB_SENT_RUNS.COUNT : Fld := ⟨.GLB_SENT_RUNS, 0, 48, .rw, 0⟩

/-! GLB_SENT_SKIPPED, R280: Samples skipped or dropped -/
def GLB_SENT_SKIPPED.COUNT : Fld := ⟨.GLB_SENT_SKIPPED, 0, 48, .rw, 0⟩

/-! GLB_SENT_MISMATCH, R280: Mismatches -/
def GLB_SENT_MISMATCH.COUNT : Fld := ⟨.GLB_SENT_MISMATCH, 0, 32, .rw, 0⟩

/-! GLB_SENT_LAST, R280: Last mismatch and verdict -/
def GLB_SENT_LAST.SEQ : Fld := ⟨.GLB_SENT_LAST, 0, 48, .ro, 0⟩
def GLB_SENT_LAST.VERDICT : Fld := ⟨.GLB_SENT_LAST, 48, 2, .ro, 0⟩
def GLB_SENT_LAST.PENDING : Fld := ⟨.GLB_SENT_LAST, 50, 1, .w1c, 0⟩

/-! GLB_SENT_ENV, R280: Original core, checker, arbiter -/
def GLB_SENT_ENV.DIE : Fld := ⟨.GLB_SENT_ENV, 0, 3, .ro, 0⟩
def GLB_SENT_ENV.CLUSTER : Fld := ⟨.GLB_SENT_ENV, 3, 1, .ro, 0⟩
def GLB_SENT_ENV.SITE : Fld := ⟨.GLB_SENT_ENV, 4, 7, .ro, 0⟩
def GLB_SENT_ENV.TEMP : Fld := ⟨.GLB_SENT_ENV, 11, 8, .ro, 0⟩
def GLB_SENT_ENV.MV : Fld := ⟨.GLB_SENT_ENV, 19, 12, .ro, 0⟩
def GLB_SENT_ENV.MHZ : Fld := ⟨.GLB_SENT_ENV, 31, 13, .ro, 0⟩
def GLB_SENT_ENV.NEIGH : Fld := ⟨.GLB_SENT_ENV, 44, 4, .ro, 0⟩
def GLB_SENT_ENV.WRONG : Fld := ⟨.GLB_SENT_ENV, 50, 1, .ro, 0⟩

/-! SCH_CMD, R304: Operation and owner -/
def SCH_CMD.OP : Fld := ⟨.SCH_CMD, 0, 4, .wo, 0⟩
def SCH_CMD.OWNER : Fld := ⟨.SCH_CMD, 16, 11, .wo, 0⟩

/-! SCH_ARG, R304: Command arguments -/
def SCH_ARG.ARG : Fld := ⟨.SCH_ARG, 0, 64, .rw, 0⟩

/-! SCH_CMD_STATUS, R304: Last command -/
def SCH_CMD_STATUS.BUSY : Fld := ⟨.SCH_CMD_STATUS, 0, 1, .ro, 0⟩
def SCH_CMD_STATUS.OP : Fld := ⟨.SCH_CMD_STATUS, 1, 4, .ro, 0⟩
def SCH_CMD_STATUS.STATUS : Fld := ⟨.SCH_CMD_STATUS, 5, 4, .ro, 0⟩
def SCH_CMD_STATUS.CAUSE : Fld := ⟨.SCH_CMD_STATUS, 16, 8, .ro, 0⟩
def SCH_CMD_STATUS.CMD_LOST : Fld := ⟨.SCH_CMD_STATUS, 24, 1, .w1c, 0⟩
def SCH_CMD_STATUS.OWNER : Fld := ⟨.SCH_CMD_STATUS, 32, 11, .ro, 0⟩
def SCH_CMD_STATUS.CMD_SEQ : Fld := ⟨.SCH_CMD_STATUS, 48, 16, .ro, 0⟩

/-! SCH_POOL, R304: Free queues and counts -/
def SCH_POOL.FREE_QUEUES : Fld := ⟨.SCH_POOL, 0, 21, .ro, 1048576⟩
def SCH_POOL.CLEARINGS : Fld := ⟨.SCH_POOL, 32, 11, .ro, 0⟩
def SCH_POOL.VFS_BOUND : Fld := ⟨.SCH_POOL, 48, 10, .ro, 0⟩

/-! SCH_VIOL_UNBOUND, R304: Accesses with no owner (R282, R292) -/
def SCH_VIOL_UNBOUND.COUNT : Fld := ⟨.SCH_VIOL_UNBOUND, 0, 32, .rw, 0⟩

/-! SCH_TEN_GEN, R304: Tenant table change count -/
def SCH_TEN_GEN.GEN : Fld := ⟨.SCH_TEN_GEN, 0, 32, .ro, 0⟩

/-! SCH_TEN_CFG, R304: State, class and reach -/
def SCH_TEN_CFG.STATE : Fld := ⟨.SCH_TEN_CFG, 0, 3, .ro, 0⟩
def SCH_TEN_CFG.CLASS : Fld := ⟨.SCH_TEN_CFG, 3, 1, .ro, 0⟩
def SCH_TEN_CFG.REACH : Fld := ⟨.SCH_TEN_CFG, 4, 2, .ro, 0⟩
def SCH_TEN_CFG.VF : Fld := ⟨.SCH_TEN_CFG, 6, 10, .ro, 0⟩
def SCH_TEN_CFG.NODE : Fld := ⟨.SCH_TEN_CFG, 16, 12, .ro, 0⟩
def SCH_TEN_CFG.IMAGE : Fld := ⟨.SCH_TEN_CFG, 28, 1, .ro, 0⟩

/-! SCH_TEN_BUDGET, R304: Budgets and extents in use -/
def SCH_TEN_BUDGET.CORES : Fld := ⟨.SCH_TEN_BUDGET, 0, 11, .ro, 0⟩
def SCH_TEN_BUDGET.QUEUES : Fld := ⟨.SCH_TEN_BUDGET, 16, 17, .ro, 0⟩
def SCH_TEN_BUDGET.EXTENTS : Fld := ⟨.SCH_TEN_BUDGET, 40, 6, .ro, 0⟩

/-! SCH_TEN_SHARE, R304: Share weight -/
def SCH_TEN_SHARE.WEIGHT : Fld := ⟨.SCH_TEN_SHARE, 0, 16, .rw, 0⟩

/-! SCH_TEN_DRAIN, R304: Drain limit -/
def SCH_TEN_DRAIN.LIMIT_US : Fld := ⟨.SCH_TEN_DRAIN, 0, 24, .rw, 0⟩

/-! SCH_TEN_ENGINE, R304: Engine time -/
def SCH_TEN_ENGINE.CORE_NS : Fld := ⟨.SCH_TEN_ENGINE, 0, 64, .ro, 0⟩

/-! SCH_TEN_VIOL, R304: Violations -/
def SCH_TEN_VIOL.MEM : Fld := ⟨.SCH_TEN_VIOL, 0, 16, .rw, 0⟩
def SCH_TEN_VIOL.QUEUE : Fld := ⟨.SCH_TEN_VIOL, 16, 16, .rw, 0⟩
def SCH_TEN_VIOL.REG : Fld := ⟨.SCH_TEN_VIOL, 32, 16, .rw, 0⟩
def SCH_TEN_VIOL.STREAM : Fld := ⟨.SCH_TEN_VIOL, 48, 16, .rw, 0⟩

/-! SCH_TEN_RESET, R304: Last reset or removal -/
def SCH_TEN_RESET.DURATION_US : Fld := ⟨.SCH_TEN_RESET, 0, 24, .ro, 0⟩
def SCH_TEN_RESET.SQUASHED : Fld := ⟨.SCH_TEN_RESET, 24, 1, .ro, 0⟩
def SCH_TEN_RESET.SOURCE : Fld := ⟨.SCH_TEN_RESET, 25, 2, .ro, 0⟩
def SCH_TEN_RESET.CANCELLED : Fld := ⟨.SCH_TEN_RESET, 32, 32, .ro, 0⟩

/-! QUE_CMD, R338: Operation, owner, local index -/
def QUE_CMD.OP : Fld := ⟨.QUE_CMD, 0, 4, .wo, 0⟩
def QUE_CMD.OWNER : Fld := ⟨.QUE_CMD, 16, 11, .wo, 0⟩
def QUE_CMD.LOCAL : Fld := ⟨.QUE_CMD, 32, 16, .wo, 0⟩

/-! QUE_ARG, R338: Map arguments -/
def QUE_ARG.ARG : Fld := ⟨.QUE_ARG, 0, 64, .rw, 0⟩

/-! QUE_CMD_STATUS, R338: Last command -/
def QUE_CMD_STATUS.BUSY : Fld := ⟨.QUE_CMD_STATUS, 0, 1, .ro, 0⟩
def QUE_CMD_STATUS.OP : Fld := ⟨.QUE_CMD_STATUS, 1, 4, .ro, 0⟩
def QUE_CMD_STATUS.STATUS : Fld := ⟨.QUE_CMD_STATUS, 5, 4, .ro, 0⟩
def QUE_CMD_STATUS.CAUSE : Fld := ⟨.QUE_CMD_STATUS, 16, 8, .ro, 0⟩
def QUE_CMD_STATUS.CMD_LOST : Fld := ⟨.QUE_CMD_STATUS, 24, 1, .w1c, 0⟩
def QUE_CMD_STATUS.OWNER : Fld := ⟨.QUE_CMD_STATUS, 32, 11, .ro, 0⟩
def QUE_CMD_STATUS.CMD_SEQ : Fld := ⟨.QUE_CMD_STATUS, 48, 16, .ro, 0⟩

/-! QUE_EPOCH, R338: Boot epoch -/
def QUE_EPOCH.EPOCH : Fld := ⟨.QUE_EPOCH, 0, 32, .ro, 0⟩

/-! QUE_SEL, R338: Global queue selector -/
def QUE_SEL.GLOBAL : Fld := ⟨.QUE_SEL, 0, 20, .rw, 0⟩

/-! QUE_VIEW_Q, R338: Binding and home of the selected queue -/
def QUE_VIEW_Q.OWNER : Fld := ⟨.QUE_VIEW_Q, 0, 11, .ro, 0⟩
def QUE_VIEW_Q.MAPPED : Fld := ⟨.QUE_VIEW_Q, 11, 1, .ro, 0⟩
def QUE_VIEW_Q.LOCAL : Fld := ⟨.QUE_VIEW_Q, 12, 16, .ro, 0⟩
def QUE_VIEW_Q.HOME : Fld := ⟨.QUE_VIEW_Q, 28, 3, .ro, 0⟩
def QUE_VIEW_Q.MIRROR : Fld := ⟨.QUE_VIEW_Q, 32, 3, .ro, 0⟩
def QUE_VIEW_Q.HOLD : Fld := ⟨.QUE_VIEW_Q, 36, 3, .ro, 0⟩
def QUE_VIEW_Q.MSG_FED : Fld := ⟨.QUE_VIEW_Q, 39, 1, .ro, 0⟩

/-! QUE_VIEW_ACC, R338: ACCEPTED and DB -/
def QUE_VIEW_ACC.ACCEPTED : Fld := ⟨.QUE_VIEW_ACC, 0, 48, .ro, 0⟩
def QUE_VIEW_ACC.DB_LAG : Fld := ⟨.QUE_VIEW_ACC, 48, 16, .ro, 0⟩

/-! QUE_VIEW_COMMIT, R338: COMMITTED and map generation -/
def QUE_VIEW_COMMIT.COMMITTED : Fld := ⟨.QUE_VIEW_COMMIT, 0, 48, .ro, 0⟩
def QUE_VIEW_COMMIT.MAP_GEN : Fld := ⟨.QUE_VIEW_COMMIT, 48, 16, .ro, 0⟩

/-! QUE_VIEW_EMIT, R338: Emitted position -/
def QUE_VIEW_EMIT.ITEM : Fld := ⟨.QUE_VIEW_EMIT, 0, 48, .ro, 0⟩
def QUE_VIEW_EMIT.INDEX : Fld := ⟨.QUE_VIEW_EMIT, 48, 16, .ro, 0⟩

/-! QUE_GEN, R338: Change count for the views -/
def QUE_GEN.GEN : Fld := ⟨.QUE_GEN, 0, 32, .ro, 0⟩

/-! QUE_POISON, R338: Poisoned submission reads -/
def QUE_POISON.COUNT : Fld := ⟨.QUE_POISON, 0, 32, .rw, 0⟩

/-! QUE_FRAMES_LOST, R338: Frames not sent under R333 -/
def QUE_FRAMES_LOST.COUNT : Fld := ⟨.QUE_FRAMES_LOST, 0, 32, .rw, 0⟩

/-! QUE_JNL, R338: Journal of home die d -/
def QUE_JNL.RECORDS : Fld := ⟨.QUE_JNL, 0, 22, .ro, 0⟩
def QUE_JNL.MIRROR : Fld := ⟨.QUE_JNL, 24, 3, .ro, 0⟩
def QUE_JNL.REBUILD : Fld := ⟨.QUE_JNL, 27, 1, .ro, 0⟩
def QUE_JNL.IN_SERVICE : Fld := ⟨.QUE_JNL, 28, 1, .ro, 0⟩

/-! SCH_CTRL, R373: Quantum, blocking and urgency thresholds -/
def SCH_CTRL.QUANTUM_US : Fld := ⟨.SCH_CTRL, 0, 20, .rw, 2000⟩
def SCH_CTRL.BLOCK_US : Fld := ⟨.SCH_CTRL, 20, 8, .rw, 10⟩
def SCH_CTRL.URGENT_MS : Fld := ⟨.SCH_CTRL, 32, 10, .rw, 20⟩

/-! SCH_LEND_CTRL, R373: Lending enable and fixed bounds -/
def SCH_LEND_CTRL.LEND_EN : Fld := ⟨.SCH_LEND_CTRL, 0, 1, .rw, 1⟩
def SCH_LEND_CTRL.MIN_GAP_US : Fld := ⟨.SCH_LEND_CTRL, 8, 8, .ro, 10⟩
def SCH_LEND_CTRL.RETURN_US : Fld := ⟨.SCH_LEND_CTRL, 16, 8, .ro, 6⟩

/-! SCH_CL_SEL, R373: Cluster and owner selector -/
def SCH_CL_SEL.CLUSTER : Fld := ⟨.SCH_CL_SEL, 0, 4, .rw, 0⟩
def SCH_CL_SEL.OWNER : Fld := ⟨.SCH_CL_SEL, 16, 11, .rw, 0⟩

/-! SCH_CL_VTIME, R373: V of the selected cluster -/
def SCH_CL_VTIME.VTIME : Fld := ⟨.SCH_CL_VTIME, 0, 64, .ro, 0⟩

/-! SCH_CL_TAG, R373: S of the selected owner in the selected cluster -/
def SCH_CL_TAG.TAG : Fld := ⟨.SCH_CL_TAG, 0, 64, .ro, 0⟩

/-! SCH_CL_STATE, R373: Context counts of the selected cluster -/
def SCH_CL_STATE.RESIDENT : Fld := ⟨.SCH_CL_STATE, 0, 10, .ro, 0⟩
def SCH_CL_STATE.READY : Fld := ⟨.SCH_CL_STATE, 16, 10, .ro, 0⟩
def SCH_CL_STATE.BLOCKED : Fld := ⟨.SCH_CL_STATE, 32, 10, .ro, 0⟩
def SCH_CL_STATE.URGENT : Fld := ⟨.SCH_CL_STATE, 48, 10, .ro, 0⟩

/-! SCH_CTX_SEL, R373: Context selector -/
def SCH_CTX_SEL.OWNER : Fld := ⟨.SCH_CTX_SEL, 0, 11, .rw, 0⟩
def SCH_CTX_SEL.CONTEXT : Fld := ⟨.SCH_CTX_SEL, 16, 10, .rw, 0⟩

/-! SCH_CTX_STATE, R373: State of the selected context -/
def SCH_CTX_STATE.RES : Fld := ⟨.SCH_CTX_STATE, 0, 3, .ro, 0⟩
def SCH_CTX_STATE.READY : Fld := ⟨.SCH_CTX_STATE, 3, 1, .ro, 0⟩
def SCH_CTX_STATE.BLOCKED : Fld := ⟨.SCH_CTX_STATE, 4, 1, .ro, 0⟩
def SCH_CTX_STATE.WAIT_CLASS : Fld := ⟨.SCH_CTX_STATE, 5, 2, .ro, 0⟩
def SCH_CTX_STATE.URGENT : Fld := ⟨.SCH_CTX_STATE, 7, 1, .ro, 0⟩
def SCH_CTX_STATE.BORROW : Fld := ⟨.SCH_CTX_STATE, 8, 1, .ro, 0⟩
def SCH_CTX_STATE.DIE : Fld := ⟨.SCH_CTX_STATE, 9, 3, .ro, 0⟩
def SCH_CTX_STATE.CLUSTER : Fld := ⟨.SCH_CTX_STATE, 12, 1, .ro, 0⟩
def SCH_CTX_STATE.ANCHOR : Fld := ⟨.SCH_CTX_STATE, 13, 6, .ro, 0⟩
def SCH_CTX_STATE.SHAPE : Fld := ⟨.SCH_CTX_STATE, 19, 3, .ro, 0⟩
def SCH_CTX_STATE.SLOT : Fld := ⟨.SCH_CTX_STATE, 22, 2, .ro, 0⟩
def SCH_CTX_STATE.PENDING : Fld := ⟨.SCH_CTX_STATE, 32, 10, .ro, 0⟩

/-! SCH_GEN, R373: Change count for the views -/
def SCH_GEN.GEN : Fld := ⟨.SCH_GEN, 0, 32, .ro, 0⟩

/-! SCH_PREEMPTS, R373: Saves and evictions -/
def SCH_PREEMPTS.PREEMPT : Fld := ⟨.SCH_PREEMPTS, 0, 32, .rw, 0⟩
def SCH_PREEMPTS.EVICT : Fld := ⟨.SCH_PREEMPTS, 32, 32, .rw, 0⟩

/-! SCH_URGENT, R373: Urgent allotments -/
def SCH_URGENT.COUNT : Fld := ⟨.SCH_URGENT, 0, 32, .rw, 0⟩

/-! SCH_LENDS, R373: Lends -/
def SCH_LENDS.COUNT : Fld := ⟨.SCH_LENDS, 0, 48, .rw, 0⟩

/-! SCH_RETURN_MAX, R373: Longest return -/
def SCH_RETURN_MAX.LONGEST_NS : Fld := ⟨.SCH_RETURN_MAX, 0, 32, .rw, 0⟩
def SCH_RETURN_MAX.OVER : Fld := ⟨.SCH_RETURN_MAX, 32, 1, .w1c, 0⟩

/-! RAD_CTRL, R405: Frame offset and absence threshold -/
def RAD_CTRL.FRAME_OFFSET_NS : Fld := ⟨.RAD_CTRL, 0, 30, .rw, 0⟩
def RAD_CTRL.ABSENT_SLOTS : Fld := ⟨.RAD_CTRL, 32, 8, .rw, 4⟩

/-! RAD_CAPACITY, R405: Free slot entries -/
def RAD_CAPACITY.ENTRIES : Fld := ⟨.RAD_CAPACITY, 0, 9, .ro, 384⟩

/-! RAD_ADMIT, R405: Detail of the last 0x51 refusal -/
def RAD_ADMIT.KIND : Fld := ⟨.RAD_ADMIT, 0, 3, .ro, 0⟩
def RAD_ADMIT.CLUSTER : Fld := ⟨.RAD_ADMIT, 4, 4, .ro, 0⟩
def RAD_ADMIT.LOAD_SEQ : Fld := ⟨.RAD_ADMIT, 32, 32, .ro, 0⟩

/-! RAD_CELL_SEL, R405: Cell selector -/
def RAD_CELL_SEL.CELL : Fld := ⟨.RAD_CELL_SEL, 0, 9, .rw, 0⟩

/-! RAD_CELL_VIEW, R405: Owner, move and RU state -/
def RAD_CELL_VIEW.OWNER : Fld := ⟨.RAD_CELL_VIEW, 0, 11, .ro, 0⟩
def RAD_CELL_VIEW.ASSIGNED : Fld := ⟨.RAD_CELL_VIEW, 11, 1, .ro, 0⟩
def RAD_CELL_VIEW.NEXT : Fld := ⟨.RAD_CELL_VIEW, 12, 11, .ro, 0⟩
def RAD_CELL_VIEW.MOVING : Fld := ⟨.RAD_CELL_VIEW, 23, 1, .ro, 0⟩
def RAD_CELL_VIEW.RU : Fld := ⟨.RAD_CELL_VIEW, 24, 2, .ro, 0⟩
def RAD_CELL_VIEW.MU : Fld := ⟨.RAD_CELL_VIEW, 26, 2, .ro, 0⟩
def RAD_CELL_VIEW.CLUSTER : Fld := ⟨.RAD_CELL_VIEW, 28, 4, .ro, 0⟩
def RAD_CELL_VIEW.SWITCH : Fld := ⟨.RAD_CELL_VIEW, 32, 32, .ro, 0⟩

/-! RAD_CELL_CNT, R405: Cell counters -/
def RAD_CELL_CNT.ABSENT_ITEMS : Fld := ⟨.RAD_CELL_CNT, 0, 16, .rw, 0⟩
def RAD_CELL_CNT.ABSENCES : Fld := ⟨.RAD_CELL_CNT, 16, 16, .rw, 0⟩
def RAD_CELL_CNT.UNSENT : Fld := ⟨.RAD_CELL_CNT, 32, 16, .rw, 0⟩

/-! RAD_GLADE_SEL, R405: Glade selector -/
def RAD_GLADE_SEL.OWNER : Fld := ⟨.RAD_GLADE_SEL, 0, 11, .rw, 0⟩

/-! RAD_GLADE_VIEW, R405: Numerology and counts -/
def RAD_GLADE_VIEW.MU : Fld := ⟨.RAD_GLADE_VIEW, 0, 2, .ro, 0⟩
def RAD_GLADE_VIEW.CELLS : Fld := ⟨.RAD_GLADE_VIEW, 8, 9, .ro, 0⟩
def RAD_GLADE_VIEW.ENTRIES : Fld := ⟨.RAD_GLADE_VIEW, 24, 9, .ro, 0⟩

/-! RAD_GLADE_DRUM, R405: Last slot and skipped slots -/
def RAD_GLADE_DRUM.LAST_M : Fld := ⟨.RAD_GLADE_DRUM, 0, 32, .ro, 0⟩
def RAD_GLADE_DRUM.SKIPPED : Fld := ⟨.RAD_GLADE_DRUM, 32, 32, .rw, 0⟩

/-! RAD_GLADE_FEC, R405: FEC overrun windows -/
def RAD_GLADE_FEC.OVER_DEC : Fld := ⟨.RAD_GLADE_FEC, 0, 32, .rw, 0⟩
def RAD_GLADE_FEC.OVER_ENC : Fld := ⟨.RAD_GLADE_FEC, 32, 32, .rw, 0⟩

/-! RAD_MOVE_ARG, R405: Cell and target -/
def RAD_MOVE_ARG.CELL : Fld := ⟨.RAD_MOVE_ARG, 0, 9, .rw, 0⟩
def RAD_MOVE_ARG.TO : Fld := ⟨.RAD_MOVE_ARG, 16, 11, .rw, 0⟩

/-! RAD_MOVE_TIME, R405: Switch time -/
def RAD_MOVE_TIME.NS : Fld := ⟨.RAD_MOVE_TIME, 0, 32, .rw, 0⟩
def RAD_MOVE_TIME.SEC_LO : Fld := ⟨.RAD_MOVE_TIME, 32, 32, .rw, 0⟩

/-! RAD_MOVE_CMD, R405: Move and cancel -/
def RAD_MOVE_CMD.CMD : Fld := ⟨.RAD_MOVE_CMD, 0, 2, .wo, 0⟩

/-! RAD_MOVE_STATUS, R405: Last move command -/
def RAD_MOVE_STATUS.BUSY : Fld := ⟨.RAD_MOVE_STATUS, 0, 1, .ro, 0⟩
def RAD_MOVE_STATUS.STATUS : Fld := ⟨.RAD_MOVE_STATUS, 1, 4, .ro, 0⟩
def RAD_MOVE_STATUS.CAUSE : Fld := ⟨.RAD_MOVE_STATUS, 8, 8, .ro, 0⟩
def RAD_MOVE_STATUS.CMD_LOST : Fld := ⟨.RAD_MOVE_STATUS, 16, 1, .w1c, 0⟩
def RAD_MOVE_STATUS.CMD_SEQ : Fld := ⟨.RAD_MOVE_STATUS, 32, 32, .ro, 0⟩

/-! RAD_GEN, R405: Change count for the views -/
def RAD_GEN.GEN : Fld := ⟨.RAD_GEN, 0, 32, .ro, 0⟩

/-! RAD_FEC_USE, R405: Admitted units of FEC block b -/
def RAD_FEC_USE.DEC : Fld := ⟨.RAD_FEC_USE, 0, 11, .ro, 0⟩
def RAD_FEC_USE.ENC : Fld := ⟨.RAD_FEC_USE, 16, 11, .ro, 0⟩

/-! RAD_Q_MODE, R406: Quad mode -/
def RAD_Q_MODE.MODE : Fld := ⟨.RAD_Q_MODE, 0, 2, .rw, 0⟩

/-! RAD_Q_LINK, R406: Link state -/
def RAD_Q_LINK.STATE : Fld := ⟨.RAD_Q_LINK, 0, 2, .ro, 0⟩
def RAD_Q_LINK.LANES : Fld := ⟨.RAD_Q_LINK, 2, 4, .ro, 0⟩

/-! RAD_Q_MAC, R406: Port MAC address -/
def RAD_Q_MAC.MAC : Fld := ⟨.RAD_Q_MAC, 0, 48, .rw, 0⟩

/-! RAD_Q_TXCFG, R406: Lateness, guard and sampling -/
def RAD_Q_TXCFG.TX_LATE_NS : Fld := ⟨.RAD_Q_TXCFG, 0, 16, .rw, 1000⟩
def RAD_Q_TXCFG.GUARD_NS : Fld := ⟨.RAD_Q_TXCFG, 16, 16, .rw, 100⟩
def RAD_Q_TXCFG.SAMPLE_NS : Fld := ⟨.RAD_Q_TXCFG, 32, 20, .rw, 1000⟩

/-! RAD_Q_DROP_A, R406: MALFORMED, SPOOFED -/
def RAD_Q_DROP_A.MALFORMED : Fld := ⟨.RAD_Q_DROP_A, 0, 32, .rw, 0⟩
def RAD_Q_DROP_A.SPOOFED : Fld := ⟨.RAD_Q_DROP_A, 32, 32, .rw, 0⟩

/-! RAD_Q_DROP_B, R406: POLICED, EARLY -/
def RAD_Q_DROP_B.POLICED : Fld := ⟨.RAD_Q_DROP_B, 0, 32, .rw, 0⟩
def RAD_Q_DROP_B.EARLY : Fld := ⟨.RAD_Q_DROP_B, 32, 32, .rw, 0⟩

/-! RAD_Q_DROP_C, R406: LATE, TX_DROP -/
def RAD_Q_DROP_C.LATE : Fld := ⟨.RAD_Q_DROP_C, 0, 32, .rw, 0⟩
def RAD_Q_DROP_C.TX_DROP : Fld := ⟨.RAD_Q_DROP_C, 32, 32, .rw, 0⟩

/-! RAD_Q_FLOW_SEL, R406: Flow selector -/
def RAD_Q_FLOW_SEL.INDEX : Fld := ⟨.RAD_Q_FLOW_SEL, 0, 9, .rw, 0⟩
def RAD_Q_FLOW_SEL.EGRESS : Fld := ⟨.RAD_Q_FLOW_SEL, 9, 1, .rw, 0⟩

/-! RAD_Q_FLOW_KEY, R406: Key of the selected flow -/
def RAD_Q_FLOW_KEY.MAC : Fld := ⟨.RAD_Q_FLOW_KEY, 0, 48, .ro, 0⟩
def RAD_Q_FLOW_KEY.VLAN : Fld := ⟨.RAD_Q_FLOW_KEY, 48, 12, .ro, 0⟩
def RAD_Q_FLOW_KEY.PCP : Fld := ⟨.RAD_Q_FLOW_KEY, 60, 3, .ro, 0⟩
def RAD_Q_FLOW_KEY.VALID : Fld := ⟨.RAD_Q_FLOW_KEY, 63, 1, .ro, 0⟩

/-! RAD_Q_FLOW_MAP, R406: Owner, cell and format -/
def RAD_Q_FLOW_MAP.EAXC : Fld := ⟨.RAD_Q_FLOW_MAP, 0, 16, .ro, 0⟩
def RAD_Q_FLOW_MAP.OWNER : Fld := ⟨.RAD_Q_FLOW_MAP, 16, 11, .ro, 0⟩
def RAD_Q_FLOW_MAP.CELL : Fld := ⟨.RAD_Q_FLOW_MAP, 27, 9, .ro, 0⟩
def RAD_Q_FLOW_MAP.IQ_WIDTH : Fld := ⟨.RAD_Q_FLOW_MAP, 36, 4, .ro, 0⟩
def RAD_Q_FLOW_MAP.TC : Fld := ⟨.RAD_Q_FLOW_MAP, 40, 3, .ro, 0⟩
def RAD_Q_FLOW_MAP.N_PRB : Fld := ⟨.RAD_Q_FLOW_MAP, 43, 9, .ro, 0⟩

/-! RAD_Q_FLOW_POL, R406: Policer -/
def RAD_Q_FLOW_POL.RATE_MBPS : Fld := ⟨.RAD_Q_FLOW_POL, 0, 19, .ro, 0⟩
def RAD_Q_FLOW_POL.BURST_KB : Fld := ⟨.RAD_Q_FLOW_POL, 20, 16, .ro, 0⟩

/-! RAD_Q_FLOW_WIN, R406: Reception window -/
def RAD_Q_FLOW_WIN.WIN_START_NS : Fld := ⟨.RAD_Q_FLOW_WIN, 0, 32, .ro, 0⟩
def RAD_Q_FLOW_WIN.WIN_END_NS : Fld := ⟨.RAD_Q_FLOW_WIN, 32, 32, .ro, 0⟩

/-! RAD_Q_FLOW_CNT, R406: Frames of the selected flow -/
def RAD_Q_FLOW_CNT.ACCEPTED : Fld := ⟨.RAD_Q_FLOW_CNT, 0, 32, .ro, 0⟩
def RAD_Q_FLOW_CNT.DROPPED : Fld := ⟨.RAD_Q_FLOW_CNT, 32, 32, .ro, 0⟩

/-! RAD_Q_GEN, R406: Flow table change count -/
def RAD_Q_GEN.GEN : Fld := ⟨.RAD_Q_GEN, 0, 32, .ro, 0⟩

/-! RAD_Q_CBS, R406: Shaper of class k -/
def RAD_Q_CBS.IDLE_MBPS : Fld := ⟨.RAD_Q_CBS, 0, 19, .rw, 0⟩
def RAD_Q_CBS.EN : Fld := ⟨.RAD_Q_CBS, 19, 1, .rw, 0⟩
def RAD_Q_CBS.HI_BYTES : Fld := ⟨.RAD_Q_CBS, 20, 16, .rw, 0⟩

/-! RAD_Q_GATE_CTRL, R406: Gate enable and list length -/
def RAD_Q_GATE_CTRL.EN : Fld := ⟨.RAD_Q_GATE_CTRL, 0, 1, .rw, 0⟩
def RAD_Q_GATE_CTRL.LEN : Fld := ⟨.RAD_Q_GATE_CTRL, 1, 9, .rw, 0⟩

/-! RAD_Q_GATE_BASE, R406: Base time -/
def RAD_Q_GATE_BASE.NS : Fld := ⟨.RAD_Q_GATE_BASE, 0, 32, .rw, 0⟩
def RAD_Q_GATE_BASE.SEC_LO : Fld := ⟨.RAD_Q_GATE_BASE, 32, 32, .rw, 0⟩

/-! RAD_Q_GATE_CYCLE, R406: Cycle time -/
def RAD_Q_GATE_CYCLE.CYCLE_NS : Fld := ⟨.RAD_Q_GATE_CYCLE, 0, 32, .rw, 0⟩

/-! RAD_Q_DEPTH, R406: Sampled depth -/
def RAD_Q_DEPTH.LAST_BYTES : Fld := ⟨.RAD_Q_DEPTH, 0, 24, .ro, 0⟩
def RAD_Q_DEPTH.MAX_BYTES : Fld := ⟨.RAD_Q_DEPTH, 32, 24, .rw, 0⟩

/-! RAD_Q_DELAY, R406: Sampled delay -/
def RAD_Q_DELAY.LAST_NS : Fld := ⟨.RAD_Q_DELAY, 0, 32, .ro, 0⟩
def RAD_Q_DELAY.MAX_NS : Fld := ⟨.RAD_Q_DELAY, 32, 32, .rw, 0⟩

/-! RAD_Q_GCL, R406: Gate list entry i -/
def RAD_Q_GCL.GATES : Fld := ⟨.RAD_Q_GCL, 0, 8, .rw, 128⟩
def RAD_Q_GCL.INTERVAL_NS : Fld := ⟨.RAD_Q_GCL, 8, 32, .rw, 0⟩

/-! TIM_STATUS, R427: Validity, reference and master -/
def TIM_STATUS.VALID : Fld := ⟨.TIM_STATUS, 0, 1, .ro, 0⟩
def TIM_STATUS.REF_OK : Fld := ⟨.TIM_STATUS, 1, 1, .ro, 0⟩
def TIM_STATUS.PPS_OK : Fld := ⟨.TIM_STATUS, 2, 1, .ro, 0⟩
def TIM_STATUS.HOLDOVER : Fld := ⟨.TIM_STATUS, 3, 1, .w1c, 0⟩
def TIM_STATUS.MASTER : Fld := ⟨.TIM_STATUS, 4, 3, .ro, 0⟩
def TIM_STATUS.STEPS : Fld := ⟨.TIM_STATUS, 32, 32, .ro, 0⟩

/-! TIM_SNAP, R427: Latches the counter -/
def TIM_SNAP.SNAP : Fld := ⟨.TIM_SNAP, 0, 1, .wo, 0⟩

/-! TIM_SNAP_SEC, R427: Latched seconds -/
def TIM_SNAP_SEC.SEC : Fld := ⟨.TIM_SNAP_SEC, 0, 64, .ro, 0⟩

/-! TIM_SNAP_NS, R427: Latched nanoseconds and fraction -/
def TIM_SNAP_NS.NS : Fld := ⟨.TIM_SNAP_NS, 0, 30, .ro, 0⟩
def TIM_SNAP_NS.FRAC : Fld := ⟨.TIM_SNAP_NS, 32, 16, .ro, 0⟩

/-! TIM_SET_SEC, R427: SET seconds -/
def TIM_SET_SEC.SEC : Fld := ⟨.TIM_SET_SEC, 0, 64, .rw, 0⟩

/-! TIM_SET_NS, R427: SET nanoseconds -/
def TIM_SET_NS.NS : Fld := ⟨.TIM_SET_NS, 0, 30, .rw, 0⟩

/-! TIM_STEP, R427: STEP amount -/
def TIM_STEP.STEP_NS : Fld := ⟨.TIM_STEP, 0, 48, .rw, 0⟩

/-! TIM_ADJ_CMD, R427: SET and STEP -/
def TIM_ADJ_CMD.CMD : Fld := ⟨.TIM_ADJ_CMD, 0, 2, .wo, 0⟩

/-! TIM_FREQ, R427: Frequency correction -/
def TIM_FREQ.FREQ : Fld := ⟨.TIM_FREQ, 0, 32, .rws, 0⟩

/-! TIM_PPS_SEC, R427: Seconds at the last PPS_IN edge -/
def TIM_PPS_SEC.SEC : Fld := ⟨.TIM_PPS_SEC, 0, 64, .ro, 0⟩

/-! TIM_PPS_NS, R427: Nanoseconds at that edge, and edge count -/
def TIM_PPS_NS.NS : Fld := ⟨.TIM_PPS_NS, 0, 30, .ro, 0⟩
def TIM_PPS_NS.FRAC : Fld := ⟨.TIM_PPS_NS, 32, 16, .ro, 0⟩
def TIM_PPS_NS.COUNT : Fld := ⟨.TIM_PPS_NS, 48, 16, .ro, 0⟩

/-! TIM_SYNCE, R427: Recovered clock output k -/
def TIM_SYNCE.QUAD : Fld := ⟨.TIM_SYNCE, 0, 4, .rw, 0⟩
def TIM_SYNCE.LANE : Fld := ⟨.TIM_SYNCE, 4, 2, .rw, 0⟩
def TIM_SYNCE.EN : Fld := ⟨.TIM_SYNCE, 6, 1, .rw, 0⟩
def TIM_SYNCE.SQUELCHED : Fld := ⟨.TIM_SYNCE, 7, 1, .ro, 1⟩

/-! TIM_TOLL_CTRL, R427: Toll enable, mode and width -/
def TIM_TOLL_CTRL.EN : Fld := ⟨.TIM_TOLL_CTRL, 0, 1, .rw, 0⟩
def TIM_TOLL_CTRL.PERIODIC : Fld := ⟨.TIM_TOLL_CTRL, 1, 1, .rw, 0⟩
def TIM_TOLL_CTRL.INVERT : Fld := ⟨.TIM_TOLL_CTRL, 2, 1, .rw, 0⟩
def TIM_TOLL_CTRL.WIDTH_NS : Fld := ⟨.TIM_TOLL_CTRL, 32, 29, .rw, 0⟩

/-! TIM_TOLL_START, R427: First edge time -/
def TIM_TOLL_START.NS : Fld := ⟨.TIM_TOLL_START, 0, 32, .rw, 0⟩
def TIM_TOLL_START.SEC_LO : Fld := ⟨.TIM_TOLL_START, 32, 32, .rw, 0⟩

/-! TIM_TOLL_PERIOD, R427: Period -/
def TIM_TOLL_PERIOD.PERIOD_NS : Fld := ⟨.TIM_TOLL_PERIOD, 0, 32, .rw, 0⟩

/-! TIM_TOLL_STAT, R427: State and counts -/
def TIM_TOLL_STAT.ARMED : Fld := ⟨.TIM_TOLL_STAT, 0, 1, .ro, 0⟩
def TIM_TOLL_STAT.LATE : Fld := ⟨.TIM_TOLL_STAT, 1, 1, .w1c, 0⟩
def TIM_TOLL_STAT.BAD : Fld := ⟨.TIM_TOLL_STAT, 2, 1, .w1c, 0⟩
def TIM_TOLL_STAT.SKIPPED : Fld := ⟨.TIM_TOLL_STAT, 16, 16, .rw, 0⟩
def TIM_TOLL_STAT.PULSES : Fld := ⟨.TIM_TOLL_STAT, 32, 32, .ro, 0⟩

/-! TIM_Q_LAT, R427: Timestamp corrections -/
def TIM_Q_LAT.TX_LAT : Fld := ⟨.TIM_Q_LAT, 0, 16, .rw, 0⟩
def TIM_Q_LAT.RX_LAT : Fld := ⟨.TIM_Q_LAT, 16, 16, .rw, 0⟩

/-! TIM_Q_RXRING, R427: Timing rings -/
def TIM_Q_RXRING.LOG2 : Fld := ⟨.TIM_Q_RXRING, 0, 4, .rw, 0⟩
def TIM_Q_RXRING.ADDR : Fld := ⟨.TIM_Q_RXRING, 12, 52, .rw, 0⟩

/-! TIM_Q_TXRING, R427: Timing rings -/
def TIM_Q_TXRING.LOG2 : Fld := ⟨.TIM_Q_TXRING, 0, 4, .rw, 0⟩
def TIM_Q_TXRING.ADDR : Fld := ⟨.TIM_Q_TXRING, 12, 52, .rw, 0⟩

/-! TIM_Q_RXIDX, R427: Ring indices -/
def TIM_Q_RXIDX.PROD : Fld := ⟨.TIM_Q_RXIDX, 0, 16, .ro, 0⟩
def TIM_Q_RXIDX.CONS : Fld := ⟨.TIM_Q_RXIDX, 16, 16, .rw, 0⟩

/-! TIM_Q_TXIDX, R427: Ring indices -/
def TIM_Q_TXIDX.PROD : Fld := ⟨.TIM_Q_TXIDX, 0, 16, .rw, 0⟩
def TIM_Q_TXIDX.CONS : Fld := ⟨.TIM_Q_TXIDX, 16, 16, .ro, 0⟩

/-! TIM_Q_TS_HEAD, R427: Head of the timestamp queue -/
def TIM_Q_TS_HEAD.TS_ID : Fld := ⟨.TIM_Q_TS_HEAD, 0, 16, .ro, 0⟩
def TIM_Q_TS_HEAD.VALID : Fld := ⟨.TIM_Q_TS_HEAD, 16, 1, .ro, 0⟩
def TIM_Q_TS_HEAD.TIMING : Fld := ⟨.TIM_Q_TS_HEAD, 17, 1, .ro, 0⟩
def TIM_Q_TS_HEAD.NS : Fld := ⟨.TIM_Q_TS_HEAD, 32, 30, .ro, 0⟩

/-! TIM_Q_TS_SEC, R427: Seconds of the head -/
def TIM_Q_TS_SEC.SEC : Fld := ⟨.TIM_Q_TS_SEC, 0, 48, .ro, 0⟩
def TIM_Q_TS_SEC.FRAC : Fld := ⟨.TIM_Q_TS_SEC, 48, 16, .ro, 0⟩

/-! TIM_Q_TS_POP, R427: Removes the head -/
def TIM_Q_TS_POP.POP : Fld := ⟨.TIM_Q_TS_POP, 0, 1, .wo, 0⟩

/-! TIM_Q_TS_STAT, R427: Level and overflow -/
def TIM_Q_TS_STAT.LEVEL : Fld := ⟨.TIM_Q_TS_STAT, 0, 7, .ro, 0⟩
def TIM_Q_TS_STAT.OVF : Fld := ⟨.TIM_Q_TS_STAT, 8, 1, .w1c, 0⟩
def TIM_Q_TS_STAT.OVF_COUNT : Fld := ⟨.TIM_Q_TS_STAT, 32, 32, .rw, 0⟩

/-! TIM_Q_RXDROP, R427: Receive drops -/
def TIM_Q_RXDROP.RX_FULL : Fld := ⟨.TIM_Q_RXDROP, 0, 32, .rw, 0⟩
def TIM_Q_RXDROP.TOO_LONG : Fld := ⟨.TIM_Q_RXDROP, 32, 32, .rw, 0⟩

/-! WOR_CTRL, R459: Node, enable, dead-target time -/
def WOR_CTRL.NODE : Fld := ⟨.WOR_CTRL, 0, 12, .rw, 0⟩
def WOR_CTRL.EN : Fld := ⟨.WOR_CTRL, 12, 1, .rw, 0⟩
def WOR_CTRL.DEAD_US : Fld := ⟨.WOR_CTRL, 16, 24, .rw, 50⟩

/-! WOR_STATUS, R459: Incarnation, ports, dead nodes -/
def WOR_STATUS.INCARN : Fld := ⟨.WOR_STATUS, 0, 16, .ro, 0⟩
def WOR_STATUS.PORTS_UP : Fld := ⟨.WOR_STATUS, 16, 5, .ro, 0⟩
def WOR_STATUS.DEAD_NODES : Fld := ⟨.WOR_STATUS, 32, 13, .ro, 0⟩

/-! WOR_NODE_SEL, R459: Node selector -/
def WOR_NODE_SEL.NODE : Fld := ⟨.WOR_NODE_SEL, 0, 12, .rw, 0⟩

/-! WOR_NODE_ROUTE, R459: Port mask of the selected node -/
def WOR_NODE_ROUTE.PORTS : Fld := ⟨.WOR_NODE_ROUTE, 0, 16, .rw, 0⟩

/-! WOR_NODE_STATE, R459: State of the selected node -/
def WOR_NODE_STATE.DEAD : Fld := ⟨.WOR_NODE_STATE, 0, 1, .w1c, 0⟩
def WOR_NODE_STATE.ROUTED : Fld := ⟨.WOR_NODE_STATE, 1, 1, .ro, 0⟩
def WOR_NODE_STATE.PORT : Fld := ⟨.WOR_NODE_STATE, 4, 4, .ro, 0⟩
def WOR_NODE_STATE.OUTSTANDING : Fld := ⟨.WOR_NODE_STATE, 8, 11, .ro, 0⟩
def WOR_NODE_STATE.NEXT_SEQ : Fld := ⟨.WOR_NODE_STATE, 32, 32, .ro, 0⟩

/-! WOR_GEN, R459: Change count for the views -/
def WOR_GEN.GEN : Fld := ⟨.WOR_GEN, 0, 32, .ro, 0⟩

/-! WOR_WIN_ARG, R459: Window arguments -/
def WOR_WIN_ARG.ARG : Fld := ⟨.WOR_WIN_ARG, 0, 64, .rw, 0⟩

/-! WOR_WIN_CMD, R459: Window command -/
def WOR_WIN_CMD.OP : Fld := ⟨.WOR_WIN_CMD, 0, 4, .wo, 0⟩
def WOR_WIN_CMD.EXPORT : Fld := ⟨.WOR_WIN_CMD, 7, 1, .wo, 0⟩
def WOR_WIN_CMD.INDEX : Fld := ⟨.WOR_WIN_CMD, 8, 8, .wo, 0⟩
def WOR_WIN_CMD.OWNER : Fld := ⟨.WOR_WIN_CMD, 16, 11, .wo, 0⟩

/-! WOR_WIN_STATUS, R459: Last window command -/
def WOR_WIN_STATUS.BUSY : Fld := ⟨.WOR_WIN_STATUS, 0, 1, .ro, 0⟩
def WOR_WIN_STATUS.STATUS : Fld := ⟨.WOR_WIN_STATUS, 5, 4, .ro, 0⟩
def WOR_WIN_STATUS.CAUSE : Fld := ⟨.WOR_WIN_STATUS, 16, 8, .ro, 0⟩
def WOR_WIN_STATUS.CMD_LOST : Fld := ⟨.WOR_WIN_STATUS, 24, 1, .w1c, 0⟩

/-! WOR_INV_ARG, R459: Invalidate arguments -/
def WOR_INV_ARG.ARG : Fld := ⟨.WOR_INV_ARG, 0, 64, .rw, 0⟩

/-! WOR_INV_CMD, R459: Send -/
def WOR_INV_CMD.SEND : Fld := ⟨.WOR_INV_CMD, 0, 1, .wo, 0⟩

/-! WOR_INV_STATUS, R459: Last invalidate -/
def WOR_INV_STATUS.BUSY : Fld := ⟨.WOR_INV_STATUS, 0, 1, .ro, 0⟩
def WOR_INV_STATUS.STATUS : Fld := ⟨.WOR_INV_STATUS, 1, 4, .ro, 0⟩

/-! WOR_ATOM_TABLE, R459: Replay table use -/
def WOR_ATOM_TABLE.USED : Fld := ⟨.WOR_ATOM_TABLE, 0, 17, .ro, 0⟩
def WOR_ATOM_TABLE.BUSY_SENT : Fld := ⟨.WOR_ATOM_TABLE, 32, 32, .ro, 0⟩

/-! WOR_COUNTS_A, R459: DENIED, STRAY -/
def WOR_COUNTS_A.DENIED : Fld := ⟨.WOR_COUNTS_A, 0, 32, .rw, 0⟩
def WOR_COUNTS_A.STRAY : Fld := ⟨.WOR_COUNTS_A, 32, 32, .rw, 0⟩

/-! WOR_COUNTS_B, R459: DEAD_EVENTS, REORDER_DROP -/
def WOR_COUNTS_B.DEAD_EVENTS : Fld := ⟨.WOR_COUNTS_B, 0, 32, .rw, 0⟩
def WOR_COUNTS_B.REORDER_DROP : Fld := ⟨.WOR_COUNTS_B, 32, 32, .rw, 0⟩

/-! WOR_MERGE_MAX, R459: Largest merge occupancy and stall -/
def WOR_MERGE_MAX.OCCUPANCY : Fld := ⟨.WOR_MERGE_MAX, 0, 9, .rw, 0⟩
def WOR_MERGE_MAX.HOLD_NS : Fld := ⟨.WOR_MERGE_MAX, 16, 48, .rw, 0⟩

/-! WOR_WIN_SEL, R459: Window selector -/
def WOR_WIN_SEL.INDEX : Fld := ⟨.WOR_WIN_SEL, 0, 8, .rw, 0⟩
def WOR_WIN_SEL.EXPORT : Fld := ⟨.WOR_WIN_SEL, 8, 1, .rw, 0⟩
def WOR_WIN_SEL.OWNER : Fld := ⟨.WOR_WIN_SEL, 16, 11, .rw, 0⟩

/-! WOR_WIN_VIEW, R459: Selected window -/
def WOR_WIN_VIEW.VIEW : Fld := ⟨.WOR_WIN_VIEW, 0, 64, .ro, 0⟩

/-! WOR_P_CTRL, R461: Enable and fence threshold -/
def WOR_P_CTRL.EN : Fld := ⟨.WOR_P_CTRL, 0, 1, .rw, 1⟩
def WOR_P_CTRL.FENCE_THRESH : Fld := ⟨.WOR_P_CTRL, 8, 8, .rw, 16⟩

/-! WOR_P_STATE, R461: Port state -/
def WOR_P_STATE.STATE : Fld := ⟨.WOR_P_STATE, 0, 3, .ro, 0⟩

/-! WOR_P_TX, R461: Packets sent -/
def WOR_P_TX.COUNT : Fld := ⟨.WOR_P_TX, 0, 48, .ro, 0⟩

/-! WOR_P_RX, R461: Packets delivered -/
def WOR_P_RX.COUNT : Fld := ⟨.WOR_P_RX, 0, 48, .ro, 0⟩

/-! WOR_P_SEC, R461: INTEG, REPLAY -/
def WOR_P_SEC.INTEG : Fld := ⟨.WOR_P_SEC, 0, 32, .rw, 0⟩
def WOR_P_SEC.REPLAY : Fld := ⟨.WOR_P_SEC, 32, 32, .rw, 0⟩

/-! WOR_P_DROP, R461: MALFORMED, DUP -/
def WOR_P_DROP.MALFORMED : Fld := ⟨.WOR_P_DROP, 0, 32, .rw, 0⟩
def WOR_P_DROP.DUP : Fld := ⟨.WOR_P_DROP, 32, 32, .rw, 0⟩

/-! WOR_P_RESENT, R461: Resent packets and NACKs sent -/
def WOR_P_RESENT.RESENT : Fld := ⟨.WOR_P_RESENT, 0, 32, .rw, 0⟩
def WOR_P_RESENT.NACKS : Fld := ⟨.WOR_P_RESENT, 32, 32, .rw, 0⟩

/-! WOR_P_KEY, R461: Key updates and transmit counter -/
def WOR_P_KEY.UPDATES : Fld := ⟨.WOR_P_KEY, 0, 16, .ro, 0⟩
def WOR_P_KEY.TX_CTR : Fld := ⟨.WOR_P_KEY, 16, 48, .ro, 0⟩

/-! ERR_CTRL, R497: Probation thresholds -/
def ERR_CTRL.CE_LIMIT : Fld := ⟨.ERR_CTRL, 0, 16, .rw, 64⟩
def ERR_CTRL.PROBATION_H : Fld := ⟨.ERR_CTRL, 16, 8, .rw, 24⟩

/-! ERR_STATUS, R497: Next sequence and ring homes -/
def ERR_STATUS.NEXT_SEQ : Fld := ⟨.ERR_STATUS, 0, 48, .ro, 0⟩
def ERR_STATUS.RING_HOME : Fld := ⟨.ERR_STATUS, 48, 3, .ro, 0⟩
def ERR_STATUS.RING_MIRROR : Fld := ⟨.ERR_STATUS, 52, 3, .ro, 0⟩
def ERR_STATUS.MIRROR_OK : Fld := ⟨.ERR_STATUS, 55, 1, .ro, 0⟩

/-! ERR_RING_ACK, R497: Highest record consumed -/
def ERR_RING_ACK.ACK : Fld := ⟨.ERR_RING_ACK, 0, 48, .rw, 0⟩

/-! ERR_RING_LOST, R497: Records overwritten before acknowledgement -/
def ERR_RING_LOST.COUNT : Fld := ⟨.ERR_RING_LOST, 0, 32, .rw, 0⟩

/-! ERR_RD_SEL, R497: Record selector -/
def ERR_RD_SEL.SEQ : Fld := ⟨.ERR_RD_SEL, 0, 48, .rw, 0⟩

/-! ERR_RD, R497: Word w of the selected record -/
def ERR_RD.WORD : Fld := ⟨.ERR_RD, 0, 64, .ro, 0⟩

/-! ERR_RECOVERY, R497: Running and queued recoveries -/
def ERR_RECOVERY.RUNNING : Fld := ⟨.ERR_RECOVERY, 0, 48, .ro, 0⟩
def ERR_RECOVERY.QUEUED : Fld := ⟨.ERR_RECOVERY, 48, 9, .ro, 0⟩
def ERR_RECOVERY.LEVEL : Fld := ⟨.ERR_RECOVERY, 57, 3, .ro, 0⟩

/-! ERR_HEALTH, R497: Package health -/
def ERR_HEALTH.STATE : Fld := ⟨.ERR_HEALTH, 0, 2, .ro, 0⟩
def ERR_HEALTH.SPARES : Fld := ⟨.ERR_HEALTH, 8, 8, .ro, 0⟩
def ERR_HEALTH.SUSPECT : Fld := ⟨.ERR_HEALTH, 16, 8, .ro, 0⟩
def ERR_HEALTH.PROBATION : Fld := ⟨.ERR_HEALTH, 24, 8, .ro, 0⟩
def ERR_HEALTH.RETIRED : Fld := ⟨.ERR_HEALTH, 32, 8, .ro, 0⟩
def ERR_HEALTH.ORPHANS : Fld := ⟨.ERR_HEALTH, 40, 11, .ro, 0⟩
def ERR_HEALTH.VACANT : Fld := ⟨.ERR_HEALTH, 52, 11, .ro, 0⟩

/-! ERR_CORE_SEL, R497: Site selector -/
def ERR_CORE_SEL.DIE : Fld := ⟨.ERR_CORE_SEL, 0, 3, .rw, 0⟩
def ERR_CORE_SEL.CLUSTER : Fld := ⟨.ERR_CORE_SEL, 3, 1, .rw, 0⟩
def ERR_CORE_SEL.SITE : Fld := ⟨.ERR_CORE_SEL, 4, 7, .rw, 0⟩

/-! ERR_CORE_STATE, R497: State of the selected site -/
def ERR_CORE_STATE.STATE : Fld := ⟨.ERR_CORE_STATE, 0, 3, .ro, 0⟩
def ERR_CORE_STATE.SPARE : Fld := ⟨.ERR_CORE_STATE, 3, 1, .ro, 0⟩
def ERR_CORE_STATE.PROB_LEFT_H : Fld := ⟨.ERR_CORE_STATE, 8, 8, .ro, 0⟩
def ERR_CORE_STATE.SAMPLES : Fld := ⟨.ERR_CORE_STATE, 32, 16, .ro, 0⟩
def ERR_CORE_STATE.CE_HOUR : Fld := ⟨.ERR_CORE_STATE, 48, 16, .ro, 0⟩

/-! ERR_COUNTS_A, R497: Records of levels 0–3 -/
def ERR_COUNTS_A.L0 : Fld := ⟨.ERR_COUNTS_A, 0, 16, .rw, 0⟩
def ERR_COUNTS_A.L1 : Fld := ⟨.ERR_COUNTS_A, 16, 16, .rw, 0⟩
def ERR_COUNTS_A.L2 : Fld := ⟨.ERR_COUNTS_A, 32, 16, .rw, 0⟩
def ERR_COUNTS_A.L3 : Fld := ⟨.ERR_COUNTS_A, 48, 16, .rw, 0⟩

/-! ERR_COUNTS_B, R497: Records of levels 4–5, escalations, unleveled records -/
def ERR_COUNTS_B.L4 : Fld := ⟨.ERR_COUNTS_B, 0, 16, .rw, 0⟩
def ERR_COUNTS_B.L5 : Fld := ⟨.ERR_COUNTS_B, 16, 16, .rw, 0⟩
def ERR_COUNTS_B.ESCALATED : Fld := ⟨.ERR_COUNTS_B, 32, 16, .rw, 0⟩
def ERR_COUNTS_B.NONE : Fld := ⟨.ERR_COUNTS_B, 48, 16, .rw, 0⟩

/-! ERR_GEN, R497: Change count for site states and health -/
def ERR_GEN.GEN : Fld := ⟨.ERR_GEN, 0, 32, .ro, 0⟩

/-! ERR_LAST, R497: Word w of the last record die d detected -/
def ERR_LAST.WORD : Fld := ⟨.ERR_LAST, 0, 64, .ro, 0⟩

/-! HST_VF_DOORBELL, R511: Doorbell: [15:0] local index, [63:16] producer sequence (R312) -/
def HST_VF_DOORBELL.LOCAL : Fld := ⟨.HST_VF_DOORBELL, 0, 16, .wo, 0⟩
def HST_VF_DOORBELL.P : Fld := ⟨.HST_VF_DOORBELL, 16, 48, .wo, 0⟩

/-! HST_VF_QSTAT, R511: Queue status word of local index i (R317) -/
def HST_VF_QSTAT.ACCEPTED : Fld := ⟨.HST_VF_QSTAT, 0, 48, .ro, 0⟩
def HST_VF_QSTAT.HELD : Fld := ⟨.HST_VF_QSTAT, 48, 1, .ro, 0⟩

/-! HST_VF_CLR_STATUS, R511: Clearing state and boot epoch -/
def HST_VF_CLR_STATUS.IMAGE : Fld := ⟨.HST_VF_CLR_STATUS, 0, 1, .ro, 0⟩
def HST_VF_CLR_STATUS.RESETTING : Fld := ⟨.HST_VF_CLR_STATUS, 1, 1, .ro, 0⟩
def HST_VF_CLR_STATUS.EPOCH : Fld := ⟨.HST_VF_CLR_STATUS, 32, 32, .ro, 0⟩

/-! HST_VF_ELAPSED, R511: Elapsed time of the current image -/
def HST_VF_ELAPSED.NS : Fld := ⟨.HST_VF_ELAPSED, 0, 64, .ro, 0⟩

/-! HST_VF_ENGINE, R511: Engine time -/
def HST_VF_ENGINE.CORE_NS : Fld := ⟨.HST_VF_ENGINE, 0, 64, .ro, 0⟩

/-! HST_VF_ND_COUNT, R511: Counted choices -/
def HST_VF_ND_COUNT.ORDER : Fld := ⟨.HST_VF_ND_COUNT, 0, 32, .ro, 0⟩
def HST_VF_ND_COUNT.ATOMIC : Fld := ⟨.HST_VF_ND_COUNT, 32, 32, .ro, 0⟩

/-! HST_VF_GROUP, R511: Resident time of image group g -/
def HST_VF_GROUP.NS : Fld := ⟨.HST_VF_GROUP, 0, 64, .ro, 0⟩

/-! HST_VF_IRQ_CTRL, R511: Completion interrupts -/
def HST_VF_IRQ_CTRL.EN : Fld := ⟨.HST_VF_IRQ_CTRL, 0, 4, .rw, 0⟩
def HST_VF_IRQ_CTRL.HOLDOFF_US : Fld := ⟨.HST_VF_IRQ_CTRL, 16, 16, .rw, 0⟩

/-! HST_VF_IRQ_PEND, R511: Pending completion interrupts -/
def HST_VF_IRQ_PEND.PEND : Fld := ⟨.HST_VF_IRQ_PEND, 0, 4, .w1c, 0⟩

/-! HST_CTRL, R523: Switch-over and IDE policy -/
def HST_CTRL.LINK_TMO_MS : Fld := ⟨.HST_CTRL, 0, 16, .rw, 10⟩
def HST_CTRL.AUTO_SWITCH : Fld := ⟨.HST_CTRL, 16, 1, .rw, 1⟩
def HST_CTRL.IDE_REQUIRED : Fld := ⟨.HST_CTRL, 17, 1, .rw, 0⟩

/-! HST_CMD, R523: Manual switch-over -/
def HST_CMD.CMD : Fld := ⟨.HST_CMD, 0, 2, .wo, 0⟩

/-! HST_PORT, R523: Port states and link -/
def HST_PORT.ACTIVE : Fld := ⟨.HST_PORT, 0, 1, .ro, 0⟩
def HST_PORT.STATE_A : Fld := ⟨.HST_PORT, 1, 3, .ro, 0⟩
def HST_PORT.STATE_B : Fld := ⟨.HST_PORT, 4, 3, .ro, 0⟩
def HST_PORT.WIDTH : Fld := ⟨.HST_PORT, 8, 5, .ro, 0⟩
def HST_PORT.SPEED : Fld := ⟨.HST_PORT, 16, 4, .ro, 0⟩
def HST_PORT.SWITCHES : Fld := ⟨.HST_PORT, 32, 32, .ro, 0⟩

/-! HST_EVENTS, R523: Event bits (Table 16.7) -/
def HST_EVENTS.ERROR : Fld := ⟨.HST_EVENTS, 0, 1, .w1c, 0⟩
def HST_EVENTS.IMAGE_LOAD : Fld := ⟨.HST_EVENTS, 1, 1, .w1c, 0⟩
def HST_EVENTS.TENANT_RESET : Fld := ⟨.HST_EVENTS, 2, 1, .w1c, 0⟩
def HST_EVENTS.PORT_SWITCH : Fld := ⟨.HST_EVENTS, 3, 1, .w1c, 0⟩
def HST_EVENTS.IDE_FAIL : Fld := ⟨.HST_EVENTS, 4, 1, .w1c, 0⟩
def HST_EVENTS.CMD_DONE : Fld := ⟨.HST_EVENTS, 5, 1, .w1c, 0⟩

/-! HST_EVENT_EN, R523: Event enables -/
def HST_EVENT_EN.ERROR : Fld := ⟨.HST_EVENT_EN, 0, 1, .rw, 1⟩
def HST_EVENT_EN.IMAGE_LOAD : Fld := ⟨.HST_EVENT_EN, 1, 1, .rw, 1⟩
def HST_EVENT_EN.TENANT_RESET : Fld := ⟨.HST_EVENT_EN, 2, 1, .rw, 1⟩
def HST_EVENT_EN.PORT_SWITCH : Fld := ⟨.HST_EVENT_EN, 3, 1, .rw, 1⟩
def HST_EVENT_EN.IDE_FAIL : Fld := ⟨.HST_EVENT_EN, 4, 1, .rw, 1⟩
def HST_EVENT_EN.CMD_DONE : Fld := ⟨.HST_EVENT_EN, 5, 1, .rw, 1⟩

/-! HST_POISON, R523: Poisoned transfers (R517) -/
def HST_POISON.COUNT : Fld := ⟨.HST_POISON, 0, 32, .rw, 0⟩

/-! HST_XLAT_FAULT, R523: Refused translations (R515) -/
def HST_XLAT_FAULT.COUNT : Fld := ⟨.HST_XLAT_FAULT, 0, 32, .rw, 0⟩

/-! HST_OUTSTANDING, R523: CXL.cache requests in flight -/
def HST_OUTSTANDING.READS : Fld := ⟨.HST_OUTSTANDING, 0, 12, .ro, 0⟩
def HST_OUTSTANDING.WRITES : Fld := ⟨.HST_OUTSTANDING, 16, 10, .ro, 0⟩

/-! HST_IDE, R523: IDE stream states and failures -/
def HST_IDE.IO_STATE : Fld := ⟨.HST_IDE, 0, 2, .ro, 0⟩
def HST_IDE.CACHE_STATE : Fld := ⟨.HST_IDE, 2, 2, .ro, 0⟩
def HST_IDE.FAILS : Fld := ⟨.HST_IDE, 32, 32, .rw, 0⟩

/-! MGT_STATUS, R550: Stage, recovery cause, running version -/
def MGT_STATUS.STAGE : Fld := ⟨.MGT_STATUS, 0, 4, .ro, 0⟩
def MGT_STATUS.RCV_CAUSE : Fld := ⟨.MGT_STATUS, 4, 3, .ro, 0⟩
def MGT_STATUS.FW_VERSION : Fld := ⟨.MGT_STATUS, 32, 32, .ro, 0⟩

/-! MGT_ELECT, R550: Elections -/
def MGT_ELECT.ROUND : Fld := ⟨.MGT_ELECT, 0, 16, .ro, 0⟩
def MGT_ELECT.CANDIDATES : Fld := ⟨.MGT_ELECT, 16, 8, .ro, 0⟩
def MGT_ELECT.LOST_CHIEF : Fld := ⟨.MGT_ELECT, 24, 1, .ro, 0⟩

/-! MGT_MBX_CMD, R550: Mailbox operation -/
def MGT_MBX_CMD.OP : Fld := ⟨.MGT_MBX_CMD, 0, 4, .wo, 0⟩

/-! MGT_MBX_ARG, R550: Arguments -/
def MGT_MBX_ARG.ARG : Fld := ⟨.MGT_MBX_ARG, 0, 64, .rw, 0⟩

/-! MGT_MBX_STATUS, R550: Last command -/
def MGT_MBX_STATUS.BUSY : Fld := ⟨.MGT_MBX_STATUS, 0, 1, .ro, 0⟩
def MGT_MBX_STATUS.STATUS : Fld := ⟨.MGT_MBX_STATUS, 5, 4, .ro, 0⟩
def MGT_MBX_STATUS.CAUSE : Fld := ⟨.MGT_MBX_STATUS, 16, 8, .ro, 0⟩
def MGT_MBX_STATUS.CMD_LOST : Fld := ⟨.MGT_MBX_STATUS, 24, 1, .w1c, 0⟩
def MGT_MBX_STATUS.CMD_SEQ : Fld := ⟨.MGT_MBX_STATUS, 48, 16, .ro, 0⟩

/-! MGT_RCV_CMD, R550: Recovery push -/
def MGT_RCV_CMD.OP : Fld := ⟨.MGT_RCV_CMD, 0, 2, .wo, 0⟩
def MGT_RCV_CMD.TARGET : Fld := ⟨.MGT_RCV_CMD, 2, 1, .wo, 0⟩
def MGT_RCV_CMD.LEN : Fld := ⟨.MGT_RCV_CMD, 16, 16, .wo, 0⟩

/-! MGT_RCV_STATUS, R550: Recovery progress -/
def MGT_RCV_STATUS.BUSY : Fld := ⟨.MGT_RCV_STATUS, 0, 1, .ro, 0⟩
def MGT_RCV_STATUS.RESULT : Fld := ⟨.MGT_RCV_STATUS, 1, 4, .ro, 0⟩
def MGT_RCV_STATUS.OFFSET : Fld := ⟨.MGT_RCV_STATUS, 32, 32, .ro, 0⟩

/-! MGT_I3C, R550: I3C and MCTP addresses -/
def MGT_I3C.DYN_ADDR : Fld := ⟨.MGT_I3C, 0, 7, .ro, 0⟩
def MGT_I3C.EID : Fld := ⟨.MGT_I3C, 8, 8, .ro, 0⟩

/-! SEC_CTRL, R550: Key lock -/
def SEC_CTRL.LOCK : Fld := ⟨.SEC_CTRL, 0, 1, .rwl, 0⟩

/-! SEC_STATE, R550: Identity and debug -/
def SEC_STATE.IDENTITY_READY : Fld := ⟨.SEC_STATE, 0, 1, .ro, 0⟩
def SEC_STATE.DEBUG : Fld := ⟨.SEC_STATE, 1, 1, .ro, 0⟩
def SEC_STATE.STATE_FRESH : Fld := ⟨.SEC_STATE, 2, 1, .ro, 0⟩
def SEC_STATE.FW_FLOOR : Fld := ⟨.SEC_STATE, 32, 32, .ro, 0⟩

/-! SEC_DSN, R550: Serial number (R538) -/
def SEC_DSN.VALUE : Fld := ⟨.SEC_DSN, 0, 64, .ro, 0⟩

/-! SEC_NONCE, R550: Unlock nonce -/
def SEC_NONCE.VALUE : Fld := ⟨.SEC_NONCE, 0, 64, .ro, 0⟩

/-! SEC_KEY_SEL, R550: Slot selector -/
def SEC_KEY_SEL.SLOT : Fld := ⟨.SEC_KEY_SEL, 0, 3, .rw, 0⟩

/-! SEC_KEY_VIEW, R550: KEY_ID of the slot -/
def SEC_KEY_VIEW.KEY_ID : Fld := ⟨.SEC_KEY_VIEW, 0, 64, .ro, 0⟩

/-! SEC_KEY_FLOOR, R550: Floor of the slot -/
def SEC_KEY_FLOOR.FLOOR : Fld := ⟨.SEC_KEY_FLOOR, 0, 32, .ro, 0⟩
def SEC_KEY_FLOOR.VALID : Fld := ⟨.SEC_KEY_FLOOR, 32, 1, .ro, 0⟩
def SEC_KEY_FLOOR.FIXED : Fld := ⟨.SEC_KEY_FLOOR, 33, 1, .ro, 0⟩

/-! SEC_LOADLOG, R550: Entries in the load log -/
def SEC_LOADLOG.ENTRIES : Fld := ⟨.SEC_LOADLOG, 0, 32, .ro, 0⟩

/-! SEC_IMG_SEL, R550: Owner selector -/
def SEC_IMG_SEL.OWNER : Fld := ⟨.SEC_IMG_SEL, 0, 11, .rw, 0⟩

/-! SEC_IMG_ID, R550: Image of the owner -/
def SEC_IMG_ID.LOAD_SEQ : Fld := ⟨.SEC_IMG_ID, 0, 32, .ro, 0⟩
def SEC_IMG_ID.VALID : Fld := ⟨.SEC_IMG_ID, 32, 1, .ro, 0⟩
def SEC_IMG_ID.SLOT : Fld := ⟨.SEC_IMG_ID, 33, 3, .ro, 0⟩

/-! SEC_IMG_D, R550: Bytes 8w to 8w + 7 of its D -/
def SEC_IMG_D.D : Fld := ⟨.SEC_IMG_D, 0, 64, .ro, 0⟩

/-! SEC_GEN, R550: Change count -/
def SEC_GEN.GEN : Fld := ⟨.SEC_GEN, 0, 32, .ro, 0⟩

/-! DIE_STATE, R550: Stage and role of the die -/
def DIE_STATE.STAGE : Fld := ⟨.DIE_STATE, 0, 4, .ro, 0⟩
def DIE_STATE.CANDIDATE : Fld := ⟨.DIE_STATE, 4, 1, .ro, 0⟩
def DIE_STATE.CHIEF : Fld := ⟨.DIE_STATE, 5, 1, .ro, 0⟩
def DIE_STATE.PUF_OK : Fld := ⟨.DIE_STATE, 6, 1, .ro, 0⟩

/-! DIE_FW, R550: Image verified by the die -/
def DIE_FW.VERSION : Fld := ⟨.DIE_FW, 0, 32, .ro, 0⟩
def DIE_FW.SEC_VER : Fld := ⟨.DIE_FW, 32, 32, .ro, 0⟩

/-! DIE_HEARTBEAT, R550: Heartbeats -/
def DIE_HEARTBEAT.SENT : Fld := ⟨.DIE_HEARTBEAT, 0, 32, .ro, 0⟩
def DIE_HEARTBEAT.MISSED_MAX : Fld := ⟨.DIE_HEARTBEAT, 32, 8, .ro, 0⟩

/-! DIE_PINS, R550: Pin sets driven -/
def DIE_PINS.FLASH : Fld := ⟨.DIE_PINS, 0, 1, .ro, 0⟩
def DIE_PINS.I3C : Fld := ⟨.DIE_PINS, 1, 1, .ro, 0⟩

/-! GLB_PWR_CTRL, R573: Thresholds and power cap -/
def GLB_PWR_CTRL.THROTTLE_C : Fld := ⟨.GLB_PWR_CTRL, 0, 8, .rw, 88⟩
def GLB_PWR_CTRL.WARN_C : Fld := ⟨.GLB_PWR_CTRL, 8, 8, .rw, 85⟩
def GLB_PWR_CTRL.HBM_THROTTLE_C : Fld := ⟨.GLB_PWR_CTRL, 16, 8, .rw, 85⟩
def GLB_PWR_CTRL.PWR_LIMIT_W : Fld := ⟨.GLB_PWR_CTRL, 32, 11, .rw, 1900⟩

/-! GLB_PWR_STATUS, R573: Power, temperatures, throttling -/
def GLB_PWR_STATUS.POWER_W : Fld := ⟨.GLB_PWR_STATUS, 0, 11, .ro, 0⟩
def GLB_PWR_STATUS.DIE_MAX_C : Fld := ⟨.GLB_PWR_STATUS, 16, 8, .ro, 0⟩
def GLB_PWR_STATUS.HBM_MAX_C : Fld := ⟨.GLB_PWR_STATUS, 24, 8, .ro, 0⟩
def GLB_PWR_STATUS.THROTTLED : Fld := ⟨.GLB_PWR_STATUS, 32, 1, .ro, 0⟩
def GLB_PWR_STATUS.GLADE_THROTTLED : Fld := ⟨.GLB_PWR_STATUS, 33, 1, .ro, 0⟩
def GLB_PWR_STATUS.CAPPED : Fld := ⟨.GLB_PWR_STATUS, 34, 1, .ro, 0⟩

/-! GLB_PWR_EVENTS, R573: Events that drive ALERT_N -/
def GLB_PWR_EVENTS.WARN : Fld := ⟨.GLB_PWR_EVENTS, 0, 1, .w1c, 0⟩
def GLB_PWR_EVENTS.THROTTLE : Fld := ⟨.GLB_PWR_EVENTS, 1, 1, .w1c, 0⟩
def GLB_PWR_EVENTS.GLADE_THROTTLE : Fld := ⟨.GLB_PWR_EVENTS, 2, 1, .w1c, 0⟩
def GLB_PWR_EVENTS.POWER_CAP : Fld := ⟨.GLB_PWR_EVENTS, 3, 1, .w1c, 0⟩
def GLB_PWR_EVENTS.HBM_HOT : Fld := ⟨.GLB_PWR_EVENTS, 4, 1, .w1c, 0⟩

/-! GLB_PWR_THR_US, R573: Throttled time -/
def GLB_PWR_THR_US.THR_US : Fld := ⟨.GLB_PWR_THR_US, 0, 32, .rw, 0⟩
def GLB_PWR_THR_US.GLADE_US : Fld := ⟨.GLB_PWR_THR_US, 32, 32, .rw, 0⟩

/-! GLB_PWR_RESET, R573: Last reset -/
def GLB_PWR_RESET.CAUSE : Fld := ⟨.GLB_PWR_RESET, 0, 2, .ro, 0⟩
def GLB_PWR_RESET.HBM_LOST : Fld := ⟨.GLB_PWR_RESET, 2, 1, .ro, 0⟩
def GLB_PWR_RESET.WARM_COUNT : Fld := ⟨.GLB_PWR_RESET, 32, 32, .ro, 0⟩

/-! DIE_THERM, R573: Quadrant q -/
def DIE_THERM.TEMP : Fld := ⟨.DIE_THERM, 0, 8, .ro, 0⟩
def DIE_THERM.K : Fld := ⟨.DIE_THERM, 8, 5, .ro, 16⟩
def DIE_THERM.GLADE_K : Fld := ⟨.DIE_THERM, 16, 5, .ro, 16⟩

/-! DIE_THERM_DC, R573: Die-common sensor and die temperature -/
def DIE_THERM_DC.TEMP : Fld := ⟨.DIE_THERM_DC, 0, 8, .ro, 0⟩
def DIE_THERM_DC.DIE_C : Fld := ⟨.DIE_THERM_DC, 8, 8, .ro, 0⟩

/-! DIE_RAIL, R573: Rail monitor -/
def DIE_RAIL.MV : Fld := ⟨.DIE_RAIL, 0, 13, .ro, 0⟩
def DIE_RAIL.DA : Fld := ⟨.DIE_RAIL, 16, 16, .ro, 0⟩
def DIE_RAIL.STATE : Fld := ⟨.DIE_RAIL, 32, 2, .ro, 0⟩

end R

/-- The fields of a register, in the order of the spec's table. -/
def RegName.fields : RegName → List Fld
  | .ZIU_CTRL => [R.ZIU_CTRL.PORT_EN 0, R.ZIU_CTRL.PORT_EN 1, R.ZIU_CTRL.PORT_EN 2]
  | .ZIU_ROUTE => [R.ZIU_ROUTE.ORDER 0, R.ZIU_ROUTE.ORDER 1, R.ZIU_ROUTE.ORDER 2, R.ZIU_ROUTE.ORDER 3, R.ZIU_ROUTE.ORDER 4, R.ZIU_ROUTE.ORDER 5, R.ZIU_ROUTE.ORDER 6, R.ZIU_ROUTE.ORDER 7, R.ZIU_ROUTE.REACH 0, R.ZIU_ROUTE.REACH 1, R.ZIU_ROUTE.REACH 2, R.ZIU_ROUTE.REACH 3, R.ZIU_ROUTE.REACH 4, R.ZIU_ROUTE.REACH 5, R.ZIU_ROUTE.REACH 6, R.ZIU_ROUTE.REACH 7]
  | .ZIU_VC1_RESERVE => [R.ZIU_VC1_RESERVE.RES 0, R.ZIU_VC1_RESERVE.RES 1, R.ZIU_VC1_RESERVE.RES 2]
  | .ZIU_PORT_STATE => [R.ZIU_PORT_STATE.STATE, R.ZIU_PORT_STATE.PARTNER]
  | .ZIU_PORT_RETRY => [R.ZIU_PORT_RETRY.COUNT]
  | .ZIU_ROUTE_GEN => [R.ZIU_ROUTE_GEN.GEN]
  | .GLB_PART => [R.GLB_PART.DEVICE_DIGIT, R.GLB_PART.DEVICE_LETTER, R.GLB_PART.STEP_LETTER, R.GLB_PART.STEP_NUMBER, R.GLB_PART.FAMILY]
  | .GLB_SHAPE => [R.GLB_SHAPE.DIES, R.GLB_SHAPE.CLUSTERS, R.GLB_SHAPE.ROWS, R.GLB_SHAPE.PHYS_COLS, R.GLB_SHAPE.LOG_COLS, R.GLB_SHAPE.QUADRANTS, R.GLB_SHAPE.STACKS, R.GLB_SHAPE.QUADS]
  | .GLB_DIE_STATE => [R.GLB_DIE_STATE.DIE 0, R.GLB_DIE_STATE.DIE 1, R.GLB_DIE_STATE.DIE 2, R.GLB_DIE_STATE.DIE 3, R.GLB_DIE_STATE.DIE 4, R.GLB_DIE_STATE.DIE 5, R.GLB_DIE_STATE.DIE 6, R.GLB_DIE_STATE.DIE 7, R.GLB_DIE_STATE.CHIEF, R.GLB_DIE_STATE.DEGRADED]
  | .GLB_CAPACITY => [R.GLB_CAPACITY.CORES, R.GLB_CAPACITY.CLUSTERS, R.GLB_CAPACITY.DIES, R.GLB_CAPACITY.STACKS, R.GLB_CAPACITY.QUADS, R.GLB_CAPACITY.FEC]
  | .GLB_CAP_GEN => [R.GLB_CAP_GEN.GEN]
  | .TNS_CFG => [R.TNS_CFG.SHAPE, R.TNS_CFG.ENG_ROW, R.TNS_CFG.ENG_COL, R.TNS_CFG.ANCHOR, R.TNS_CFG.IN_FIELD]
  | .TNS_STATE => [R.TNS_STATE.BANK0, R.TNS_STATE.BANK1, R.TNS_STATE.REC, R.TNS_STATE.HOLD, R.TNS_STATE.DRAINED, R.TNS_STATE.STOPPED]
  | .TNS_PASS_COUNT => [R.TNS_PASS_COUNT.COUNT]
  | .TNS_ERR => [R.TNS_ERR.GRANULE_ALIGN, R.TNS_ERR.LOAD_ORDER, R.TNS_ERR.LANE_PARITY]
  | .TNS_ROWMASK => [R.TNS_ROWMASK.ROWS]
  | .TNS_COLMASK => [R.TNS_COLMASK.COLS]
  | .TNS_PASSREC => [R.TNS_PASSREC.NEXT, R.TNS_PASSREC.VALID]
  | .TNS_FIELDMAP => [R.TNS_FIELDMAP.SHAPE 0, R.TNS_FIELDMAP.SHAPE 1, R.TNS_FIELDMAP.SHAPE 2, R.TNS_FIELDMAP.SHAPE 3, R.TNS_FIELDMAP.SHAPE 4, R.TNS_FIELDMAP.SHAPE 5, R.TNS_FIELDMAP.SHAPE 6, R.TNS_FIELDMAP.SHAPE 7, R.TNS_FIELDMAP.USED 0, R.TNS_FIELDMAP.USED 1, R.TNS_FIELDMAP.USED 2, R.TNS_FIELDMAP.USED 3, R.TNS_FIELDMAP.USED 4, R.TNS_FIELDMAP.USED 5, R.TNS_FIELDMAP.USED 6, R.TNS_FIELDMAP.USED 7]
  | .TNS_ROUTE => [R.TNS_ROUTE.EXCL_COL, R.TNS_ROUTE.SOUTH 0, R.TNS_ROUTE.SOUTH 1, R.TNS_ROUTE.SOUTH 2, R.TNS_ROUTE.SOUTH 3, R.TNS_ROUTE.SOUTH 4, R.TNS_ROUTE.SOUTH 5, R.TNS_ROUTE.SOUTH 6, R.TNS_ROUTE.SOUTH 7, R.TNS_ROUTE.ACTIVE]
  | .TNS_ROUTE_GEN => [R.TNS_ROUTE_GEN.GEN]
  | .COR_NUMCFG => [R.COR_NUMCFG.FORMAT, R.COR_NUMCFG.SLICE, R.COR_NUMCFG.OUT_FMT, R.COR_NUMCFG.ROUND, R.COR_NUMCFG.SAT, R.COR_NUMCFG.ARRIVAL, R.COR_NUMCFG.DETERMINISM]
  | .COR_SR_SEED => [R.COR_SR_SEED.SEED]
  | .COR_NUM_STICKY => [R.COR_NUM_STICKY.COUNT]
  | .COR_NUM_SPECIAL => [R.COR_NUM_SPECIAL.COUNT]
  | .VEC_COMB_CFG => [R.VEC_COMB_CFG.BASE, R.VEC_COMB_CFG.SIZE]
  | .VEC_STATE => [R.VEC_STATE.BUSY, R.VEC_STATE.STOPPED, R.VEC_STATE.COMB_USED]
  | .VEC_ERR => [R.VEC_ERR.COMB_PLAN, R.VEC_ERR.TABLE_INVALID, R.VEC_ERR.ECC_UNCORR]
  | .VEC_ECC_CORR => [R.VEC_ECC_CORR.COUNT]
  | .VEC_FTAB_GEN => [R.VEC_FTAB_GEN.SET]
  | .VEC_FTAB => [R.VEC_FTAB.KIND, R.VEC_FTAB.FUNC, R.VEC_FTAB.MAX_ERR_ULP]
  | .SIG_MODE => [R.SIG_MODE.FRAC, R.SIG_MODE.SAT_ACC, R.SIG_MODE.SAT_STORE, R.SIG_MODE.ROUND, R.SIG_MODE.SHIFT]
  | .SIG_STATE => [R.SIG_STATE.PC, R.SIG_STATE.RUNNING, R.SIG_STATE.STOPPED, R.SIG_STATE.WAIT]
  | .SIG_STATUS => [R.SIG_STATUS.ACC_OVF, R.SIG_STATUS.STORE_SAT, R.SIG_STATUS.ECC_UNCORR]
  | .SIG_ACC => [R.SIG_ACC.ACC, R.SIG_ACC.ACC_SX]
  | .SIG_ECC_CORR => [R.SIG_ECC_CORR.COUNT]
  | .SIG_BASE => [R.SIG_BASE.BASE]
  | .SIG_LEN => [R.SIG_LEN.LEN]
  | .SIG_INDEX => [R.SIG_INDEX.INDEX]
  | .SIG_STEP => [R.SIG_STEP.STEP]
  | .FEC_CTRL => [R.FEC_CTRL.ENABLE, R.FEC_CTRL.IN_SERVICE]
  | .FEC_STATE => [R.FEC_STATE.DEC0_BUSY, R.FEC_STATE.DEC1_BUSY, R.FEC_STATE.ENC_BUSY, R.FEC_STATE.DEC_QUEUE, R.FEC_STATE.ENC_QUEUE]
  | .FEC_ERR => [R.FEC_ERR.DESC_FORMAT, R.FEC_ERR.ECC_UNCORR]
  | .FEC_DEC_BLOCKS => [R.FEC_DEC_BLOCKS.COUNT]
  | .FEC_DEC_ITERS => [R.FEC_DEC_ITERS.COUNT]
  | .FEC_DEC_FAIL => [R.FEC_DEC_FAIL.COUNT]
  | .FEC_ENC_BLOCKS => [R.FEC_ENC_BLOCKS.COUNT]
  | .FEC_EXPIRED => [R.FEC_EXPIRED.COUNT]
  | .FEC_ECC_CORR => [R.FEC_ECC_CORR.COUNT]
  | .STR_SITE => [R.STR_SITE.OWNER, R.STR_SITE.BYPASS]
  | .STR_STATE => [R.STR_STATE.IN_WAIT 0, R.STR_STATE.IN_WAIT 1, R.STR_STATE.IN_WAIT 2, R.STR_STATE.IN_WAIT 3, R.STR_STATE.IN_WAIT 4, R.STR_STATE.IN_WAIT 5, R.STR_STATE.IN_WAIT 6, R.STR_STATE.IN_WAIT 7, R.STR_STATE.OUT_WAIT 0, R.STR_STATE.OUT_WAIT 1, R.STR_STATE.OUT_WAIT 2, R.STR_STATE.OUT_WAIT 3, R.STR_STATE.OUT_WAIT 4, R.STR_STATE.OUT_WAIT 5, R.STR_STATE.OUT_WAIT 6, R.STR_STATE.OUT_WAIT 7, R.STR_STATE.SIG_IN_WAIT 0, R.STR_STATE.SIG_IN_WAIT 1, R.STR_STATE.SIG_OUT_WAIT 0, R.STR_STATE.SIG_OUT_WAIT 1]
  | .STR_ERR => [R.STR_ERR.DATA_UNCORR, R.STR_ERR.TAG_UNCORR, R.STR_ERR.NO_ROUTE, R.STR_ERR.STATUS_CLASS, R.STR_ERR.EXP_MISSING]
  | .STR_ECC_CORR => [R.STR_ECC_CORR.COUNT]
  | .STR_RT_SEL => [R.STR_RT_SEL.STREAM]
  | .STR_RT_ENTRY => [R.STR_RT_ENTRY.OUT, R.STR_RT_ENTRY.PORT, R.STR_RT_ENTRY.GLADE, R.STR_RT_ENTRY.RES]
  | .STR_IN => [R.STR_IN.STREAM, R.STR_IN.BOUND, R.STR_IN.DEPTH_LOG2, R.STR_IN.LEVEL]
  | .STR_OUT => [R.STR_OUT.STREAM, R.STR_OUT.BOUND, R.STR_OUT.DEPTH_LOG2, R.STR_OUT.CREDITS]
  | .STR_SIG_IN => [R.STR_SIG_IN.STREAM, R.STR_SIG_IN.BOUND, R.STR_SIG_IN.DEPTH_LOG2, R.STR_SIG_IN.LEVEL]
  | .STR_SIG_OUT => [R.STR_SIG_OUT.STREAM, R.STR_SIG_OUT.BOUND, R.STR_SIG_OUT.DEPTH_LOG2, R.STR_SIG_OUT.CREDITS]
  | .STR_LINK_SEL => [R.STR_LINK_SEL.SITE, R.STR_LINK_SEL.DIR]
  | .STR_LINK_ENTRY => [R.STR_LINK_ENTRY.RES_GLADE, R.STR_LINK_ENTRY.RES_OTHER, R.STR_LINK_ENTRY.PRESENT]
  | .STR_CL_ECC_CORR => [R.STR_CL_ECC_CORR.COUNT]
  | .STR_ROUTE_GEN => [R.STR_ROUTE_GEN.GEN]
  | .MOV_STATE => [R.MOV_STATE.IDLE, R.MOV_STATE.QUEUED, R.MOV_STATE.SLOTS, R.MOV_STATE.PARKED, R.MOV_STATE.FABRIC]
  | .MOV_ERR => [R.MOV_ERR.DESC_FORMAT, R.MOV_ERR.READ_UNCORR, R.MOV_ERR.CS_UNCORR]
  | .MOV_CS_ECC_CORR => [R.MOV_CS_ECC_CORR.COUNT]
  | .MOV_DESC_COUNT => [R.MOV_DESC_COUNT.COUNT]
  | .MOV_LIMITS => [R.MOV_LIMITS.SLOTS, R.MOV_LIMITS.BG_CAP, R.MOV_LIMITS.PARK, R.MOV_LIMITS.DESC_Q, R.MOV_LIMITS.FABRIC]
  | .CLU_STATE => [R.CLU_STATE.IN_SERVICE]
  | .CLU_ERR => [R.CLU_ERR.UNCORR]
  | .CLU_ECC_CORR => [R.CLU_ECC_CORR.COUNT]
  | .CLU_OWN_SEL => [R.CLU_OWN_SEL.BLOCK]
  | .CLU_OWN_ENTRY => [R.CLU_OWN_ENTRY.OWNER, R.CLU_OWN_ENTRY.ASSIGNED, R.CLU_OWN_ENTRY.GLADE]
  | .CLU_OWN_GEN => [R.CLU_OWN_GEN.GEN]
  | .HBM_STATE => [R.HBM_STATE.IN_SERVICE, R.HBM_STATE.SELF_REFRESH, R.HBM_STATE.TEMP]
  | .HBM_ERR => [R.HBM_ERR.UNCORR, R.HBM_ERR.SCRUB_UNCORR, R.HBM_ERR.TRAIN_FAIL]
  | .HBM_ECC_CORR => [R.HBM_ECC_CORR.COUNT]
  | .HBM_ECC_UNCORR => [R.HBM_ECC_UNCORR.COUNT]
  | .HBM_RESERVE => [R.HBM_RESERVE.RES]
  | .HBM_SCRUB => [R.HBM_SCRUB.PERIOD]
  | .HBM_SCRUB_POS => [R.HBM_SCRUB_POS.LINE]
  | .HBM_LC_CTRL => [R.HBM_LC_CTRL.PF_EN, R.HBM_LC_CTRL.PF_DIST, R.HBM_LC_CTRL.GLADE_WAYS]
  | .HBM_LC_STATE => [R.HBM_LC_STATE.IN_SERVICE, R.HBM_LC_STATE.DIRTY]
  | .HBM_LC_ERR => [R.HBM_LC_ERR.DIRTY_UNCORR]
  | .HBM_LC_ECC_CORR => [R.HBM_LC_ECC_CORR.COUNT]
  | .HBM_LC_PF_DROP => [R.HBM_LC_PF_DROP.COUNT]
  | .HBM_XT_SEL => [R.HBM_XT_SEL.OWNER, R.HBM_XT_SEL.INDEX]
  | .HBM_XT_MAP => [R.HBM_XT_MAP.CL_PAGE, R.HBM_XT_MAP.VALID, R.HBM_XT_MAP.WRITE]
  | .HBM_XT_DEV => [R.HBM_XT_DEV.DEV_PAGE, R.HBM_XT_DEV.PAGES]
  | .HBM_XT_GEN => [R.HBM_XT_GEN.GEN]
  | .GLB_IMG_SRC => [R.GLB_IMG_SRC.ADDR]
  | .GLB_IMG_LEN => [R.GLB_IMG_LEN.LEN]
  | .GLB_IMG_TARGET => [R.GLB_IMG_TARGET.OWNER, R.GLB_IMG_TARGET.MODE]
  | .GLB_IMG_ACT_TIME => [R.GLB_IMG_ACT_TIME.NS, R.GLB_IMG_ACT_TIME.SEC_LO]
  | .GLB_IMG_DRAIN => [R.GLB_IMG_DRAIN.LIMIT_US]
  | .GLB_IMG_CMD => [R.GLB_IMG_CMD.CMD]
  | .GLB_IMG_STATUS => [R.GLB_IMG_STATUS.BUSY, R.GLB_IMG_STATUS.PHASE, R.GLB_IMG_STATUS.STATUS, R.GLB_IMG_STATUS.REASON, R.GLB_IMG_STATUS.START_LOST, R.GLB_IMG_STATUS.LOAD_SEQ]
  | .GLB_IMG_DETAIL => [R.GLB_IMG_DETAIL.SEC, R.GLB_IMG_DETAIL.DIE, R.GLB_IMG_DETAIL.CLUSTER, R.GLB_IMG_DETAIL.SITE, R.GLB_IMG_DETAIL.DIR, R.GLB_IMG_DETAIL.NEED, R.GLB_IMG_DETAIL.AVAIL]
  | .GLB_IMG_ERR_SEQ => [R.GLB_IMG_ERR_SEQ.SEQ]
  | .GLB_IMG_WINDOW => [R.GLB_IMG_WINDOW.LONGEST_NS]
  | .GLB_IMG_COUNTS => [R.GLB_IMG_COUNTS.DONE, R.GLB_IMG_COUNTS.REFUSED, R.GLB_IMG_COUNTS.FAILED, R.GLB_IMG_COUNTS.CANCELLED]
  | .GLB_DET_SEL => [R.GLB_DET_SEL.OWNER]
  | .GLB_DET_SIG_A => [R.GLB_DET_SIG_A.STEPPING, R.GLB_DET_SIG_A.FW_VERSION, R.GLB_DET_SIG_A.NUMCFG, R.GLB_DET_SIG_A.VALID]
  | .GLB_DET_SIG_B => [R.GLB_DET_SIG_B.SEED]
  | .GLB_DET_ND_COUNT => [R.GLB_DET_ND_COUNT.ORDER, R.GLB_DET_ND_COUNT.ATOMIC]
  | .GLB_DET_GEN => [R.GLB_DET_GEN.GEN]
  | .GLB_DET_BAR_TARGET => [R.GLB_DET_BAR_TARGET.OWNER]
  | .GLB_DET_BAR_TIME => [R.GLB_DET_BAR_TIME.NS, R.GLB_DET_BAR_TIME.SEC_LO]
  | .GLB_DET_BAR_CMD => [R.GLB_DET_BAR_CMD.CMD]
  | .GLB_DET_BAR_STATUS => [R.GLB_DET_BAR_STATUS.STATE, R.GLB_DET_BAR_STATUS.ARM_REFUSED, R.GLB_DET_BAR_STATUS.OWNER, R.GLB_DET_BAR_STATUS.CAUSE, R.GLB_DET_BAR_STATUS.LATE_NS]
  | .GLB_SENT_CTRL => [R.GLB_SENT_CTRL.RATE_LOG2, R.GLB_SENT_CTRL.GLADES, R.GLB_SENT_CTRL.PREFER_DIE]
  | .GLB_SENT_RUNS => [R.GLB_SENT_RUNS.COUNT]
  | .GLB_SENT_SKIPPED => [R.GLB_SENT_SKIPPED.COUNT]
  | .GLB_SENT_MISMATCH => [R.GLB_SENT_MISMATCH.COUNT]
  | .GLB_SENT_LAST => [R.GLB_SENT_LAST.SEQ, R.GLB_SENT_LAST.VERDICT, R.GLB_SENT_LAST.PENDING]
  | .GLB_SENT_ENV => [R.GLB_SENT_ENV.DIE, R.GLB_SENT_ENV.CLUSTER, R.GLB_SENT_ENV.SITE, R.GLB_SENT_ENV.TEMP, R.GLB_SENT_ENV.MV, R.GLB_SENT_ENV.MHZ, R.GLB_SENT_ENV.NEIGH, R.GLB_SENT_ENV.WRONG]
  | .SCH_CMD => [R.SCH_CMD.OP, R.SCH_CMD.OWNER]
  | .SCH_ARG => [R.SCH_ARG.ARG]
  | .SCH_CMD_STATUS => [R.SCH_CMD_STATUS.BUSY, R.SCH_CMD_STATUS.OP, R.SCH_CMD_STATUS.STATUS, R.SCH_CMD_STATUS.CAUSE, R.SCH_CMD_STATUS.CMD_LOST, R.SCH_CMD_STATUS.OWNER, R.SCH_CMD_STATUS.CMD_SEQ]
  | .SCH_POOL => [R.SCH_POOL.FREE_QUEUES, R.SCH_POOL.CLEARINGS, R.SCH_POOL.VFS_BOUND]
  | .SCH_VIOL_UNBOUND => [R.SCH_VIOL_UNBOUND.COUNT]
  | .SCH_TEN_GEN => [R.SCH_TEN_GEN.GEN]
  | .SCH_TEN_CFG => [R.SCH_TEN_CFG.STATE, R.SCH_TEN_CFG.CLASS, R.SCH_TEN_CFG.REACH, R.SCH_TEN_CFG.VF, R.SCH_TEN_CFG.NODE, R.SCH_TEN_CFG.IMAGE]
  | .SCH_TEN_BUDGET => [R.SCH_TEN_BUDGET.CORES, R.SCH_TEN_BUDGET.QUEUES, R.SCH_TEN_BUDGET.EXTENTS]
  | .SCH_TEN_SHARE => [R.SCH_TEN_SHARE.WEIGHT]
  | .SCH_TEN_DRAIN => [R.SCH_TEN_DRAIN.LIMIT_US]
  | .SCH_TEN_ENGINE => [R.SCH_TEN_ENGINE.CORE_NS]
  | .SCH_TEN_VIOL => [R.SCH_TEN_VIOL.MEM, R.SCH_TEN_VIOL.QUEUE, R.SCH_TEN_VIOL.REG, R.SCH_TEN_VIOL.STREAM]
  | .SCH_TEN_RESET => [R.SCH_TEN_RESET.DURATION_US, R.SCH_TEN_RESET.SQUASHED, R.SCH_TEN_RESET.SOURCE, R.SCH_TEN_RESET.CANCELLED]
  | .QUE_CMD => [R.QUE_CMD.OP, R.QUE_CMD.OWNER, R.QUE_CMD.LOCAL]
  | .QUE_ARG => [R.QUE_ARG.ARG]
  | .QUE_CMD_STATUS => [R.QUE_CMD_STATUS.BUSY, R.QUE_CMD_STATUS.OP, R.QUE_CMD_STATUS.STATUS, R.QUE_CMD_STATUS.CAUSE, R.QUE_CMD_STATUS.CMD_LOST, R.QUE_CMD_STATUS.OWNER, R.QUE_CMD_STATUS.CMD_SEQ]
  | .QUE_EPOCH => [R.QUE_EPOCH.EPOCH]
  | .QUE_SEL => [R.QUE_SEL.GLOBAL]
  | .QUE_VIEW_Q => [R.QUE_VIEW_Q.OWNER, R.QUE_VIEW_Q.MAPPED, R.QUE_VIEW_Q.LOCAL, R.QUE_VIEW_Q.HOME, R.QUE_VIEW_Q.MIRROR, R.QUE_VIEW_Q.HOLD, R.QUE_VIEW_Q.MSG_FED]
  | .QUE_VIEW_ACC => [R.QUE_VIEW_ACC.ACCEPTED, R.QUE_VIEW_ACC.DB_LAG]
  | .QUE_VIEW_COMMIT => [R.QUE_VIEW_COMMIT.COMMITTED, R.QUE_VIEW_COMMIT.MAP_GEN]
  | .QUE_VIEW_EMIT => [R.QUE_VIEW_EMIT.ITEM, R.QUE_VIEW_EMIT.INDEX]
  | .QUE_GEN => [R.QUE_GEN.GEN]
  | .QUE_POISON => [R.QUE_POISON.COUNT]
  | .QUE_FRAMES_LOST => [R.QUE_FRAMES_LOST.COUNT]
  | .QUE_JNL => [R.QUE_JNL.RECORDS, R.QUE_JNL.MIRROR, R.QUE_JNL.REBUILD, R.QUE_JNL.IN_SERVICE]
  | .SCH_CTRL => [R.SCH_CTRL.QUANTUM_US, R.SCH_CTRL.BLOCK_US, R.SCH_CTRL.URGENT_MS]
  | .SCH_LEND_CTRL => [R.SCH_LEND_CTRL.LEND_EN, R.SCH_LEND_CTRL.MIN_GAP_US, R.SCH_LEND_CTRL.RETURN_US]
  | .SCH_CL_SEL => [R.SCH_CL_SEL.CLUSTER, R.SCH_CL_SEL.OWNER]
  | .SCH_CL_VTIME => [R.SCH_CL_VTIME.VTIME]
  | .SCH_CL_TAG => [R.SCH_CL_TAG.TAG]
  | .SCH_CL_STATE => [R.SCH_CL_STATE.RESIDENT, R.SCH_CL_STATE.READY, R.SCH_CL_STATE.BLOCKED, R.SCH_CL_STATE.URGENT]
  | .SCH_CTX_SEL => [R.SCH_CTX_SEL.OWNER, R.SCH_CTX_SEL.CONTEXT]
  | .SCH_CTX_STATE => [R.SCH_CTX_STATE.RES, R.SCH_CTX_STATE.READY, R.SCH_CTX_STATE.BLOCKED, R.SCH_CTX_STATE.WAIT_CLASS, R.SCH_CTX_STATE.URGENT, R.SCH_CTX_STATE.BORROW, R.SCH_CTX_STATE.DIE, R.SCH_CTX_STATE.CLUSTER, R.SCH_CTX_STATE.ANCHOR, R.SCH_CTX_STATE.SHAPE, R.SCH_CTX_STATE.SLOT, R.SCH_CTX_STATE.PENDING]
  | .SCH_GEN => [R.SCH_GEN.GEN]
  | .SCH_PREEMPTS => [R.SCH_PREEMPTS.PREEMPT, R.SCH_PREEMPTS.EVICT]
  | .SCH_URGENT => [R.SCH_URGENT.COUNT]
  | .SCH_LENDS => [R.SCH_LENDS.COUNT]
  | .SCH_RETURN_MAX => [R.SCH_RETURN_MAX.LONGEST_NS, R.SCH_RETURN_MAX.OVER]
  | .RAD_CTRL => [R.RAD_CTRL.FRAME_OFFSET_NS, R.RAD_CTRL.ABSENT_SLOTS]
  | .RAD_CAPACITY => [R.RAD_CAPACITY.ENTRIES]
  | .RAD_ADMIT => [R.RAD_ADMIT.KIND, R.RAD_ADMIT.CLUSTER, R.RAD_ADMIT.LOAD_SEQ]
  | .RAD_CELL_SEL => [R.RAD_CELL_SEL.CELL]
  | .RAD_CELL_VIEW => [R.RAD_CELL_VIEW.OWNER, R.RAD_CELL_VIEW.ASSIGNED, R.RAD_CELL_VIEW.NEXT, R.RAD_CELL_VIEW.MOVING, R.RAD_CELL_VIEW.RU, R.RAD_CELL_VIEW.MU, R.RAD_CELL_VIEW.CLUSTER, R.RAD_CELL_VIEW.SWITCH]
  | .RAD_CELL_CNT => [R.RAD_CELL_CNT.ABSENT_ITEMS, R.RAD_CELL_CNT.ABSENCES, R.RAD_CELL_CNT.UNSENT]
  | .RAD_GLADE_SEL => [R.RAD_GLADE_SEL.OWNER]
  | .RAD_GLADE_VIEW => [R.RAD_GLADE_VIEW.MU, R.RAD_GLADE_VIEW.CELLS, R.RAD_GLADE_VIEW.ENTRIES]
  | .RAD_GLADE_DRUM => [R.RAD_GLADE_DRUM.LAST_M, R.RAD_GLADE_DRUM.SKIPPED]
  | .RAD_GLADE_FEC => [R.RAD_GLADE_FEC.OVER_DEC, R.RAD_GLADE_FEC.OVER_ENC]
  | .RAD_MOVE_ARG => [R.RAD_MOVE_ARG.CELL, R.RAD_MOVE_ARG.TO]
  | .RAD_MOVE_TIME => [R.RAD_MOVE_TIME.NS, R.RAD_MOVE_TIME.SEC_LO]
  | .RAD_MOVE_CMD => [R.RAD_MOVE_CMD.CMD]
  | .RAD_MOVE_STATUS => [R.RAD_MOVE_STATUS.BUSY, R.RAD_MOVE_STATUS.STATUS, R.RAD_MOVE_STATUS.CAUSE, R.RAD_MOVE_STATUS.CMD_LOST, R.RAD_MOVE_STATUS.CMD_SEQ]
  | .RAD_GEN => [R.RAD_GEN.GEN]
  | .RAD_FEC_USE => [R.RAD_FEC_USE.DEC, R.RAD_FEC_USE.ENC]
  | .RAD_Q_MODE => [R.RAD_Q_MODE.MODE]
  | .RAD_Q_LINK => [R.RAD_Q_LINK.STATE, R.RAD_Q_LINK.LANES]
  | .RAD_Q_MAC => [R.RAD_Q_MAC.MAC]
  | .RAD_Q_TXCFG => [R.RAD_Q_TXCFG.TX_LATE_NS, R.RAD_Q_TXCFG.GUARD_NS, R.RAD_Q_TXCFG.SAMPLE_NS]
  | .RAD_Q_DROP_A => [R.RAD_Q_DROP_A.MALFORMED, R.RAD_Q_DROP_A.SPOOFED]
  | .RAD_Q_DROP_B => [R.RAD_Q_DROP_B.POLICED, R.RAD_Q_DROP_B.EARLY]
  | .RAD_Q_DROP_C => [R.RAD_Q_DROP_C.LATE, R.RAD_Q_DROP_C.TX_DROP]
  | .RAD_Q_FLOW_SEL => [R.RAD_Q_FLOW_SEL.INDEX, R.RAD_Q_FLOW_SEL.EGRESS]
  | .RAD_Q_FLOW_KEY => [R.RAD_Q_FLOW_KEY.MAC, R.RAD_Q_FLOW_KEY.VLAN, R.RAD_Q_FLOW_KEY.PCP, R.RAD_Q_FLOW_KEY.VALID]
  | .RAD_Q_FLOW_MAP => [R.RAD_Q_FLOW_MAP.EAXC, R.RAD_Q_FLOW_MAP.OWNER, R.RAD_Q_FLOW_MAP.CELL, R.RAD_Q_FLOW_MAP.IQ_WIDTH, R.RAD_Q_FLOW_MAP.TC, R.RAD_Q_FLOW_MAP.N_PRB]
  | .RAD_Q_FLOW_POL => [R.RAD_Q_FLOW_POL.RATE_MBPS, R.RAD_Q_FLOW_POL.BURST_KB]
  | .RAD_Q_FLOW_WIN => [R.RAD_Q_FLOW_WIN.WIN_START_NS, R.RAD_Q_FLOW_WIN.WIN_END_NS]
  | .RAD_Q_FLOW_CNT => [R.RAD_Q_FLOW_CNT.ACCEPTED, R.RAD_Q_FLOW_CNT.DROPPED]
  | .RAD_Q_GEN => [R.RAD_Q_GEN.GEN]
  | .RAD_Q_CBS => [R.RAD_Q_CBS.IDLE_MBPS, R.RAD_Q_CBS.EN, R.RAD_Q_CBS.HI_BYTES]
  | .RAD_Q_GATE_CTRL => [R.RAD_Q_GATE_CTRL.EN, R.RAD_Q_GATE_CTRL.LEN]
  | .RAD_Q_GATE_BASE => [R.RAD_Q_GATE_BASE.NS, R.RAD_Q_GATE_BASE.SEC_LO]
  | .RAD_Q_GATE_CYCLE => [R.RAD_Q_GATE_CYCLE.CYCLE_NS]
  | .RAD_Q_DEPTH => [R.RAD_Q_DEPTH.LAST_BYTES, R.RAD_Q_DEPTH.MAX_BYTES]
  | .RAD_Q_DELAY => [R.RAD_Q_DELAY.LAST_NS, R.RAD_Q_DELAY.MAX_NS]
  | .RAD_Q_GCL => [R.RAD_Q_GCL.GATES, R.RAD_Q_GCL.INTERVAL_NS]
  | .TIM_STATUS => [R.TIM_STATUS.VALID, R.TIM_STATUS.REF_OK, R.TIM_STATUS.PPS_OK, R.TIM_STATUS.HOLDOVER, R.TIM_STATUS.MASTER, R.TIM_STATUS.STEPS]
  | .TIM_SNAP => [R.TIM_SNAP.SNAP]
  | .TIM_SNAP_SEC => [R.TIM_SNAP_SEC.SEC]
  | .TIM_SNAP_NS => [R.TIM_SNAP_NS.NS, R.TIM_SNAP_NS.FRAC]
  | .TIM_SET_SEC => [R.TIM_SET_SEC.SEC]
  | .TIM_SET_NS => [R.TIM_SET_NS.NS]
  | .TIM_STEP => [R.TIM_STEP.STEP_NS]
  | .TIM_ADJ_CMD => [R.TIM_ADJ_CMD.CMD]
  | .TIM_FREQ => [R.TIM_FREQ.FREQ]
  | .TIM_PPS_SEC => [R.TIM_PPS_SEC.SEC]
  | .TIM_PPS_NS => [R.TIM_PPS_NS.NS, R.TIM_PPS_NS.FRAC, R.TIM_PPS_NS.COUNT]
  | .TIM_SYNCE => [R.TIM_SYNCE.QUAD, R.TIM_SYNCE.LANE, R.TIM_SYNCE.EN, R.TIM_SYNCE.SQUELCHED]
  | .TIM_TOLL_CTRL => [R.TIM_TOLL_CTRL.EN, R.TIM_TOLL_CTRL.PERIODIC, R.TIM_TOLL_CTRL.INVERT, R.TIM_TOLL_CTRL.WIDTH_NS]
  | .TIM_TOLL_START => [R.TIM_TOLL_START.NS, R.TIM_TOLL_START.SEC_LO]
  | .TIM_TOLL_PERIOD => [R.TIM_TOLL_PERIOD.PERIOD_NS]
  | .TIM_TOLL_STAT => [R.TIM_TOLL_STAT.ARMED, R.TIM_TOLL_STAT.LATE, R.TIM_TOLL_STAT.BAD, R.TIM_TOLL_STAT.SKIPPED, R.TIM_TOLL_STAT.PULSES]
  | .TIM_Q_LAT => [R.TIM_Q_LAT.TX_LAT, R.TIM_Q_LAT.RX_LAT]
  | .TIM_Q_RXRING => [R.TIM_Q_RXRING.LOG2, R.TIM_Q_RXRING.ADDR]
  | .TIM_Q_TXRING => [R.TIM_Q_TXRING.LOG2, R.TIM_Q_TXRING.ADDR]
  | .TIM_Q_RXIDX => [R.TIM_Q_RXIDX.PROD, R.TIM_Q_RXIDX.CONS]
  | .TIM_Q_TXIDX => [R.TIM_Q_TXIDX.PROD, R.TIM_Q_TXIDX.CONS]
  | .TIM_Q_TS_HEAD => [R.TIM_Q_TS_HEAD.TS_ID, R.TIM_Q_TS_HEAD.VALID, R.TIM_Q_TS_HEAD.TIMING, R.TIM_Q_TS_HEAD.NS]
  | .TIM_Q_TS_SEC => [R.TIM_Q_TS_SEC.SEC, R.TIM_Q_TS_SEC.FRAC]
  | .TIM_Q_TS_POP => [R.TIM_Q_TS_POP.POP]
  | .TIM_Q_TS_STAT => [R.TIM_Q_TS_STAT.LEVEL, R.TIM_Q_TS_STAT.OVF, R.TIM_Q_TS_STAT.OVF_COUNT]
  | .TIM_Q_RXDROP => [R.TIM_Q_RXDROP.RX_FULL, R.TIM_Q_RXDROP.TOO_LONG]
  | .WOR_CTRL => [R.WOR_CTRL.NODE, R.WOR_CTRL.EN, R.WOR_CTRL.DEAD_US]
  | .WOR_STATUS => [R.WOR_STATUS.INCARN, R.WOR_STATUS.PORTS_UP, R.WOR_STATUS.DEAD_NODES]
  | .WOR_NODE_SEL => [R.WOR_NODE_SEL.NODE]
  | .WOR_NODE_ROUTE => [R.WOR_NODE_ROUTE.PORTS]
  | .WOR_NODE_STATE => [R.WOR_NODE_STATE.DEAD, R.WOR_NODE_STATE.ROUTED, R.WOR_NODE_STATE.PORT, R.WOR_NODE_STATE.OUTSTANDING, R.WOR_NODE_STATE.NEXT_SEQ]
  | .WOR_GEN => [R.WOR_GEN.GEN]
  | .WOR_WIN_ARG => [R.WOR_WIN_ARG.ARG]
  | .WOR_WIN_CMD => [R.WOR_WIN_CMD.OP, R.WOR_WIN_CMD.EXPORT, R.WOR_WIN_CMD.INDEX, R.WOR_WIN_CMD.OWNER]
  | .WOR_WIN_STATUS => [R.WOR_WIN_STATUS.BUSY, R.WOR_WIN_STATUS.STATUS, R.WOR_WIN_STATUS.CAUSE, R.WOR_WIN_STATUS.CMD_LOST]
  | .WOR_INV_ARG => [R.WOR_INV_ARG.ARG]
  | .WOR_INV_CMD => [R.WOR_INV_CMD.SEND]
  | .WOR_INV_STATUS => [R.WOR_INV_STATUS.BUSY, R.WOR_INV_STATUS.STATUS]
  | .WOR_ATOM_TABLE => [R.WOR_ATOM_TABLE.USED, R.WOR_ATOM_TABLE.BUSY_SENT]
  | .WOR_COUNTS_A => [R.WOR_COUNTS_A.DENIED, R.WOR_COUNTS_A.STRAY]
  | .WOR_COUNTS_B => [R.WOR_COUNTS_B.DEAD_EVENTS, R.WOR_COUNTS_B.REORDER_DROP]
  | .WOR_MERGE_MAX => [R.WOR_MERGE_MAX.OCCUPANCY, R.WOR_MERGE_MAX.HOLD_NS]
  | .WOR_WIN_SEL => [R.WOR_WIN_SEL.INDEX, R.WOR_WIN_SEL.EXPORT, R.WOR_WIN_SEL.OWNER]
  | .WOR_WIN_VIEW => [R.WOR_WIN_VIEW.VIEW]
  | .WOR_P_CTRL => [R.WOR_P_CTRL.EN, R.WOR_P_CTRL.FENCE_THRESH]
  | .WOR_P_STATE => [R.WOR_P_STATE.STATE]
  | .WOR_P_TX => [R.WOR_P_TX.COUNT]
  | .WOR_P_RX => [R.WOR_P_RX.COUNT]
  | .WOR_P_SEC => [R.WOR_P_SEC.INTEG, R.WOR_P_SEC.REPLAY]
  | .WOR_P_DROP => [R.WOR_P_DROP.MALFORMED, R.WOR_P_DROP.DUP]
  | .WOR_P_RESENT => [R.WOR_P_RESENT.RESENT, R.WOR_P_RESENT.NACKS]
  | .WOR_P_KEY => [R.WOR_P_KEY.UPDATES, R.WOR_P_KEY.TX_CTR]
  | .ERR_CTRL => [R.ERR_CTRL.CE_LIMIT, R.ERR_CTRL.PROBATION_H]
  | .ERR_STATUS => [R.ERR_STATUS.NEXT_SEQ, R.ERR_STATUS.RING_HOME, R.ERR_STATUS.RING_MIRROR, R.ERR_STATUS.MIRROR_OK]
  | .ERR_RING_ACK => [R.ERR_RING_ACK.ACK]
  | .ERR_RING_LOST => [R.ERR_RING_LOST.COUNT]
  | .ERR_RD_SEL => [R.ERR_RD_SEL.SEQ]
  | .ERR_RD => [R.ERR_RD.WORD]
  | .ERR_RECOVERY => [R.ERR_RECOVERY.RUNNING, R.ERR_RECOVERY.QUEUED, R.ERR_RECOVERY.LEVEL]
  | .ERR_HEALTH => [R.ERR_HEALTH.STATE, R.ERR_HEALTH.SPARES, R.ERR_HEALTH.SUSPECT, R.ERR_HEALTH.PROBATION, R.ERR_HEALTH.RETIRED, R.ERR_HEALTH.ORPHANS, R.ERR_HEALTH.VACANT]
  | .ERR_CORE_SEL => [R.ERR_CORE_SEL.DIE, R.ERR_CORE_SEL.CLUSTER, R.ERR_CORE_SEL.SITE]
  | .ERR_CORE_STATE => [R.ERR_CORE_STATE.STATE, R.ERR_CORE_STATE.SPARE, R.ERR_CORE_STATE.PROB_LEFT_H, R.ERR_CORE_STATE.SAMPLES, R.ERR_CORE_STATE.CE_HOUR]
  | .ERR_COUNTS_A => [R.ERR_COUNTS_A.L0, R.ERR_COUNTS_A.L1, R.ERR_COUNTS_A.L2, R.ERR_COUNTS_A.L3]
  | .ERR_COUNTS_B => [R.ERR_COUNTS_B.L4, R.ERR_COUNTS_B.L5, R.ERR_COUNTS_B.ESCALATED, R.ERR_COUNTS_B.NONE]
  | .ERR_GEN => [R.ERR_GEN.GEN]
  | .ERR_LAST => [R.ERR_LAST.WORD]
  | .HST_VF_DOORBELL => [R.HST_VF_DOORBELL.LOCAL, R.HST_VF_DOORBELL.P]
  | .HST_VF_QSTAT => [R.HST_VF_QSTAT.ACCEPTED, R.HST_VF_QSTAT.HELD]
  | .HST_VF_CLR_STATUS => [R.HST_VF_CLR_STATUS.IMAGE, R.HST_VF_CLR_STATUS.RESETTING, R.HST_VF_CLR_STATUS.EPOCH]
  | .HST_VF_ELAPSED => [R.HST_VF_ELAPSED.NS]
  | .HST_VF_ENGINE => [R.HST_VF_ENGINE.CORE_NS]
  | .HST_VF_ND_COUNT => [R.HST_VF_ND_COUNT.ORDER, R.HST_VF_ND_COUNT.ATOMIC]
  | .HST_VF_GROUP => [R.HST_VF_GROUP.NS]
  | .HST_VF_IRQ_CTRL => [R.HST_VF_IRQ_CTRL.EN, R.HST_VF_IRQ_CTRL.HOLDOFF_US]
  | .HST_VF_IRQ_PEND => [R.HST_VF_IRQ_PEND.PEND]
  | .HST_CTRL => [R.HST_CTRL.LINK_TMO_MS, R.HST_CTRL.AUTO_SWITCH, R.HST_CTRL.IDE_REQUIRED]
  | .HST_CMD => [R.HST_CMD.CMD]
  | .HST_PORT => [R.HST_PORT.ACTIVE, R.HST_PORT.STATE_A, R.HST_PORT.STATE_B, R.HST_PORT.WIDTH, R.HST_PORT.SPEED, R.HST_PORT.SWITCHES]
  | .HST_EVENTS => [R.HST_EVENTS.ERROR, R.HST_EVENTS.IMAGE_LOAD, R.HST_EVENTS.TENANT_RESET, R.HST_EVENTS.PORT_SWITCH, R.HST_EVENTS.IDE_FAIL, R.HST_EVENTS.CMD_DONE]
  | .HST_EVENT_EN => [R.HST_EVENT_EN.ERROR, R.HST_EVENT_EN.IMAGE_LOAD, R.HST_EVENT_EN.TENANT_RESET, R.HST_EVENT_EN.PORT_SWITCH, R.HST_EVENT_EN.IDE_FAIL, R.HST_EVENT_EN.CMD_DONE]
  | .HST_POISON => [R.HST_POISON.COUNT]
  | .HST_XLAT_FAULT => [R.HST_XLAT_FAULT.COUNT]
  | .HST_OUTSTANDING => [R.HST_OUTSTANDING.READS, R.HST_OUTSTANDING.WRITES]
  | .HST_IDE => [R.HST_IDE.IO_STATE, R.HST_IDE.CACHE_STATE, R.HST_IDE.FAILS]
  | .MGT_STATUS => [R.MGT_STATUS.STAGE, R.MGT_STATUS.RCV_CAUSE, R.MGT_STATUS.FW_VERSION]
  | .MGT_ELECT => [R.MGT_ELECT.ROUND, R.MGT_ELECT.CANDIDATES, R.MGT_ELECT.LOST_CHIEF]
  | .MGT_MBX_CMD => [R.MGT_MBX_CMD.OP]
  | .MGT_MBX_ARG => [R.MGT_MBX_ARG.ARG]
  | .MGT_MBX_STATUS => [R.MGT_MBX_STATUS.BUSY, R.MGT_MBX_STATUS.STATUS, R.MGT_MBX_STATUS.CAUSE, R.MGT_MBX_STATUS.CMD_LOST, R.MGT_MBX_STATUS.CMD_SEQ]
  | .MGT_RCV_CMD => [R.MGT_RCV_CMD.OP, R.MGT_RCV_CMD.TARGET, R.MGT_RCV_CMD.LEN]
  | .MGT_RCV_STATUS => [R.MGT_RCV_STATUS.BUSY, R.MGT_RCV_STATUS.RESULT, R.MGT_RCV_STATUS.OFFSET]
  | .MGT_I3C => [R.MGT_I3C.DYN_ADDR, R.MGT_I3C.EID]
  | .SEC_CTRL => [R.SEC_CTRL.LOCK]
  | .SEC_STATE => [R.SEC_STATE.IDENTITY_READY, R.SEC_STATE.DEBUG, R.SEC_STATE.STATE_FRESH, R.SEC_STATE.FW_FLOOR]
  | .SEC_DSN => [R.SEC_DSN.VALUE]
  | .SEC_NONCE => [R.SEC_NONCE.VALUE]
  | .SEC_KEY_SEL => [R.SEC_KEY_SEL.SLOT]
  | .SEC_KEY_VIEW => [R.SEC_KEY_VIEW.KEY_ID]
  | .SEC_KEY_FLOOR => [R.SEC_KEY_FLOOR.FLOOR, R.SEC_KEY_FLOOR.VALID, R.SEC_KEY_FLOOR.FIXED]
  | .SEC_LOADLOG => [R.SEC_LOADLOG.ENTRIES]
  | .SEC_IMG_SEL => [R.SEC_IMG_SEL.OWNER]
  | .SEC_IMG_ID => [R.SEC_IMG_ID.LOAD_SEQ, R.SEC_IMG_ID.VALID, R.SEC_IMG_ID.SLOT]
  | .SEC_IMG_D => [R.SEC_IMG_D.D]
  | .SEC_GEN => [R.SEC_GEN.GEN]
  | .DIE_STATE => [R.DIE_STATE.STAGE, R.DIE_STATE.CANDIDATE, R.DIE_STATE.CHIEF, R.DIE_STATE.PUF_OK]
  | .DIE_FW => [R.DIE_FW.VERSION, R.DIE_FW.SEC_VER]
  | .DIE_HEARTBEAT => [R.DIE_HEARTBEAT.SENT, R.DIE_HEARTBEAT.MISSED_MAX]
  | .DIE_PINS => [R.DIE_PINS.FLASH, R.DIE_PINS.I3C]
  | .GLB_PWR_CTRL => [R.GLB_PWR_CTRL.THROTTLE_C, R.GLB_PWR_CTRL.WARN_C, R.GLB_PWR_CTRL.HBM_THROTTLE_C, R.GLB_PWR_CTRL.PWR_LIMIT_W]
  | .GLB_PWR_STATUS => [R.GLB_PWR_STATUS.POWER_W, R.GLB_PWR_STATUS.DIE_MAX_C, R.GLB_PWR_STATUS.HBM_MAX_C, R.GLB_PWR_STATUS.THROTTLED, R.GLB_PWR_STATUS.GLADE_THROTTLED, R.GLB_PWR_STATUS.CAPPED]
  | .GLB_PWR_EVENTS => [R.GLB_PWR_EVENTS.WARN, R.GLB_PWR_EVENTS.THROTTLE, R.GLB_PWR_EVENTS.GLADE_THROTTLE, R.GLB_PWR_EVENTS.POWER_CAP, R.GLB_PWR_EVENTS.HBM_HOT]
  | .GLB_PWR_THR_US => [R.GLB_PWR_THR_US.THR_US, R.GLB_PWR_THR_US.GLADE_US]
  | .GLB_PWR_RESET => [R.GLB_PWR_RESET.CAUSE, R.GLB_PWR_RESET.HBM_LOST, R.GLB_PWR_RESET.WARM_COUNT]
  | .DIE_THERM => [R.DIE_THERM.TEMP, R.DIE_THERM.K, R.DIE_THERM.GLADE_K]
  | .DIE_THERM_DC => [R.DIE_THERM_DC.TEMP, R.DIE_THERM_DC.DIE_C]
  | .DIE_RAIL => [R.DIE_RAIL.MV, R.DIE_RAIL.DA, R.DIE_RAIL.STATE]

/-- Where a register lies: its block, its offset in the block, how many of it there are and the stride between two. -/
structure Place where
  block  : Block
  offset : Nat
  count  : Nat
  stride : Nat
  deriving DecidableEq, Repr

/-- The offsets of the register tables. -/
def RegName.place : RegName → Place
  | .ZIU_CTRL => ⟨.ziu, 0x0, 1, 0x0⟩
  | .ZIU_ROUTE => ⟨.ziu, 0x8, 1, 0x0⟩
  | .ZIU_VC1_RESERVE => ⟨.ziu, 0x10, 1, 0x0⟩
  | .ZIU_PORT_STATE => ⟨.ziu, 0x18, 3, 0x8⟩
  | .ZIU_PORT_RETRY => ⟨.ziu, 0x30, 3, 0x8⟩
  | .ZIU_ROUTE_GEN => ⟨.ziu, 0x48, 1, 0x0⟩
  | .GLB_PART => ⟨.glb, 0x0, 1, 0x0⟩
  | .GLB_SHAPE => ⟨.glb, 0x8, 1, 0x0⟩
  | .GLB_DIE_STATE => ⟨.glb, 0x10, 1, 0x0⟩
  | .GLB_CAPACITY => ⟨.glb, 0x18, 1, 0x0⟩
  | .GLB_CAP_GEN => ⟨.glb, 0x20, 1, 0x0⟩
  | .TNS_CFG => ⟨.tns, 0x0, 1, 0x0⟩
  | .TNS_STATE => ⟨.tns, 0x8, 1, 0x0⟩
  | .TNS_PASS_COUNT => ⟨.tns, 0x10, 1, 0x0⟩
  | .TNS_ERR => ⟨.tns, 0x18, 1, 0x0⟩
  | .TNS_ROWMASK => ⟨.tns, 0x40, 8, 0x8⟩
  | .TNS_COLMASK => ⟨.tns, 0x80, 8, 0x8⟩
  | .TNS_PASSREC => ⟨.tns, 0xC0, 8, 0x8⟩
  | .TNS_FIELDMAP => ⟨.tnsCluster, 0x0, 8, 0x8⟩
  | .TNS_ROUTE => ⟨.tnsCluster, 0x40, 8, 0x8⟩
  | .TNS_ROUTE_GEN => ⟨.tnsCluster, 0x80, 1, 0x0⟩
  | .COR_NUMCFG => ⟨.cor, 0x0, 1, 0x0⟩
  | .COR_SR_SEED => ⟨.cor, 0x8, 1, 0x0⟩
  | .COR_NUM_STICKY => ⟨.cor, 0x10, 1, 0x0⟩
  | .COR_NUM_SPECIAL => ⟨.cor, 0x18, 1, 0x0⟩
  | .VEC_COMB_CFG => ⟨.vec, 0x0, 1, 0x0⟩
  | .VEC_STATE => ⟨.vec, 0x8, 1, 0x0⟩
  | .VEC_ERR => ⟨.vec, 0x10, 1, 0x0⟩
  | .VEC_ECC_CORR => ⟨.vec, 0x18, 1, 0x0⟩
  | .VEC_FTAB_GEN => ⟨.vec, 0x20, 1, 0x0⟩
  | .VEC_FTAB => ⟨.vec, 0x40, 16, 0x8⟩
  | .SIG_MODE => ⟨.sigEngine, 0x0, 1, 0x0⟩
  | .SIG_STATE => ⟨.sigEngine, 0x8, 1, 0x0⟩
  | .SIG_STATUS => ⟨.sigEngine, 0x10, 1, 0x0⟩
  | .SIG_ACC => ⟨.sigEngine, 0x18, 1, 0x0⟩
  | .SIG_ECC_CORR => ⟨.sigEngine, 0x20, 1, 0x0⟩
  | .SIG_BASE => ⟨.sigEngine, 0x100, 16, 0x8⟩
  | .SIG_LEN => ⟨.sigEngine, 0x180, 16, 0x8⟩
  | .SIG_INDEX => ⟨.sigEngine, 0x200, 16, 0x8⟩
  | .SIG_STEP => ⟨.sigEngine, 0x280, 16, 0x8⟩
  | .FEC_CTRL => ⟨.fec, 0x0, 1, 0x0⟩
  | .FEC_STATE => ⟨.fec, 0x8, 1, 0x0⟩
  | .FEC_ERR => ⟨.fec, 0x10, 1, 0x0⟩
  | .FEC_DEC_BLOCKS => ⟨.fec, 0x18, 2, 0x8⟩
  | .FEC_DEC_ITERS => ⟨.fec, 0x28, 1, 0x0⟩
  | .FEC_DEC_FAIL => ⟨.fec, 0x30, 1, 0x0⟩
  | .FEC_ENC_BLOCKS => ⟨.fec, 0x38, 1, 0x0⟩
  | .FEC_EXPIRED => ⟨.fec, 0x40, 1, 0x0⟩
  | .FEC_ECC_CORR => ⟨.fec, 0x48, 1, 0x0⟩
  | .STR_SITE => ⟨.strSite, 0x0, 1, 0x0⟩
  | .STR_STATE => ⟨.strSite, 0x8, 1, 0x0⟩
  | .STR_ERR => ⟨.strSite, 0x10, 1, 0x0⟩
  | .STR_ECC_CORR => ⟨.strSite, 0x18, 1, 0x0⟩
  | .STR_RT_SEL => ⟨.strSite, 0x20, 1, 0x0⟩
  | .STR_RT_ENTRY => ⟨.strSite, 0x28, 1, 0x0⟩
  | .STR_IN => ⟨.strSite, 0x40, 8, 0x8⟩
  | .STR_OUT => ⟨.strSite, 0x80, 8, 0x8⟩
  | .STR_SIG_IN => ⟨.strSite, 0xC0, 2, 0x8⟩
  | .STR_SIG_OUT => ⟨.strSite, 0xD0, 2, 0x8⟩
  | .STR_LINK_SEL => ⟨.strCluster, 0x0, 1, 0x0⟩
  | .STR_LINK_ENTRY => ⟨.strCluster, 0x8, 1, 0x0⟩
  | .STR_CL_ECC_CORR => ⟨.strCluster, 0x10, 1, 0x0⟩
  | .STR_ROUTE_GEN => ⟨.strCluster, 0x18, 1, 0x0⟩
  | .MOV_STATE => ⟨.mov, 0x0, 1, 0x0⟩
  | .MOV_ERR => ⟨.mov, 0x8, 1, 0x0⟩
  | .MOV_CS_ECC_CORR => ⟨.mov, 0x10, 1, 0x0⟩
  | .MOV_DESC_COUNT => ⟨.mov, 0x18, 1, 0x0⟩
  | .MOV_LIMITS => ⟨.mov, 0x20, 1, 0x0⟩
  | .CLU_STATE => ⟨.clu, 0x0, 1, 0x0⟩
  | .CLU_ERR => ⟨.clu, 0x8, 1, 0x0⟩
  | .CLU_ECC_CORR => ⟨.clu, 0x10, 1, 0x0⟩
  | .CLU_OWN_SEL => ⟨.clu, 0x18, 1, 0x0⟩
  | .CLU_OWN_ENTRY => ⟨.clu, 0x20, 1, 0x0⟩
  | .CLU_OWN_GEN => ⟨.clu, 0x28, 1, 0x0⟩
  | .HBM_STATE => ⟨.hbm, 0x0, 1, 0x0⟩
  | .HBM_ERR => ⟨.hbm, 0x8, 1, 0x0⟩
  | .HBM_ECC_CORR => ⟨.hbm, 0x10, 1, 0x0⟩
  | .HBM_ECC_UNCORR => ⟨.hbm, 0x18, 1, 0x0⟩
  | .HBM_RESERVE => ⟨.hbm, 0x20, 1, 0x0⟩
  | .HBM_SCRUB => ⟨.hbm, 0x28, 1, 0x0⟩
  | .HBM_SCRUB_POS => ⟨.hbm, 0x30, 1, 0x0⟩
  | .HBM_LC_CTRL => ⟨.lc, 0x0, 1, 0x0⟩
  | .HBM_LC_STATE => ⟨.lc, 0x8, 1, 0x0⟩
  | .HBM_LC_ERR => ⟨.lc, 0x10, 1, 0x0⟩
  | .HBM_LC_ECC_CORR => ⟨.lc, 0x18, 1, 0x0⟩
  | .HBM_LC_PF_DROP => ⟨.lc, 0x20, 1, 0x0⟩
  | .HBM_XT_SEL => ⟨.lc, 0x28, 1, 0x0⟩
  | .HBM_XT_MAP => ⟨.lc, 0x30, 1, 0x0⟩
  | .HBM_XT_DEV => ⟨.lc, 0x38, 1, 0x0⟩
  | .HBM_XT_GEN => ⟨.lc, 0x40, 1, 0x0⟩
  | .GLB_IMG_SRC => ⟨.glb, 0x1000, 1, 0x0⟩
  | .GLB_IMG_LEN => ⟨.glb, 0x1008, 1, 0x0⟩
  | .GLB_IMG_TARGET => ⟨.glb, 0x1010, 1, 0x0⟩
  | .GLB_IMG_ACT_TIME => ⟨.glb, 0x1018, 1, 0x0⟩
  | .GLB_IMG_DRAIN => ⟨.glb, 0x1020, 1, 0x0⟩
  | .GLB_IMG_CMD => ⟨.glb, 0x1028, 1, 0x0⟩
  | .GLB_IMG_STATUS => ⟨.glb, 0x1030, 1, 0x0⟩
  | .GLB_IMG_DETAIL => ⟨.glb, 0x1038, 1, 0x0⟩
  | .GLB_IMG_ERR_SEQ => ⟨.glb, 0x1040, 1, 0x0⟩
  | .GLB_IMG_WINDOW => ⟨.glb, 0x1048, 1, 0x0⟩
  | .GLB_IMG_COUNTS => ⟨.glb, 0x1050, 1, 0x0⟩
  | .GLB_DET_SEL => ⟨.glb, 0x2000, 1, 0x0⟩
  | .GLB_DET_SIG_A => ⟨.glb, 0x2008, 1, 0x0⟩
  | .GLB_DET_SIG_B => ⟨.glb, 0x2010, 1, 0x0⟩
  | .GLB_DET_ND_COUNT => ⟨.glb, 0x2018, 1, 0x0⟩
  | .GLB_DET_GEN => ⟨.glb, 0x2020, 1, 0x0⟩
  | .GLB_DET_BAR_TARGET => ⟨.glb, 0x2040, 1, 0x0⟩
  | .GLB_DET_BAR_TIME => ⟨.glb, 0x2048, 1, 0x0⟩
  | .GLB_DET_BAR_CMD => ⟨.glb, 0x2050, 1, 0x0⟩
  | .GLB_DET_BAR_STATUS => ⟨.glb, 0x2058, 1, 0x0⟩
  | .GLB_SENT_CTRL => ⟨.glb, 0x2060, 1, 0x0⟩
  | .GLB_SENT_RUNS => ⟨.glb, 0x2068, 1, 0x0⟩
  | .GLB_SENT_SKIPPED => ⟨.glb, 0x2070, 1, 0x0⟩
  | .GLB_SENT_MISMATCH => ⟨.glb, 0x2078, 1, 0x0⟩
  | .GLB_SENT_LAST => ⟨.glb, 0x2080, 1, 0x0⟩
  | .GLB_SENT_ENV => ⟨.glb, 0x2090, 3, 0x8⟩
  | .SCH_CMD => ⟨.sch, 0x0, 1, 0x0⟩
  | .SCH_ARG => ⟨.sch, 0x8, 3, 0x8⟩
  | .SCH_CMD_STATUS => ⟨.sch, 0x20, 1, 0x0⟩
  | .SCH_POOL => ⟨.sch, 0x28, 1, 0x0⟩
  | .SCH_VIOL_UNBOUND => ⟨.sch, 0x30, 1, 0x0⟩
  | .SCH_TEN_GEN => ⟨.sch, 0x38, 1, 0x0⟩
  | .SCH_TEN_CFG => ⟨.sch, 0x10000, 1024, 0x40⟩
  | .SCH_TEN_BUDGET => ⟨.sch, 0x10008, 1024, 0x40⟩
  | .SCH_TEN_SHARE => ⟨.sch, 0x10010, 1024, 0x40⟩
  | .SCH_TEN_DRAIN => ⟨.sch, 0x10018, 1024, 0x40⟩
  | .SCH_TEN_ENGINE => ⟨.sch, 0x10020, 1024, 0x40⟩
  | .SCH_TEN_VIOL => ⟨.sch, 0x10028, 1024, 0x40⟩
  | .SCH_TEN_RESET => ⟨.sch, 0x10030, 1024, 0x40⟩
  | .QUE_CMD => ⟨.que, 0x0, 1, 0x0⟩
  | .QUE_ARG => ⟨.que, 0x8, 4, 0x8⟩
  | .QUE_CMD_STATUS => ⟨.que, 0x28, 1, 0x0⟩
  | .QUE_EPOCH => ⟨.que, 0x30, 1, 0x0⟩
  | .QUE_SEL => ⟨.que, 0x38, 1, 0x0⟩
  | .QUE_VIEW_Q => ⟨.que, 0x40, 1, 0x0⟩
  | .QUE_VIEW_ACC => ⟨.que, 0x48, 1, 0x0⟩
  | .QUE_VIEW_COMMIT => ⟨.que, 0x50, 1, 0x0⟩
  | .QUE_VIEW_EMIT => ⟨.que, 0x58, 1, 0x0⟩
  | .QUE_GEN => ⟨.que, 0x60, 1, 0x0⟩
  | .QUE_POISON => ⟨.que, 0x68, 1, 0x0⟩
  | .QUE_FRAMES_LOST => ⟨.que, 0x70, 1, 0x0⟩
  | .QUE_JNL => ⟨.que, 0x100, 8, 0x8⟩
  | .SCH_CTRL => ⟨.sch, 0x100, 1, 0x0⟩
  | .SCH_LEND_CTRL => ⟨.sch, 0x108, 1, 0x0⟩
  | .SCH_CL_SEL => ⟨.sch, 0x110, 1, 0x0⟩
  | .SCH_CL_VTIME => ⟨.sch, 0x118, 1, 0x0⟩
  | .SCH_CL_TAG => ⟨.sch, 0x120, 1, 0x0⟩
  | .SCH_CL_STATE => ⟨.sch, 0x128, 1, 0x0⟩
  | .SCH_CTX_SEL => ⟨.sch, 0x130, 1, 0x0⟩
  | .SCH_CTX_STATE => ⟨.sch, 0x138, 1, 0x0⟩
  | .SCH_GEN => ⟨.sch, 0x140, 1, 0x0⟩
  | .SCH_PREEMPTS => ⟨.sch, 0x148, 1, 0x0⟩
  | .SCH_URGENT => ⟨.sch, 0x150, 1, 0x0⟩
  | .SCH_LENDS => ⟨.sch, 0x158, 1, 0x0⟩
  | .SCH_RETURN_MAX => ⟨.sch, 0x160, 1, 0x0⟩
  | .RAD_CTRL => ⟨.rad, 0x0, 1, 0x0⟩
  | .RAD_CAPACITY => ⟨.rad, 0x8, 1, 0x0⟩
  | .RAD_ADMIT => ⟨.rad, 0x10, 1, 0x0⟩
  | .RAD_CELL_SEL => ⟨.rad, 0x18, 1, 0x0⟩
  | .RAD_CELL_VIEW => ⟨.rad, 0x20, 1, 0x0⟩
  | .RAD_CELL_CNT => ⟨.rad, 0x28, 1, 0x0⟩
  | .RAD_GLADE_SEL => ⟨.rad, 0x30, 1, 0x0⟩
  | .RAD_GLADE_VIEW => ⟨.rad, 0x38, 1, 0x0⟩
  | .RAD_GLADE_DRUM => ⟨.rad, 0x40, 1, 0x0⟩
  | .RAD_GLADE_FEC => ⟨.rad, 0x48, 1, 0x0⟩
  | .RAD_MOVE_ARG => ⟨.rad, 0x50, 1, 0x0⟩
  | .RAD_MOVE_TIME => ⟨.rad, 0x58, 1, 0x0⟩
  | .RAD_MOVE_CMD => ⟨.rad, 0x60, 1, 0x0⟩
  | .RAD_MOVE_STATUS => ⟨.rad, 0x68, 1, 0x0⟩
  | .RAD_GEN => ⟨.rad, 0x70, 1, 0x0⟩
  | .RAD_FEC_USE => ⟨.rad, 0x80, 16, 0x8⟩
  | .RAD_Q_MODE => ⟨.quad, 0x0, 1, 0x0⟩
  | .RAD_Q_LINK => ⟨.quad, 0x8, 1, 0x0⟩
  | .RAD_Q_MAC => ⟨.quad, 0x10, 1, 0x0⟩
  | .RAD_Q_TXCFG => ⟨.quad, 0x18, 1, 0x0⟩
  | .RAD_Q_DROP_A => ⟨.quad, 0x20, 1, 0x0⟩
  | .RAD_Q_DROP_B => ⟨.quad, 0x28, 1, 0x0⟩
  | .RAD_Q_DROP_C => ⟨.quad, 0x30, 1, 0x0⟩
  | .RAD_Q_FLOW_SEL => ⟨.quad, 0x38, 1, 0x0⟩
  | .RAD_Q_FLOW_KEY => ⟨.quad, 0x40, 1, 0x0⟩
  | .RAD_Q_FLOW_MAP => ⟨.quad, 0x48, 1, 0x0⟩
  | .RAD_Q_FLOW_POL => ⟨.quad, 0x50, 1, 0x0⟩
  | .RAD_Q_FLOW_WIN => ⟨.quad, 0x58, 1, 0x0⟩
  | .RAD_Q_FLOW_CNT => ⟨.quad, 0x60, 1, 0x0⟩
  | .RAD_Q_GEN => ⟨.quad, 0x68, 1, 0x0⟩
  | .RAD_Q_CBS => ⟨.quad, 0x80, 8, 0x8⟩
  | .RAD_Q_GATE_CTRL => ⟨.quad, 0xC0, 1, 0x0⟩
  | .RAD_Q_GATE_BASE => ⟨.quad, 0xC8, 1, 0x0⟩
  | .RAD_Q_GATE_CYCLE => ⟨.quad, 0xD0, 1, 0x0⟩
  | .RAD_Q_DEPTH => ⟨.quad, 0x100, 8, 0x10⟩
  | .RAD_Q_DELAY => ⟨.quad, 0x108, 8, 0x10⟩
  | .RAD_Q_GCL => ⟨.quad, 0x800, 256, 0x8⟩
  | .TIM_STATUS => ⟨.tim, 0x0, 1, 0x0⟩
  | .TIM_SNAP => ⟨.tim, 0x8, 1, 0x0⟩
  | .TIM_SNAP_SEC => ⟨.tim, 0x10, 1, 0x0⟩
  | .TIM_SNAP_NS => ⟨.tim, 0x18, 1, 0x0⟩
  | .TIM_SET_SEC => ⟨.tim, 0x20, 1, 0x0⟩
  | .TIM_SET_NS => ⟨.tim, 0x28, 1, 0x0⟩
  | .TIM_STEP => ⟨.tim, 0x30, 1, 0x0⟩
  | .TIM_ADJ_CMD => ⟨.tim, 0x38, 1, 0x0⟩
  | .TIM_FREQ => ⟨.tim, 0x40, 1, 0x0⟩
  | .TIM_PPS_SEC => ⟨.tim, 0x48, 1, 0x0⟩
  | .TIM_PPS_NS => ⟨.tim, 0x50, 1, 0x0⟩
  | .TIM_SYNCE => ⟨.tim, 0x58, 2, 0x8⟩
  | .TIM_TOLL_CTRL => ⟨.tim, 0x100, 8, 0x20⟩
  | .TIM_TOLL_START => ⟨.tim, 0x108, 8, 0x20⟩
  | .TIM_TOLL_PERIOD => ⟨.tim, 0x110, 8, 0x20⟩
  | .TIM_TOLL_STAT => ⟨.tim, 0x118, 8, 0x20⟩
  | .TIM_Q_LAT => ⟨.tim, 0x1000, 16, 0x100⟩
  | .TIM_Q_RXRING => ⟨.tim, 0x1008, 16, 0x100⟩
  | .TIM_Q_TXRING => ⟨.tim, 0x1018, 16, 0x100⟩
  | .TIM_Q_RXIDX => ⟨.tim, 0x1010, 16, 0x100⟩
  | .TIM_Q_TXIDX => ⟨.tim, 0x1020, 16, 0x100⟩
  | .TIM_Q_TS_HEAD => ⟨.tim, 0x1028, 16, 0x100⟩
  | .TIM_Q_TS_SEC => ⟨.tim, 0x1030, 16, 0x100⟩
  | .TIM_Q_TS_POP => ⟨.tim, 0x1038, 16, 0x100⟩
  | .TIM_Q_TS_STAT => ⟨.tim, 0x1040, 16, 0x100⟩
  | .TIM_Q_RXDROP => ⟨.tim, 0x1048, 16, 0x100⟩
  | .WOR_CTRL => ⟨.wor, 0x0, 1, 0x0⟩
  | .WOR_STATUS => ⟨.wor, 0x8, 1, 0x0⟩
  | .WOR_NODE_SEL => ⟨.wor, 0x10, 1, 0x0⟩
  | .WOR_NODE_ROUTE => ⟨.wor, 0x18, 1, 0x0⟩
  | .WOR_NODE_STATE => ⟨.wor, 0x20, 1, 0x0⟩
  | .WOR_GEN => ⟨.wor, 0x28, 1, 0x0⟩
  | .WOR_WIN_ARG => ⟨.wor, 0x30, 3, 0x8⟩
  | .WOR_WIN_CMD => ⟨.wor, 0x48, 1, 0x0⟩
  | .WOR_WIN_STATUS => ⟨.wor, 0x50, 1, 0x0⟩
  | .WOR_INV_ARG => ⟨.wor, 0x58, 2, 0x8⟩
  | .WOR_INV_CMD => ⟨.wor, 0x68, 1, 0x0⟩
  | .WOR_INV_STATUS => ⟨.wor, 0x70, 1, 0x0⟩
  | .WOR_ATOM_TABLE => ⟨.wor, 0x78, 1, 0x0⟩
  | .WOR_COUNTS_A => ⟨.wor, 0x80, 1, 0x0⟩
  | .WOR_COUNTS_B => ⟨.wor, 0x88, 1, 0x0⟩
  | .WOR_MERGE_MAX => ⟨.wor, 0x90, 1, 0x0⟩
  | .WOR_WIN_SEL => ⟨.wor, 0x98, 1, 0x0⟩
  | .WOR_WIN_VIEW => ⟨.wor, 0xA0, 3, 0x8⟩
  | .WOR_P_CTRL => ⟨.worp, 0x0, 1, 0x0⟩
  | .WOR_P_STATE => ⟨.worp, 0x8, 1, 0x0⟩
  | .WOR_P_TX => ⟨.worp, 0x10, 1, 0x0⟩
  | .WOR_P_RX => ⟨.worp, 0x18, 1, 0x0⟩
  | .WOR_P_SEC => ⟨.worp, 0x20, 1, 0x0⟩
  | .WOR_P_DROP => ⟨.worp, 0x28, 1, 0x0⟩
  | .WOR_P_RESENT => ⟨.worp, 0x30, 1, 0x0⟩
  | .WOR_P_KEY => ⟨.worp, 0x38, 1, 0x0⟩
  | .ERR_CTRL => ⟨.err, 0x0, 1, 0x0⟩
  | .ERR_STATUS => ⟨.err, 0x8, 1, 0x0⟩
  | .ERR_RING_ACK => ⟨.err, 0x10, 1, 0x0⟩
  | .ERR_RING_LOST => ⟨.err, 0x18, 1, 0x0⟩
  | .ERR_RD_SEL => ⟨.err, 0x20, 1, 0x0⟩
  | .ERR_RD => ⟨.err, 0x28, 8, 0x8⟩
  | .ERR_RECOVERY => ⟨.err, 0x68, 1, 0x0⟩
  | .ERR_HEALTH => ⟨.err, 0x70, 1, 0x0⟩
  | .ERR_CORE_SEL => ⟨.err, 0x78, 1, 0x0⟩
  | .ERR_CORE_STATE => ⟨.err, 0x80, 1, 0x0⟩
  | .ERR_COUNTS_A => ⟨.err, 0x88, 1, 0x0⟩
  | .ERR_COUNTS_B => ⟨.err, 0x90, 1, 0x0⟩
  | .ERR_GEN => ⟨.err, 0x98, 1, 0x0⟩
  | .ERR_LAST => ⟨.err, 0x100, 64, 0x8⟩
  | .HST_VF_DOORBELL => ⟨.vf, 0x0, 1, 0x0⟩
  | .HST_VF_QSTAT => ⟨.vf, 0x10000, 65536, 0x8⟩
  | .HST_VF_CLR_STATUS => ⟨.vf, 0x100000, 1, 0x0⟩
  | .HST_VF_ELAPSED => ⟨.vf, 0x100008, 1, 0x0⟩
  | .HST_VF_ENGINE => ⟨.vf, 0x100010, 1, 0x0⟩
  | .HST_VF_ND_COUNT => ⟨.vf, 0x100018, 1, 0x0⟩
  | .HST_VF_GROUP => ⟨.vf, 0x100040, 16, 0x8⟩
  | .HST_VF_IRQ_CTRL => ⟨.vf, 0x101000, 1, 0x0⟩
  | .HST_VF_IRQ_PEND => ⟨.vf, 0x101008, 1, 0x0⟩
  | .HST_CTRL => ⟨.hst, 0x0, 1, 0x0⟩
  | .HST_CMD => ⟨.hst, 0x8, 1, 0x0⟩
  | .HST_PORT => ⟨.hst, 0x10, 1, 0x0⟩
  | .HST_EVENTS => ⟨.hst, 0x18, 1, 0x0⟩
  | .HST_EVENT_EN => ⟨.hst, 0x20, 1, 0x0⟩
  | .HST_POISON => ⟨.hst, 0x28, 1, 0x0⟩
  | .HST_XLAT_FAULT => ⟨.hst, 0x30, 1, 0x0⟩
  | .HST_OUTSTANDING => ⟨.hst, 0x38, 1, 0x0⟩
  | .HST_IDE => ⟨.hst, 0x40, 1, 0x0⟩
  | .MGT_STATUS => ⟨.glb, 0x3000, 1, 0x0⟩
  | .MGT_ELECT => ⟨.glb, 0x3008, 1, 0x0⟩
  | .MGT_MBX_CMD => ⟨.glb, 0x3010, 1, 0x0⟩
  | .MGT_MBX_ARG => ⟨.glb, 0x3018, 4, 0x8⟩
  | .MGT_MBX_STATUS => ⟨.glb, 0x3038, 1, 0x0⟩
  | .MGT_RCV_CMD => ⟨.glb, 0x3040, 1, 0x0⟩
  | .MGT_RCV_STATUS => ⟨.glb, 0x3048, 1, 0x0⟩
  | .MGT_I3C => ⟨.glb, 0x3050, 1, 0x0⟩
  | .SEC_CTRL => ⟨.glb, 0x4000, 1, 0x0⟩
  | .SEC_STATE => ⟨.glb, 0x4008, 1, 0x0⟩
  | .SEC_DSN => ⟨.glb, 0x4010, 1, 0x0⟩
  | .SEC_NONCE => ⟨.glb, 0x4018, 1, 0x0⟩
  | .SEC_KEY_SEL => ⟨.glb, 0x4020, 1, 0x0⟩
  | .SEC_KEY_VIEW => ⟨.glb, 0x4028, 1, 0x0⟩
  | .SEC_KEY_FLOOR => ⟨.glb, 0x4030, 1, 0x0⟩
  | .SEC_LOADLOG => ⟨.glb, 0x4038, 1, 0x0⟩
  | .SEC_IMG_SEL => ⟨.glb, 0x4040, 1, 0x0⟩
  | .SEC_IMG_ID => ⟨.glb, 0x4048, 1, 0x0⟩
  | .SEC_IMG_D => ⟨.glb, 0x4050, 6, 0x8⟩
  | .SEC_GEN => ⟨.glb, 0x4080, 1, 0x0⟩
  | .DIE_STATE => ⟨.die, 0x0, 1, 0x0⟩
  | .DIE_FW => ⟨.die, 0x8, 1, 0x0⟩
  | .DIE_HEARTBEAT => ⟨.die, 0x10, 1, 0x0⟩
  | .DIE_PINS => ⟨.die, 0x18, 1, 0x0⟩
  | .GLB_PWR_CTRL => ⟨.glb, 0x5000, 1, 0x0⟩
  | .GLB_PWR_STATUS => ⟨.glb, 0x5008, 1, 0x0⟩
  | .GLB_PWR_EVENTS => ⟨.glb, 0x5010, 1, 0x0⟩
  | .GLB_PWR_THR_US => ⟨.glb, 0x5018, 1, 0x0⟩
  | .GLB_PWR_RESET => ⟨.glb, 0x5020, 1, 0x0⟩
  | .DIE_THERM => ⟨.die, 0x40, 4, 0x8⟩
  | .DIE_THERM_DC => ⟨.die, 0x60, 1, 0x0⟩
  | .DIE_RAIL => ⟨.die, 0x68, 16, 0x8⟩

/-- The registers of a block. -/
def Block.regs : Block → List RegName
  | .glb => [.GLB_PART, .GLB_SHAPE, .GLB_DIE_STATE, .GLB_CAPACITY, .GLB_CAP_GEN, .GLB_IMG_SRC, .GLB_IMG_LEN,
      .GLB_IMG_TARGET, .GLB_IMG_ACT_TIME, .GLB_IMG_DRAIN, .GLB_IMG_CMD, .GLB_IMG_STATUS, .GLB_IMG_DETAIL,
      .GLB_IMG_ERR_SEQ, .GLB_IMG_WINDOW, .GLB_IMG_COUNTS, .GLB_DET_SEL, .GLB_DET_SIG_A, .GLB_DET_SIG_B,
      .GLB_DET_ND_COUNT, .GLB_DET_GEN, .GLB_DET_BAR_TARGET, .GLB_DET_BAR_TIME, .GLB_DET_BAR_CMD,
      .GLB_DET_BAR_STATUS, .GLB_SENT_CTRL, .GLB_SENT_RUNS, .GLB_SENT_SKIPPED, .GLB_SENT_MISMATCH,
      .GLB_SENT_LAST, .GLB_SENT_ENV, .MGT_STATUS, .MGT_ELECT, .MGT_MBX_CMD, .MGT_MBX_ARG,
      .MGT_MBX_STATUS, .MGT_RCV_CMD, .MGT_RCV_STATUS, .MGT_I3C, .SEC_CTRL, .SEC_STATE, .SEC_DSN,
      .SEC_NONCE, .SEC_KEY_SEL, .SEC_KEY_VIEW, .SEC_KEY_FLOOR, .SEC_LOADLOG, .SEC_IMG_SEL, .SEC_IMG_ID,
      .SEC_IMG_D, .SEC_GEN, .GLB_PWR_CTRL, .GLB_PWR_STATUS, .GLB_PWR_EVENTS, .GLB_PWR_THR_US,
      .GLB_PWR_RESET]
  | .err => [.ERR_CTRL, .ERR_STATUS, .ERR_RING_ACK, .ERR_RING_LOST, .ERR_RD_SEL, .ERR_RD, .ERR_RECOVERY,
      .ERR_HEALTH, .ERR_CORE_SEL, .ERR_CORE_STATE, .ERR_COUNTS_A, .ERR_COUNTS_B, .ERR_GEN, .ERR_LAST]
  | .tim => [.TIM_STATUS, .TIM_SNAP, .TIM_SNAP_SEC, .TIM_SNAP_NS, .TIM_SET_SEC, .TIM_SET_NS, .TIM_STEP,
      .TIM_ADJ_CMD, .TIM_FREQ, .TIM_PPS_SEC, .TIM_PPS_NS, .TIM_SYNCE, .TIM_TOLL_CTRL, .TIM_TOLL_START,
      .TIM_TOLL_PERIOD, .TIM_TOLL_STAT, .TIM_Q_LAT, .TIM_Q_RXRING, .TIM_Q_TXRING, .TIM_Q_RXIDX,
      .TIM_Q_TXIDX, .TIM_Q_TS_HEAD, .TIM_Q_TS_SEC, .TIM_Q_TS_POP, .TIM_Q_TS_STAT, .TIM_Q_RXDROP]
  | .hst => [.HST_CTRL, .HST_CMD, .HST_PORT, .HST_EVENTS, .HST_EVENT_EN, .HST_POISON, .HST_XLAT_FAULT,
      .HST_OUTSTANDING, .HST_IDE]
  | .sch => [.SCH_CMD, .SCH_ARG, .SCH_CMD_STATUS, .SCH_POOL, .SCH_VIOL_UNBOUND, .SCH_TEN_GEN, .SCH_TEN_CFG,
      .SCH_TEN_BUDGET, .SCH_TEN_SHARE, .SCH_TEN_DRAIN, .SCH_TEN_ENGINE, .SCH_TEN_VIOL, .SCH_TEN_RESET,
      .SCH_CTRL, .SCH_LEND_CTRL, .SCH_CL_SEL, .SCH_CL_VTIME, .SCH_CL_TAG, .SCH_CL_STATE, .SCH_CTX_SEL,
      .SCH_CTX_STATE, .SCH_GEN, .SCH_PREEMPTS, .SCH_URGENT, .SCH_LENDS, .SCH_RETURN_MAX]
  | .que => [.QUE_CMD, .QUE_ARG, .QUE_CMD_STATUS, .QUE_EPOCH, .QUE_SEL, .QUE_VIEW_Q, .QUE_VIEW_ACC,
      .QUE_VIEW_COMMIT, .QUE_VIEW_EMIT, .QUE_GEN, .QUE_POISON, .QUE_FRAMES_LOST, .QUE_JNL]
  | .wor => [.WOR_CTRL, .WOR_STATUS, .WOR_NODE_SEL, .WOR_NODE_ROUTE, .WOR_NODE_STATE, .WOR_GEN, .WOR_WIN_ARG,
      .WOR_WIN_CMD, .WOR_WIN_STATUS, .WOR_INV_ARG, .WOR_INV_CMD, .WOR_INV_STATUS, .WOR_ATOM_TABLE,
      .WOR_COUNTS_A, .WOR_COUNTS_B, .WOR_MERGE_MAX, .WOR_WIN_SEL, .WOR_WIN_VIEW]
  | .rad => [.RAD_CTRL, .RAD_CAPACITY, .RAD_ADMIT, .RAD_CELL_SEL, .RAD_CELL_VIEW, .RAD_CELL_CNT, .RAD_GLADE_SEL,
      .RAD_GLADE_VIEW, .RAD_GLADE_DRUM, .RAD_GLADE_FEC, .RAD_MOVE_ARG, .RAD_MOVE_TIME, .RAD_MOVE_CMD,
      .RAD_MOVE_STATUS, .RAD_GEN, .RAD_FEC_USE]
  | .die => [.DIE_STATE, .DIE_FW, .DIE_HEARTBEAT, .DIE_PINS, .DIE_THERM, .DIE_THERM_DC, .DIE_RAIL]
  | .hbm => [.HBM_STATE, .HBM_ERR, .HBM_ECC_CORR, .HBM_ECC_UNCORR, .HBM_RESERVE, .HBM_SCRUB, .HBM_SCRUB_POS]
  | .quad => [.RAD_Q_MODE, .RAD_Q_LINK, .RAD_Q_MAC, .RAD_Q_TXCFG, .RAD_Q_DROP_A, .RAD_Q_DROP_B, .RAD_Q_DROP_C,
      .RAD_Q_FLOW_SEL, .RAD_Q_FLOW_KEY, .RAD_Q_FLOW_MAP, .RAD_Q_FLOW_POL, .RAD_Q_FLOW_WIN,
      .RAD_Q_FLOW_CNT, .RAD_Q_GEN, .RAD_Q_CBS, .RAD_Q_GATE_CTRL, .RAD_Q_GATE_BASE, .RAD_Q_GATE_CYCLE,
      .RAD_Q_DEPTH, .RAD_Q_DELAY, .RAD_Q_GCL]
  | .worp => [.WOR_P_CTRL, .WOR_P_STATE, .WOR_P_TX, .WOR_P_RX, .WOR_P_SEC, .WOR_P_DROP, .WOR_P_RESENT, .WOR_P_KEY]
  | .ziu => [.ZIU_CTRL, .ZIU_ROUTE, .ZIU_VC1_RESERVE, .ZIU_PORT_STATE, .ZIU_PORT_RETRY, .ZIU_ROUTE_GEN]
  | .lc => [.HBM_LC_CTRL, .HBM_LC_STATE, .HBM_LC_ERR, .HBM_LC_ECC_CORR, .HBM_LC_PF_DROP, .HBM_XT_SEL,
      .HBM_XT_MAP, .HBM_XT_DEV, .HBM_XT_GEN]
  | .clu => [.CLU_STATE, .CLU_ERR, .CLU_ECC_CORR, .CLU_OWN_SEL, .CLU_OWN_ENTRY, .CLU_OWN_GEN]
  | .fec => [.FEC_CTRL, .FEC_STATE, .FEC_ERR, .FEC_DEC_BLOCKS, .FEC_DEC_ITERS, .FEC_DEC_FAIL, .FEC_ENC_BLOCKS,
      .FEC_EXPIRED, .FEC_ECC_CORR]
  | .strSite => [.STR_SITE, .STR_STATE, .STR_ERR, .STR_ECC_CORR, .STR_RT_SEL, .STR_RT_ENTRY, .STR_IN, .STR_OUT,
      .STR_SIG_IN, .STR_SIG_OUT]
  | .strCluster => [.STR_LINK_SEL, .STR_LINK_ENTRY, .STR_CL_ECC_CORR, .STR_ROUTE_GEN]
  | .tns => [.TNS_CFG, .TNS_STATE, .TNS_PASS_COUNT, .TNS_ERR, .TNS_ROWMASK, .TNS_COLMASK, .TNS_PASSREC]
  | .tnsCluster => [.TNS_FIELDMAP, .TNS_ROUTE, .TNS_ROUTE_GEN]
  | .cor => [.COR_NUMCFG, .COR_SR_SEED, .COR_NUM_STICKY, .COR_NUM_SPECIAL]
  | .vec => [.VEC_COMB_CFG, .VEC_STATE, .VEC_ERR, .VEC_ECC_CORR, .VEC_FTAB_GEN, .VEC_FTAB]
  | .sigEngine => [.SIG_MODE, .SIG_STATE, .SIG_STATUS, .SIG_ACC, .SIG_ECC_CORR, .SIG_BASE, .SIG_LEN, .SIG_INDEX,
      .SIG_STEP]
  | .mov => [.MOV_STATE, .MOV_ERR, .MOV_CS_ECC_CORR, .MOV_DESC_COUNT, .MOV_LIMITS]
  | .vf => [.HST_VF_DOORBELL, .HST_VF_QSTAT, .HST_VF_CLR_STATUS, .HST_VF_ELAPSED, .HST_VF_ENGINE,
      .HST_VF_ND_COUNT, .HST_VF_GROUP, .HST_VF_IRQ_CTRL, .HST_VF_IRQ_PEND]

end Sys2Proof
end

