-- ==== Sys2Proof/Machine/State.lean ====
section
/-!
DEFINITION. The state of the package, as plain data: every register field, every store and queue the spec names, and the commands
that wait. The parts of one chapter stand together in a structure of Sys2Proof/Data.
-/
namespace Sys2Proof.Machine

/-- The state of one Z8 package. -/
structure State where
  /-- the commands that wait, first in first out -/
  pending : List Instr := []
  /-- time since the model's start, in fifths of a nanosecond -/
  elapsed : Nat := 0
  /-- the model's own: how many free values have been drawn -/
  freeCtr : Nat := 0
  /-- the time counter (R408, R410), in units of 1/(5·10^9·2^16) ns (Machine/Time.lean) -/
  count : Nat := 0
  /-- every stored register field that differs from its reset value, or has been written -/
  regs : Tab FKey Nat := []
  /-- chapter 16 -/
  host : HostSt := {}
  /-- chapter 15 -/
  err : ErrSt := {}
  /-- streams and routers, chapter 5 -/
  str : StreamSt := {}
  /-- vector, signal and FEC engines, chapter 4 -/
  eng : EngineSt := {}
  /-- fields of tensor engines by anchor site, chapter 2 -/
  fields : Tab Nat FieldSt := []
  /-- combining stages by site, chapter 3 -/
  comb : Tab Nat CombSt := []
  /-- stores, movers, line caches and HBM, chapter 6 -/
  mem : MemSt := {}
  /-- chapter 14 -/
  wor : WorSt := {}
  /-- the Ziura links, chapter 1 -/
  ziu : ZiuraSt := {}
  /-- contexts and lends, chapter 11 -/
  sched : SchedSt := {}
  /-- clearings, extents, loads and resets, chapters 7 and 9 -/
  ten : TenSt := {}
  /-- queues and journals, chapter 10 -/
  que : QueueMgr := {}
  /-- chapter 12 -/
  rad : RadSt := {}
  /-- chapter 13 -/
  tim : TimeSt := {}
  /-- barriers and sentinels, chapter 8 -/
  det : DetSt := {}
  /-- chapter 17 -/
  mgt : MgtSt := {}
  /-- the boot of the dies, 17.1 and 18.5 -/
  boot : BootSt := {}
  /-- the JTAG TAP, 17.7 -/
  jtag : JtagSt := {}
  /-- chapter 18 -/
  pow : PowerSt := {}
  /-- items with a failed output, and the record that says why (R466) -/
  failed : Tab ItemRef Nat := []
  /-- core stores of all sites, and cluster stores of all clusters, one after the other -/
  coreStore : Mem := []
  clusterStore : Mem := []
  deriving DecidableEq, Repr

/-- Reasons to stop with a fault. None: the spec gives every access that has nothing behind it an answer (R9, R206, R295), so no command
of the model faults. -/
inductive Fault where
  deriving DecidableEq, Repr

/-- Reasons to stop without a meaning. -/
inductive Refusal where
  /-- A command that has no meaning yet, by its mnemonic; raised by no arm of `exec`. Safe: the model stops. -/
  | notModelled (mnemonic : String)
  deriving DecidableEq, Repr

/-- The machine right after reset: POR_N has risen, boot stands at stage 0x0, every register field holds the value its table
gives, every store and queue is empty (R525, R567, log entry 1). -/
def State.reset : State := { boot := { phase := .stages } }

/-- What a command answers. -/
abbrev Out := Host.Outcome State Fault Refusal

end Sys2Proof.Machine
end

