-- ==== Sys2Proof/Machine/Ops.lean ====
section
/-!
DEFINITION. The operations every command family shares: reading and writing register fields, counters, time, error
detection.
-/
namespace Sys2Proof

/-- Whether die `d` has Ziura port `p`, and the die at its other end (R32). -/
def ziuPartner (d p : Nat) : Option Nat :=
  match p with
  | 0 => some (if d % 2 = 0 then d + 1 else d - 1)
  | 1 => if 2 ≤ d then some (d - 2) else none
  | 2 => if d ≤ 5 then some (d + 2) else none
  | _ => none

/-- The value a field holds at reset, which for the Ziura ports depends on the die (R40). -/
def Fld.resetAt (f : Fld) (u i : Nat) : Nat :=
  match f.reg with
  | .ZIU_CTRL => if (ziuPartner u f.lo).isSome then 1 else 0
  | .ZIU_PORT_STATE =>
    if f.lo = 0 then (if (ziuPartner u i).isSome then 3 else 0) else (ziuPartner u i).getD 0
  | _ => f.rst

namespace Machine

/-- The stored value of a field of the unit `u`, repeat `i`. -/
def State.rd (s : State) (f : Fld) (u : Nat := 0) (i : Nat := 0) : Nat :=
  s.regs.findD ⟨f.reg, f.lo, u, i⟩ (f.resetAt u i)

/-- A field set by the hardware; a value takes the width of the field. -/
def State.wr (s : State) (f : Fld) (v : Nat) (u : Nat := 0) (i : Nat := 0) : State :=
  { s with regs := s.regs.put ⟨f.reg, f.lo, u, i⟩ (v % 2 ^ f.w) }

/-- A flag set by the hardware. -/
def State.set1 (s : State) (f : Fld) (u : Nat := 0) (i : Nat := 0) : State := s.wr f 1 u i

/-- A flag as a truth value. -/
def State.flag (s : State) (f : Fld) (u : Nat := 0) (i : Nat := 0) : Bool := s.rd f u i != 0

/-- A saturating counter after `n` events (R11). -/
def State.bump (s : State) (f : Fld) (u : Nat := 0) (i : Nat := 0) (n : Nat := 1) : State :=
  s.wr f (min (s.rd f u i + n) (2 ^ f.w - 1)) u i

/-- A wrapping counter after one event. -/
def State.tick (s : State) (f : Fld) (u : Nat := 0) (i : Nat := 0) : State :=
  s.wr f (s.rd f u i + 1) u i

/-- Whether the active port carries requests to host memory: its link is up, and no IDE state stops it (R521). -/
def State.hostOpen (s : State) : Bool :=
  let st := if s.flag R.HST_PORT.ACTIVE then s.rd R.HST_PORT.STATE_B else s.rd R.HST_PORT.STATE_A
  let io := s.rd R.HST_IDE.IO_STATE
  let ca := s.rd R.HST_IDE.CACHE_STATE
  decide (st = 3 ∧ io ≠ 2 ∧ ca ≠ 2) && (!s.flag R.HST_CTRL.IDE_REQUIRED || decide (io = 1 ∧ ca = 1))

/-- Whether BAR 0 and BAR 2 take accesses of the host at all: out of reset, over an open link (R521, R570). -/
def State.answers (s : State) : Bool := s.hostOpen && decide (s.boot.phase = .stages)

/-- Whether the manager reaches every register of BAR 0: the package is ready (R570). -/
def State.managed (s : State) : Bool := s.answers && decide (s.rd R.MGT_STATUS.STAGE = 7)

/-- Whether configuration and DOE traffic passes: out of reset, the active link at L0 (R521, R570). -/
def State.configOpen (s : State) : Bool :=
  decide (s.boot.phase = .stages ∧ (if s.flag R.HST_PORT.ACTIVE then s.rd R.HST_PORT.STATE_B else s.rd R.HST_PORT.STATE_A) = 3)

/-- Whether a virtual function is enabled (R507). -/
def State.vfOn (s : State) (vf : Nat) : Bool := s.host.cfg.vfEnable && decide (1 ≤ vf ∧ vf ≤ s.host.cfg.numVfs)

end Machine
end Sys2Proof
end

