-- ==== Sys2Proof/Machine/Time.lean ====
section
/-!
DEFINITION. Elapsed time and the time counter (R408 to R411). `elapsed` counts fifths of a nanosecond since power-on.
`count` is the time counter in units of 1 / (5 * 10^9 * 2^16) ns, in which every scaled advance of R410 is a whole
number, so that no remainder is ever lost.
-/
namespace Sys2Proof.Machine

/-- Units of `count` in 2^-16 ns. -/
def fracUnit : Nat := 5 * 10 ^ 9

/-- Units of `count` in one nanosecond. -/
def nsUnit : Nat := fracUnit * 2 ^ 16

/-- Units of `count` in one second. -/
def secUnit : Nat := nsUnit * 10 ^ 9

/-- SEC of the time counter (R408), 64 bits. -/
def State.sec (s : State) : Nat := s.count / secUnit % 2 ^ 64

/-- NS of the time counter (R408). -/
def State.ns (s : State) : Nat := s.count % secUnit / nsUnit

/-- FRAC of the time counter (R408). -/
def State.frac (s : State) : Nat := s.count % nsUnit / fracUnit

/-- The time counter in whole nanoseconds. -/
def State.tai (s : State) : Nat := s.count / nsUnit

/-- Whether a deadline in TAI nanoseconds has passed: the counter, FRAC included, reads later (R320, R408). -/
def State.passed (s : State) (t : Nat) : Bool := t * 2 ^ 16 < s.count / fracUnit

/-- A full time in nanoseconds from a SEC_LO and an NS: completed with the upper 32 bits that bring it nearest the
counter (R409). -/
def State.complete (s : State) (secLo ns : Nat) : Nat :=
  let now := s.tai
  let hi := s.sec / 2 ^ 32
  let at_ (h : Nat) : Nat := (h * 2 ^ 32 + secLo) * 10 ^ 9 + ns
  let dist (t : Nat) : Nat := if t ≤ now then now - t else t - now
  let better (a b : Nat) : Nat := if dist b < dist a then b else a
  better (better (at_ hi) (at_ (hi + 1))) (at_ (hi - 1))

/-- The signed FREQ of TIM_FREQ. -/
def State.freq (s : State) : Int :=
  let v := s.rd R.TIM_FREQ.FREQ
  if v < 2 ^ 31 then v else (v : Int) - 2 ^ 32

/-- One period of REF_CLK passes: 6.4 ns, scaled by FREQ on the counter (R410). -/
def State.refPeriod (s : State) : State :=
  { s with elapsed := s.elapsed + 32
           count := (s.count + 32 * ((2 ^ 16 * 10 ^ 9 : Int) + s.freq)).toNat }

end Sys2Proof.Machine
end

