-- ==== Sys2Proof/Machine/Errors.lean ====
section
/-!
DEFINITION. Detecting an error (R463 to R474): its class and level, escalation, the record and the ring, the event,
and the containment of its unit. Every unit that detects an error inside its own step calls `detect`.
-/
namespace Sys2Proof

/-- CLASS of Table 15.2. -/
def ErrClass.code : ErrClass → Nat
  | .program => 0x01 | .laneParity => 0x02 | .dataUncorr => 0x03 | .scrubUncorr => 0x04 | .coreUncorr => 0x05
  | .coreHang => 0x06 | .coreWrong => 0x07 | .suspect => 0x08 | .quadrant => 0x09 | .cluster => 0x0A
  | .stack => 0x0B | .fec => 0x0C | .quad => 0x0D | .die => 0x0E | .package => 0x0F | .link => 0x10
  | .deadNode => 0x11 | .effect => 0x12 | .poison => 0x13 | .rerunLimit => 0x14 | .returnOver => 0x15
  | .orphaned => 0x16 | .streamRoute => 0x17 | .journalLost => 0x18

/-- The containment level of a class; a class without one is recorded only (R464). -/
def ErrClass.level : ErrClass → Option Nat
  | .program | .laneParity | .dataUncorr | .poison | .rerunLimit => some 0
  | .coreUncorr | .coreHang | .coreWrong | .streamRoute => some 1
  | .quadrant => some 2
  | .cluster | .stack | .fec | .quad => some 3
  | .die => some 4
  | .package => some 5
  | .scrubUncorr | .suspect | .link | .deadNode | .effect | .returnOver | .orphaned | .journalLost => none

/-- Whether unit `a` lies within unit `b` (Table 15.1). -/
def RecUnit.within (a b : RecUnit) : Bool :=
  match a, b with
  | _, .package => true
  | .row r, .row r' => r = r'
  | .row r, .quadrant q => r / 4 = q
  | .row r, .cluster c => r / 8 = c
  | .row r, .die d => r / 16 = d
  | .quadrant q, .quadrant q' => q = q'
  | .quadrant q, .cluster c => q / 2 = c
  | .quadrant q, .die d => q / 4 = d
  | .cluster c, .cluster c' => c = c'
  | .cluster c, .die d => c / 2 = d
  | .stack k, .stack k' => k = k'
  | .stack k, .die d => k / 2 = d
  | .fec c, .fec c' => c = c'
  | .fec c, .cluster c' => c = c'
  | .fec c, .die d => c / 2 = d
  | .quad q, .quad q' => q = q'
  | .quad q, .die d => q / 2 = d
  | .die d, .die d' => d = d'
  | _, _ => false

/-- The unit one level up that contains a recovery unit (R473); a level-3 unit that is no cluster escalates to its
die. -/
def RecUnit.parent : RecUnit → RecUnit
  | .row r => .quadrant (r / 4)
  | .quadrant q => .cluster (q / 2)
  | .cluster c => .die (c / 2)
  | .stack k => .die (k / 2)
  | .fec c => .die (c / 2)
  | .quad q => .die (q / 2)
  | .die _ => .package
  | .package => .package

/-- The level at which a unit is contained (Table 15.1). -/
def RecUnit.level : RecUnit → Nat
  | .row _ => 1
  | .quadrant _ => 2
  | .cluster _ | .stack _ | .fec _ | .quad _ => 3
  | .die _ => 4
  | .package => 5

/-- The site a stream port belongs to, if it is a site's. -/
def PortId.site? : PortId → Option Nat
  | .ingress s _ => some s
  | .egress s _ => some s
  | .sigIn e => some (e / 2)
  | .sigOut e => some (e / 2)
  | .fecIn _ _ => none
  | .fecOut _ _ => none

/-- The words of a record (R467, Table 15.3). -/
def ErrRecord.word (r : ErrRecord) (w : Nat) : Nat :=
  let b (x : Bool) (k : Nat) : Nat := if x then 2 ^ k else 0
  match w with
  | 0 => r.seq % 2 ^ 48 + r.cls % 256 * 2 ^ 48 + r.level % 8 * 2 ^ 56 + b r.escalated 59
  | 1 => r.sec % 2 ^ 64
  | 2 => r.ns % 2 ^ 30 + r.epoch % 2 ^ 32 * 2 ^ 32
  | 3 =>
    (if r.loc then r.die % 8 + r.cluster % 2 * 2 ^ 3 + r.site % 128 * 2 ^ 4 else 0) + r.stack % 16 * 2 ^ 11
      + r.quad % 16 * 2 ^ 15 + r.unit % 8 * 2 ^ 19 + r.sub % 256 * 2 ^ 24 + r.action % 256 * 2 ^ 32
      + (if r.owned then r.owner % 2048 * 2 ^ 40 else 0) + b r.loc 51 + b r.owned 52
  | 4 => if r.owned then r.queue % 2 ^ 20 else 0
  | 5 => if r.owned then r.item % 2 ^ 48 else 0
  | 6 => r.causeSeq % 2 ^ 48
  | 7 => r.detail % 2 ^ 64
  | _ => 0

namespace Machine

/-- A PF event: its bit is set, and where it was 0 and is enabled the PF sends its vector (R519). -/
def State.event (s : State) (f en : Fld) (vec : Nat) : State :=
  let s' := s.set1 f
  if s.flag f then s'
  else if s.flag en then { s' with host := { s'.host with sent := s'.host.sent ++ [(0, vec)] } }
  else s'

/-- The ERROR event (R469, R519). -/
def State.eventError (s : State) : State := s.event R.HST_EVENTS.ERROR R.HST_EVENT_EN.ERROR 0
/-- The IMAGE_LOAD event: a load ends (R245). -/
def State.eventImageLoad (s : State) : State := s.event R.HST_EVENTS.IMAGE_LOAD R.HST_EVENT_EN.IMAGE_LOAD 1
/-- The TENANT_RESET event: step 7 of R298 ends, or a removal sets STATE Free. -/
def State.eventTenantReset (s : State) : State :=
  s.event R.HST_EVENTS.TENANT_RESET R.HST_EVENT_EN.TENANT_RESET 2
/-- The PORT_SWITCH event: the new port reaches L0 (R500). -/
def State.eventPortSwitch (s : State) : State := s.event R.HST_EVENTS.PORT_SWITCH R.HST_EVENT_EN.PORT_SWITCH 3
/-- The IDE_FAIL event (R521). -/
def State.eventIdeFail (s : State) : State := s.event R.HST_EVENTS.IDE_FAIL R.HST_EVENT_EN.IDE_FAIL 4
/-- The CMD_DONE event: a BUSY of Table 16.7 falls. -/
def State.eventCmdDone (s : State) : State := s.event R.HST_EVENTS.CMD_DONE R.HST_EVENT_EN.CMD_DONE 5

/-- What the device keeps of a site. -/
def State.siteRec (s : State) (site : Nat) : SiteRec := s.err.sites.findD site {}

/-- The number of the current hour of the elapsed time. -/
def State.hour (s : State) : Nat := s.elapsed / (5 * 3600 * 10 ^ 9)

/-- Corrected errors of a site in the current hour. -/
def State.ceHour (s : State) (site : Nat) : Nat :=
  let r := s.siteRec site
  if r.ceStart = s.hour then r.ceHour else 0

/-- A counter of R493 counts one corrected error of a site. -/
def State.countCe (s : State) (site : Nat) : State :=
  let r := s.siteRec site
  let r := { r with ceHour := s.ceHour site + 1, ceStart := s.hour }
  { s with err := { s.err with sites := s.err.sites.put site r } }

/-- A change of a site's record; a change of its state counts in ERR_GEN (R497). -/
def State.setSite (s : State) (site : Nat) (r : SiteRec) : State :=
  let s' := { s with err := { s.err with sites := s.err.sites.put site r } }
  if (s.siteRec site).state = r.state then s' else s'.tick R.ERR_GEN.GEN

/-- Whether a unit has left service. -/
def State.isOut (s : State) (u : RecUnit) : Bool := s.err.out.any fun v => u.within v

/-- The active-site mask of a package row (R12). -/
def State.rowMask (s : State) (row : Nat) : Nat := s.err.rowMask.findD row 0x0FF

/-- Whether a site is among its row's active sites (R12) and its row's units are in service. -/
def State.siteActive (s : State) (site : Nat) : Bool :=
  (s.rowMask (Unit.rowIx site)).testBit (Unit.colOf site) && !s.isOut (.row (Unit.rowIx site))

/-- The physical columns of a row's active sites, lowest first (R12). -/
def State.activeCols (s : State) (row : Nat) : List Nat :=
  (List.range 9).filter fun c => (s.rowMask row).testBit c

/-- The site that logical column `j` of a package row occupies, if it is not vacant (R12). -/
def State.logicalSite (s : State) (row j : Nat) : Option Nat :=
  if 8 ≤ j then none else ((s.activeCols row)[j]?).map fun c => row * 9 + c

/-- The excluded site of a row that is its spare: eight active sites, the excluded one good, and its quadrant in
service (R479). -/
def State.spareOf (s : State) (row : Nat) : Option Nat :=
  if (s.activeCols row).length = 8 then
    match (List.range 9).find? fun c => !(s.rowMask row).testBit c with
    | some c => if (s.siteRec (row * 9 + c)).state = .good ∧ !s.isOut (.row row) then some (row * 9 + c) else none
    | none => none
  else none

/-- Stops the engines of one site at once (R463): vector and signal engines, and the streams' producers. The stalls of its units end with
them (R188): no wait of STR_STATE stands. -/
def State.stopSite (s : State) (site : Nat) : State :=
  let s : State := { s with regs := s.regs.filter fun e => !(e.1.reg = .STR_STATE && e.1.unit = site) }
  let s := (s.wr R.VEC_STATE.STOPPED 1 site).wr R.VEC_STATE.BUSY 0 site
  let stop (s : State) (e : Nat) : State := (s.wr R.SIG_STATE.RUNNING 0 e).wr R.SIG_STATE.STOPPED 1 e
  stop (stop s (2 * site)) (2 * site + 1)

/-- What else of a site stops at once with it (R463): its mover, its stream ports, and the field its tensor engine is a part of. -/
def State.killSites (s : State) (gone : Nat → Bool) : State :=
  { s with
    mem := { s.mem with movers := s.mem.movers.mapVal fun k m => if gone k then { m with halt := true, dead := true } else m }
    fields := s.fields.mapVal fun _ f => if f.sites.any gone then { f with stopped := true } else f
    str := { s.str with ports := s.str.ports.mapVal fun p v => if p.site?.any gone then { v with stopped := true } else v } }

/-- Active cores of a range of package rows in service. -/
def State.coresIn (s : State) (rows : List Nat) : Nat :=
  (rows.filter fun r => !s.isOut (.row r)).foldl (fun n r => n + (s.activeCols r).length) 0

/-- Units of a kind that are in service, among those the manifest listed as good. -/
def State.unitsIn (s : State) (us : List RecUnit) : Nat := (us.filter fun u => !s.isOut u).length

/-- The value of ERR_HEALTH STATE (R496, Table 15.7). -/
def State.healthState (s : State) : Nat :=
  let retired := (s.err.sites.filter fun e => e.2.state = .retired).length
  let vacant := (List.range 128).any fun r => !s.isOut (.row r) && (s.activeCols r).length < 8
  let dieOut := s.err.out.any fun u => match u with | .die _ => true | _ => false
  let quadOut := s.err.out.any fun u => match u with | .quadrant _ => true | _ => false
  if dieOut ∨ vacant ∨ 16 ≤ retired then 2
  else if s.flag R.GLB_DIE_STATE.DEGRADED ∨ quadOut then 1
  else 0

/-- The health fields after a change (R496, R497). -/
def State.refreshHealth (s : State) : State :=
  let cnt (p : SiteState) : Nat := min 255 (s.err.sites.filter fun e => e.2.state = p).length
  let spares := ((List.range 128).filter fun r => (s.spareOf r).isSome).length
  let vacant := ((List.range 128).filter fun r => !s.isOut (.row r)).foldl
    (fun n r => n + (8 - min 8 (s.activeCols r).length)) 0
  let t := s.wr R.ERR_HEALTH.STATE s.healthState
  let t := t.wr R.ERR_HEALTH.SPARES (min 255 spares)
  let t := ((t.wr R.ERR_HEALTH.SUSPECT (cnt .suspect)).wr R.ERR_HEALTH.PROBATION (cnt .probation)).wr
    R.ERR_HEALTH.RETIRED (cnt .retired)
  let t := (t.wr R.ERR_HEALTH.ORPHANS s.err.orphans.length).wr R.ERR_HEALTH.VACANT vacant
  let same (f : Fld) : Bool := s.rd f = t.rd f
  if same R.ERR_HEALTH.STATE ∧ same R.ERR_HEALTH.SPARES ∧ same R.ERR_HEALTH.SUSPECT ∧ same R.ERR_HEALTH.PROBATION
      ∧ same R.ERR_HEALTH.RETIRED ∧ same R.ERR_HEALTH.ORPHANS ∧ same R.ERR_HEALTH.VACANT
  then t else t.tick R.ERR_GEN.GEN

/-- GLB_CAPACITY from what is in service (R43, R44); the change count follows a change of it or of GLB_DIE_STATE,
which `before` holds as it was. -/
def State.refreshCapacity (s before : State) : State :=
  let t := s.wr R.GLB_CAPACITY.CORES (s.coresIn (List.range 128))
  let t := t.wr R.GLB_CAPACITY.CLUSTERS (s.unitsIn ((List.range 16).map .cluster))
  let t := t.wr R.GLB_CAPACITY.DIES (s.unitsIn ((List.range 8).map .die))
  let t := t.wr R.GLB_CAPACITY.STACKS (s.unitsIn ((List.range 16).map .stack))
  let t := t.wr R.GLB_CAPACITY.QUADS (s.unitsIn ((List.range 16).map .quad))
  let t := t.wr R.GLB_CAPACITY.FEC (s.unitsIn ((List.range 16).map .fec))
  let same (f : Fld) : Bool := before.rd f = t.rd f
  let dies := (List.range 8).all fun d => same (R.GLB_DIE_STATE.DIE d)
  let t := if dies ∧ same R.GLB_DIE_STATE.DEGRADED ∧ same R.GLB_DIE_STATE.CHIEF ∧ same R.GLB_CAPACITY.CORES
      ∧ same R.GLB_CAPACITY.CLUSTERS ∧ same R.GLB_CAPACITY.DIES ∧ same R.GLB_CAPACITY.STACKS
      ∧ same R.GLB_CAPACITY.QUADS ∧ same R.GLB_CAPACITY.FEC
    then t else t.tick R.GLB_CAP_GEN.GEN
  t.refreshHealth

/-- The pulses in progress at the toll pins end, as no die drives them now (R425); a once toll has had its pulse. -/
def State.endPulses (s : State) : State :=
  s.tim.tolls.foldl (fun s e =>
    match e.2.pulseEnd with
    | none => s
    | some _ =>
      if s.flag R.TIM_TOLL_CTRL.PERIODIC 0 e.1 then
        { s with tim := { s.tim with tolls := s.tim.tolls.put e.1 { e.2 with pulseEnd := none } } }
      else
        let s := (s.wr R.TIM_TOLL_CTRL.EN 0 0 e.1).wr R.TIM_TOLL_STAT.ARMED 0 0 e.1
        { s with tim := { s.tim with tolls := s.tim.tolls.del e.1 } }) s

/-- Sites that leave service with a unit above a row: they read Contained unless they were worse (Table 15.6). -/
def State.containSites (s : State) (sites : List Nat) : State :=
  sites.foldl (fun s k =>
    let r := s.siteRec k
    let s := s.stopSite k
    match r.state with
    | .good | .suspect | .probation => s.setSite k { r with state := .contained }
    | _ => s) (s.killSites sites.contains)

/-- What the device keeps of a destination node. -/
def State.dest (s : State) (n : Nat) : DestSt := s.wor.dests.findD n {}

/-- The same changed. -/
def State.setDest (s : State) (n : Nat) (d : DestSt) : State := { s with wor := { s.wor with dests := s.wor.dests.put n d } }

/-- A request toward a node (R437): it takes the next sequence while the window of 1,024 has room, and waits otherwise,
as does one toward a dead node, which DEAD_TARGET ends (R453). -/
def State.askFabric (s : State) (p : Packet) (w : FabricWait) : State :=
  let d := s.dest p.dst
  s.setDest p.dst (if d.dead ∨ !d.waiting.isEmpty ∨ 1024 ≤ d.inPlay then
      { d with waiting := d.waiting ++ [(p, w, s.elapsed)] }
    else d.number p w s.elapsed)

/-- Of the requests that the INV command waits for, a node's next `k` have been acknowledged (R443); the INV leaves when none is
left. -/
def State.passFence (s : State) (n k : Nat) : State :=
  match s.wor.inv with
  | none => s
  | some (p, fence) =>
    let fence := (fence.modify n fun m => m - k).keep fun _ m => m ≠ 0
    if fence.isEmpty then ({ s with wor := { s.wor with inv := none } } : State).askFabric p .inv
    else { s with wor := { s.wor with inv := some (p, fence) } }

/-- The requests of a kind to every node are answered to no one (R298, R301). -/
def State.forgetFabric (s : State) (go : FabricWait → Bool) : State :=
  ({ s with wor := s.wor.forget go } : State).passFence 0 0

/-- The incarnation changes (R440), at a die containment or a warm reset: every request that is not acknowledged goes again
under it, from sequence 1 toward each node (R458). -/
def State.newIncarnation (s : State) : State :=
  let v := s.rd R.WOR_STATUS.INCARN
  let w := v / 256 * 256 + (v + 1) % 256
  let s := s.wr R.WOR_STATUS.INCARN w
  let ds := s.wor.dests.mapVal fun _ d => d.renumber w
  { s with wor := { s.wor with dests := ds } }

/-- Every node served through the lowest port of its mask that is up; PORTS_UP shows how many ports are, and WOR_GEN a change
of a node's port. -/
def State.rerouteAll (s : State) : State :=
  let up (q : Nat) : Bool := s.rd R.WOR_P_STATE.STATE q = 3
  let ds := s.wor.dests.mapVal fun _ d => d.reroute up
  let s := s.wr R.WOR_STATUS.PORTS_UP ((List.range 16).filter up).length
  let t : State := { s with wor := { s.wor with dests := ds } }
  if ds = s.wor.dests then s else t.tick R.WOR_GEN.GEN

/-- A Woruri port takes a state (Table 14.10) that is not up; the nodes it served are re-routed (R431). A packet that waits
at its stalled input is lost with the link, and its source sends it again. -/
def State.worDown (s : State) (q st : Nat) : State :=
  let s := s.wr R.WOR_P_STATE.STATE st q
  let t : State := { s with wor := { s.wor with links := s.wor.links.del q } }
  t.rerouteAll

/-- The dirty lines of a stack in every line cache (R484). -/
def State.dirtyLines (s : State) (k : Nat) : Nat :=
  s.mem.lc.foldl (fun n e => n + (e.2.lines.filter fun l => l.dirty && match l.key with
    | .hbm x => x / 2 ^ 28 = k
    | .wor _ => false).length) 0

/-- DIRTY of every line cache counts its dirty lines (Table 6.12). -/
def State.refreshDirty (s : State) : State :=
  s.mem.lc.foldl (fun s e => s.wr R.HBM_LC_STATE.DIRTY (e.2.lines.filter fun l => l.dirty).length e.1) s

/-- A stack's lines in every line cache are dropped, and the writes on their way to it (R484); the requests of movers wait for their
Failed answers. -/
def State.dropStackLines (s : State) (k : Nat) : State :=
  let mine (x : LineKey) : Bool := match x with | .hbm n => n / 2 ^ 28 = k | .wor _ => false
  let fill (f : Fill) : Fill := if mine f.key then { f with data := none, dirty := false } else f
  let t : State := { s with mem := { s.mem with
      lc := s.mem.lc.mapVal fun _ c => { c with lines := c.lines.filter fun l => !mine l.key, fills := c.fills.map fill
                                                lost := c.lost.filter fun x => !mine x
                                                inq := c.inq.filter fun r => !mine r.key || r.mover.isSome }
      wb := s.mem.wb.filter fun w => w.line / 2 ^ 28 ≠ k } }
  t.refreshDirty

/-- The line cache of a die goes with it. -/
def State.dropCache (s : State) (d : Nat) : State :=
  let t : State := { s with mem := { s.mem with lc := s.mem.lc.modify d fun c => { c with lines := [], lost := [] } } }
  t.refreshDirty

/-- A host port goes with its die (Table 16.7): its STATE reads unavailable, and the link of an active one is down. -/
def State.hostPortOut (s : State) (p : Nat) : State :=
  let s := s.wr (if p = 0 then R.HST_PORT.STATE_A else R.HST_PORT.STATE_B) 5
  if s.rd R.HST_PORT.ACTIVE ≠ p then s
  else
    let s := (s.wr R.HST_PORT.WIDTH 0).wr R.HST_PORT.SPEED 0
    { s with host := { s.host with down := some (s.host.down.getD s.elapsed) } }

/-- What the clearings in the drain of a reset still wait for on sites or stacks that leave service is squashed at once (R301,
Table 9.5). -/
def State.squashOn (s : State) (site : Nat → Bool) (stack : Nat → Bool) : State :=
  let draining (o : Nat) : Bool := (s.ten.resets.find o).any fun r => r.step = .drain
  let line (k : LineKey) : Bool := match k with
    | .hbm l => stack (l / 2 ^ 28)
    | .wor _ => false
  let one (r : LcReq) : LcReq :=
    { r with mover := r.mover.map fun m =>
        if draining m.2.owner ∧ (site m.1 ∨ line r.key) then (m.1, { m.2 with squashed := true }) else m }
  let wait (w : FabricWait) : Bool := match w with
    | .write a r => site a && draining r.owner
    | _ => false
  { s.forgetFabric wait with
    mem := { s.mem with lc := s.mem.lc.mapVal fun _ c =>
      { c with inq := c.inq.map one, fills := c.fills.map fun f => { f with waiting := f.waiting.map one } } }
    ten := { s.ten with resets := s.ten.resets.mapVal fun _ r =>
      if r.step = .drain then { r with left := r.left.filter fun x => !site x.1 } else r } }

/-- A unit leaves service (R463, R483 to R487). For level 1 the site stops; its row's mapping moves when the recovery
runs (R480, R481). -/
def State.contain (s : State) (u : RecUnit) (site : Option Nat) : State :=
  let s := s.squashOn
    (fun a => match u with
      | .row _ => site = some a
      | u => (RecUnit.row (Unit.rowIx a)).within u)
    (fun k => (RecUnit.stack k).within u)
  match u with
  | .row _ =>
    match site with
    | some k =>
      let r := s.siteRec k
      let s := (s.stopSite k).killSites fun a => a = k
      (if r.state = .retired then s else s.setSite k { r with state := .failed }).refreshHealth
    | none => s
  | .package => { s with err := { s.err with packageStop := true } }
  | u =>
    let t := { s with err := { s.err with out := u :: s.err.out } }
    let t := match u with
      | .quadrant q => t.containSites ((List.range 36).map fun k => q * 36 + k)
      | .cluster c => ((t.containSites ((List.range 72).map fun k => c * 72 + k)).wr R.CLU_STATE.IN_SERVICE 0 c).wr
          R.FEC_CTRL.IN_SERVICE 0 c
      | .stack k => (t.dropStackLines k).wr R.HBM_STATE.IN_SERVICE 0 k
      | .fec c => t.wr R.FEC_CTRL.IN_SERVICE 0 c
      | .quad q => (t.wr R.RAD_Q_LINK.STATE 0 q).worDown q 0
      | .die d =>
        let t := t.containSites ((List.range 144).map fun k => d * 144 + k)
        let t := (t.wr (R.GLB_DIE_STATE.DIE d) 2).wr R.HBM_LC_STATE.IN_SERVICE 0 d
        let t := ((t.dropStackLines (2 * d)).dropStackLines (2 * d + 1)).dropCache d
        let t := if d = 0 then t.hostPortOut 0 else if d = 7 then t.hostPortOut 1 else t
        [2 * d, 2 * d + 1].foldl (fun t k => ((((t.wr R.CLU_STATE.IN_SERVICE 0 k).wr R.FEC_CTRL.IN_SERVICE 0 k).wr
          R.HBM_STATE.IN_SERVICE 0 k).wr R.RAD_Q_LINK.STATE 0 k).worDown k 0) t.newIncarnation
      | _ => t
    let t := match u with
      | .die d =>
        let t := { t with ziu := { t.ziu with due := true } }
        if d = 0 ∨ (d = 7 ∧ t.tim.taken) then t.endPulses else t
      | _ => t
    let t := match u with
      | .quadrant _ => t
      | _ => t.set1 R.GLB_DIE_STATE.DEGRADED
    t.refreshCapacity s

/-- The record written into the ring, its mirror and ERR_LAST of the detecting die, and the error event (R469). -/
def State.writeRecord (s : State) (die : Nat) (r : ErrRecord) : State :=
  let slot := r.seq % 65536
  let lost := match s.err.ring.find slot with
    | some o => decide (s.rd R.ERR_RING_ACK.ACK < o.seq)
    | none => false
  let s := { s with err := { s.err with ring := s.err.ring.put slot r, last := s.err.last.put die r } }
  let s := s.wr R.ERR_STATUS.NEXT_SEQ (r.seq + 1)
  let s := if lost then s.bump R.ERR_RING_LOST.COUNT else s
  let f := match r.level with
    | 0 => R.ERR_COUNTS_A.L0 | 1 => R.ERR_COUNTS_A.L1 | 2 => R.ERR_COUNTS_A.L2 | 3 => R.ERR_COUNTS_A.L3
    | 4 => R.ERR_COUNTS_B.L4 | 5 => R.ERR_COUNTS_B.L5 | _ => R.ERR_COUNTS_B.NONE
  let s := s.bump f
  let s := if r.escalated then s.bump R.ERR_COUNTS_B.ESCALATED else s
  s.eventError

/-- The action a record names when the report names none (Table 15.4). -/
def State.defaultAction (s : State) (level : Option Nat) (u : Option RecUnit) (site : Option Nat) : Nat :=
  match level, u with
  | none, _ => 0
  | some 0, _ => 1
  | some _, some (.row r) =>
    match site with
    | some k => if !s.siteActive k then 0x0D else if (s.spareOf r).isSome then 2 else 3
    | none => 0
  | some _, some (.quadrant _) => 4
  | some _, some (.cluster _) => 5
  | some _, some (.stack _) | some _, some (.fec _) | some _, some (.quad _) => 6
  | some _, some (.die _) => 7
  | some _, some .package => 8
  | some _, none => 0

/-- Puts a chain into the recovery queue in the order of its first error (R471). -/
def insertChain (c : Chain) (q : List Chain) : List Chain :=
  match q with
  | [] => [c]
  | h :: t => if c.first < h.first then c :: h :: t else h :: insertChain c t

/-- The recovery an error at unit `u` escalates from, if it lies within one (R473). -/
def State.chainAt (s : State) (u : RecUnit) : Option Chain :=
  (s.err.running.toList ++ s.err.queue).find? fun c => u.within c.unit

/-- Whether a unit is the die of the chief controller while there is one to lose (R473, R531). -/
def State.chiefsDie (s : State) (u : RecUnit) : Bool :=
  decide (u = .die (s.rd R.GLB_DIE_STATE.CHIEF)) && decide (5 ≤ s.rd R.MGT_STATUS.STAGE ∧ s.rd R.MGT_STATUS.STAGE ≤ 7)

/-- The chief's die is lost (R531): the other die controllers elect a new chief, who contains it. `sub` is the SUB of its record, 0
where a chain has escalated to it and its record is written. -/
def State.loseChief (s : State) (sub : Nat) : State :=
  if s.boot.lostChief.isSome then s
  else { s with boot := { s.boot with lostChief := some sub, electStart := s.elapsed, roundDue := s.elapsed, heard := 0, rounds := 0 } }

/-- A chain has escalated to a unit (R473): it is contained, the chief's own die by the chief elected after it (R531). -/
def State.escalate (s : State) (v : RecUnit) : State := if s.chiefsDie v then s.loseChief 0 else s.contain v none

/-- A unit detects an error: the record and the containment of R464 to R474. Answers the state and the sequence of the
record. -/
def State.detect (s : State) (i : ErrInfo) : State × Nat :=
  let seq := max 1 (s.rd R.ERR_STATUS.NEXT_SEQ)
  let base : ErrRecord :=
    { seq := seq, cls := i.cls.code, sec := s.sec, ns := s.ns, epoch := s.rd R.QUE_EPOCH.EPOCH
      die := (i.site.map Unit.dieOf).getD i.die, cluster := (i.site.map fun k => Unit.clusterOf k % 2).getD 0
      site := (i.site.map Unit.siteIx).getD 0, stack := if i.cls = .stack then i.stack else 0
      quad := if i.cls = .quad then i.quad else 0, unit := i.unit, sub := i.sub
      owner := i.owner.getD 0, loc := i.site.isSome, owned := i.owner.isSome
      queue := (i.item.map ItemRef.queue).getD 0, item := (i.item.map ItemRef.item).getD 0
      causeSeq := i.causeSeq, detail := i.detail }
  match i.cls.level, i.recUnit with
  | some (l + 1), some u =>
    match s.chainAt u with
    | some c =>
      let v := c.unit.parent
      let r := { base with level := v.level, escalated := true, causeSeq := c.first,
                           action := s.defaultAction (some (l + 1)) (some v) i.site }
      let q := (s.err.queue.filter fun d => d.first ≠ c.first ∧ !d.unit.within v)
      let run := s.err.running.filter fun d => d.first ≠ c.first
      let s := { s with err := { s.err with queue := insertChain ⟨c.first, v.level, v, none⟩ q, running := run } }
      ((s.escalate v).writeRecord i.die r, seq)
    | none =>
      if 256 ≤ s.err.queue.length then
        let r := { base with cls := ErrClass.package.code, sub := 2, level := 5, action := 8, stack := 0, quad := 0, detail := 0 }
        let s := { s with err := { s.err with queue := [⟨seq, 5, .package, none⟩] } }
        ((s.contain .package none).writeRecord i.die r, seq)
      else
        let r := { base with level := u.level, action := i.action.getD (s.defaultAction (some (l + 1)) (some u) i.site) }
        let q := s.err.queue.filter fun d => !d.unit.within u
        let s := { s with err := { s.err with queue := insertChain ⟨seq, u.level, u, i.site⟩ q } }
        ((s.contain u i.site).writeRecord i.die r, seq)
  | lvl, u =>
    let r := { base with level := lvl.getD 7, action := i.action.getD (s.defaultAction lvl u i.site) }
    (s.writeRecord i.die r, seq)

/-- Marks an item of the running pipeline Failed by a record; the lowest sequence stands (R465, R468). -/
def State.failItem (s : State) (it : Option ItemRef) (seq : Nat) : State :=
  match it with
  | none => s
  | some k =>
    match s.failed.find k with
    | some q => { s with failed := s.failed.put k (min q seq) }
    | none => { s with failed := s.failed.put k seq }

/-- The item of a queue whose sequence a tag's SEQ stands for (R170): the unique value in [oldest, oldest + 2^19) with those
low 20 bits, where the oldest item of the queue still in its pipeline is the oldest released and not finished. -/
def State.itemAt (s : State) (item : Option ItemRef) (seq : Nat) : Option ItemRef :=
  item.bind fun it => (s.que.queues.find it.queue).bind fun v =>
    ((v.items.filterMap fun e => if e.2.released ∧ e.2.finish.isNone then some e.1 else none).min?).bind fun o =>
      let d := (seq + 2 ^ 20 - o % 2 ^ 20) % 2 ^ 20
      if d < 2 ^ 19 then some { it with item := o + d } else none

/-- A level-0 error of an item: the record, and the item Failed (R465). -/
def State.failWith (s : State) (i : ErrInfo) : State :=
  let (s, seq) := s.detect i
  s.failItem i.item seq

/-- The owner of the context resident on a site, where one is (R580, STR_SITE). -/
def State.siteOwner (s : State) (site : Nat) : Option Nat :=
  let o := s.rd R.STR_SITE.OWNER site
  if o = 0x7FF then none else some o

/-- Error information located at a site, owned by the context resident there. -/
def State.atSite (s : State) (cls : ErrClass) (sub site unit : Nat) (item : Option ItemRef) : ErrInfo :=
  { cls := cls, sub := sub, die := Unit.dieOf site, site := some site, unit := unit, owner := s.siteOwner site,
    item := item, recUnit := some (.row (Unit.rowIx site)) }

/-- The status a unit takes from an input (R169): Absent and Late mean Failed to a unit that serves no glade, which
records it. Answers the sequence of that record, where there is one. -/
def State.servedStatus (s : State) (glade : Bool) (owner site : Nat) (st : TagStatus) : State × TagStatus × Option Nat :=
  if !glade ∧ (st = .absent ∨ st = .late) then
    let (s, q) := (s.set1 R.STR_ERR.STATUS_CLASS site).detect { s.atSite .program 6 site 7 none with owner := some owner }
    (s, .failed, some q)
  else (s, st, none)

/-- Counts `n` violations of an owner (R296). An owner value that no clearing holds counts in SCH_VIOL_UNBOUND (R282);
the manager's own value has no counter and adds there as well (log entry 32). -/
def State.violate (s : State) (f : Fld) (owner : Nat) (n : Nat := 1) : State :=
  if n = 0 then s
  else if owner < 1024 ∧ s.rd R.SCH_TEN_CFG.STATE 0 owner ≠ 0 then s.bump f 0 owner n
  else s.bump R.SCH_VIOL_UNBOUND.COUNT 0 0 n

end Machine
end Sys2Proof
end

