-- ==== Sys2Proof/Machine/HostAccess.lean ====
section
/-!
DEFINITION. Host memory as the device's agents reach it (16.5): the function an owner's accesses go through, translations,
and writes.
-/
namespace Sys2Proof.Machine

/-- The function through which an owner reaches host memory (R514): the PF for the manager, the bound VF of a clearing with
REACH 0b01 unless it lies above NumVFs. -/
def State.hostFn (s : State) (owner : Nat) : Option Nat :=
  if owner = 0x7FF then some 0
  else if owner < 1024 ∧ s.rd R.SCH_TEN_CFG.REACH 0 owner = 1 then
    let v := s.rd R.SCH_TEN_CFG.VF 0 owner
    if v ≤ s.host.cfg.numVfs then some v else none
  else none

/-- The die of the active port. -/
def State.activeDie (s : State) : Nat := if s.flag R.HST_PORT.ACTIVE then 7 else 0

/-- Data that the device's own agents read come poisoned (R517): a POISON record with SUB 0x02 and its sequence number, and HST_POISON. -/
def State.hostPoison (s : State) : State × Nat :=
  let (t, seq) := s.detect { cls := .poison, sub := 2, die := s.activeDie, unit := 7 }
  (t.bump R.HST_POISON.COUNT, seq)

/-- The translation of a page of a function, with the permission an access needs. -/
def State.xlatOf (s : State) (fn page : Nat) (write : Bool) : Option Xlat :=
  s.host.xlat.find? fun x => x.fn = fn && x.page = page && (if write then x.write else x.read)

/-- The writes that wait go out, oldest first, where the link is open and their translation is held. -/
def State.flushHost (s : State) : State :=
  if !s.hostOpen then s
  else s.host.waiting.foldl (fun (s : State) w =>
    match s.xlatOf w.fn (w.addr / 4096) true with
    | some x =>
      let t : State := { s with host := { s.host with writes := s.host.writes ++ [(x.tr * 4096 + w.addr % 4096, w.bytes)] } }
      w.rx.elim t fun q => t.tick R.TIM_Q_RXIDX.PROD 0 q
    | none => { s with host := { s.host with waiting := s.host.waiting ++ [w] } }) { s with host := { s.host with waiting := [] } }

/-- A write of an agent to host memory; one that no function carries is not sent (R514). `rx` names the quad whose receive ring the write
fills a slot of. -/
def State.hostWrite (s : State) (owner a : Nat) (bs : List Byte) (rx : Option Nat := none) : State :=
  match s.hostFn owner with
  | none => s.violate R.SCH_TEN_VIOL.MEM owner
  | some fn =>
    let w : HostWrite := { fn := fn, owner := owner, addr := a, bytes := bs, rx := rx }
    let t : State := { s with host := { s.host with waiting := s.host.waiting ++ [w] } }
    t.flushHost

/-- A message of a virtual function (R513): sent, or held back until its hold-off ends. -/
def State.vfMessage (s : State) (vf v : Nat) : State :=
  let gap := s.rd R.HST_VF_IRQ_CTRL.HOLDOFF_US 0 vf * 5000
  match s.host.lastMsg.find (vf, v) with
  | some t =>
    if s.elapsed < t + gap then
      if s.host.holdoff.contains (vf, v) then s else { s with host := { s.host with holdoff := s.host.holdoff ++ [(vf, v)] } }
    else { s with host := { s.host with sent := s.host.sent ++ [(vf, v)], lastMsg := s.host.lastMsg.put (vf, v) s.elapsed } }
  | none => { s with host := { s.host with sent := s.host.sent ++ [(vf, v)], lastMsg := s.host.lastMsg.put (vf, v) s.elapsed } }

/-- COMMITTED has advanced on a mapped queue of an owner: bit i mod 4 of its VF's pending bits (Table 16.6, R513). -/
def State.vfCommit (s : State) (owner loc : Nat) : State :=
  if s.rd R.SCH_TEN_CFG.REACH 0 owner ≠ 1 then s
  else
    let vf := s.rd R.SCH_TEN_CFG.VF 0 owner
    let v := loc % 4
    let p := s.rd R.HST_VF_IRQ_PEND.PEND 0 vf
    if p.testBit v then s
    else
      let s := s.wr R.HST_VF_IRQ_PEND.PEND (p + 2 ^ v) 0 vf
      if (s.rd R.HST_VF_IRQ_CTRL.EN 0 vf).testBit v then s.vfMessage vf v else s

end Sys2Proof.Machine
end

