-- ==== Sys2Proof/Machine/Sites.lean ====
section
/-!
DEFINITION. Where contexts lie (11.1), the records of contexts, and what ends a block (R354).
-/
namespace Sys2Proof

/-- Engines high and wide of a shape code (Table 2.2). -/
def shapeDims (code : Nat) : Option (Nat × Nat) :=
  match code with
  | 0 => some (1, 1) | 1 => some (2, 2) | 2 => some (4, 4) | 3 => some (8, 8) | 4 => some (1, 8) | _ => none

/-- Rows and columns of engines of a shape. -/
def ImgShape.dims (v : ImgShape) : Nat × Nat := if v.loose then (1, 1) else (shapeDims v.code).getD (1, 1)

/-- The logical cores of a shape at an anchor. -/
def coresAt (v : ImgShape) (a : Nat × Nat) : List (Nat × Nat) :=
  (List.range v.dims.1).flatMap fun i => (List.range v.dims.2).map fun j => (a.1 + i, a.2 + j)

/-- Rows and columns of engines of a context. -/
def Ctx.dims (c : Ctx) : Nat × Nat := if c.loose then (1, 1) else (shapeDims c.code).getD (1, 1)

/-- The logical cores of a context, row by row. -/
def Ctx.cores (c : Ctx) : List (Nat × Nat) :=
  (List.range c.dims.1).flatMap fun i => (List.range c.dims.2).map fun j => (c.row + i, c.col + j)

/-- Number of cores. -/
def Ctx.size (c : Ctx) : Nat := c.dims.1 * c.dims.2

/-- Whether a context occupies its cores: it is moving onto them, on them, or moving off them. -/
def Ctx.onCores (c : Ctx) : Bool := c.res = .restoring || c.res = .resident || c.res = .saving

/-- Whether a context rests, in save slots or a lend window. -/
def Ctx.rests (c : Ctx) : Bool := c.res = .saved || c.res = .parked

namespace Machine

/-- Byte address in the model's core-store memory of an offset in a site's core store. -/
def coreAddr (site off : Nat) : Nat := site * 0x200000 + off

/-- Size of a core store in bytes (Table 6.1). -/
def coreStoreSize : Nat := 0x180000

/-- The record of a context. -/
def State.ctx (s : State) (k : Nat × Nat) : Option Ctx := s.sched.ctxs.find k

/-- SCH_GEN: a placement, residency state or tag has changed. -/
def State.schedGen (s : State) : State := s.tick R.SCH_GEN.GEN

/-- The resident time of a group (Table 16.6) after a change of its contexts. -/
def State.markGroup (s : State) (o g : Nat) : State :=
  let on := s.sched.ctxs.any fun e => e.1.1 = o && e.2.group = g && e.2.res = .resident
  let v := s.sched.groups.findD (o, g) (0, none)
  match on, v.2 with
  | true, none => { s with sched := { s.sched with groups := s.sched.groups.put (o, g) (v.1, some s.elapsed) } }
  | false, some t => { s with sched := { s.sched with groups := s.sched.groups.put (o, g) (v.1 + (s.elapsed - t), none) } }
  | _, _ => s

/-- A context changed; a change of its residency counts in SCH_GEN. -/
def State.setCtx (s : State) (k : Nat × Nat) (c : Ctx) : State :=
  let same := match s.ctx k with | some o => decide (o.res = c.res) | none => false
  let s := { s with sched := { s.sched with ctxs := s.sched.ctxs.put k c } }
  if same then s else s.schedGen.markGroup k.1 c.group

/-- The site a logical core of a context occupies, if it is not vacant. -/
def State.coreSite (s : State) (c : Ctx) (rc : Nat × Nat) : Option Nat := s.logicalSite (c.cluster * 8 + rc.1) rc.2

/-- The sites of a context, row by row. -/
def State.ctxSites (s : State) (c : Ctx) : List Nat := c.cores.filterMap (s.coreSite c)

/-- Whether a borrow context is on a site (R368). -/
def State.borrowAt (s : State) (site : Nat) : Bool :=
  s.sched.ctxs.any fun e => e.2.kind = .borrow && e.2.onCores && (s.ctxSites e.2).contains site

/-- The contexts on the cores of a cluster. -/
def State.ctxsOf (s : State) (cluster : Nat) : List ((Nat × Nat) × Ctx) := s.sched.ctxs.filter fun e => e.2.cluster = cluster

/-- A cluster owes a decision (R352). -/
def State.decide_ (s : State) (cluster : Nat) : State :=
  if s.sched.due.contains cluster then s else { s with sched := { s.sched with due := s.sched.due ++ [cluster] } }

/-- Something a stalled core waited for has come: the stalls and blocks of the contexts resident on its site end (R354), and the
cluster of one that was blocked owes a decision (R352). -/
def State.unblockAt (s : State) (site : Nat) : State :=
  (s.ctxsOf (Unit.clusterOf site)).foldl (fun s e =>
    if e.2.res = .resident ∧ (e.2.blocked.isSome ∨ e.2.stall.isSome) ∧ (s.ctxSites e.2).contains site then
      let s := s.setCtx e.1 { e.2 with blocked := none, stall := none }
      if e.2.blocked.isSome then s.decide_ e.2.cluster else s
    else s) s

end Machine
end Sys2Proof
end

