-- ==== Sys2Proof/Machine/Streams.lean ====
section
/-!
DEFINITION. Streams (chapter 5): sending, forwarding, arriving and reading flits, credits, reservations, and the
owner and error checks made at every arrival.
-/
namespace Sys2Proof

/-- The rank of a status (Table 5.3). -/
def TagStatus.rank : TagStatus → Nat
  | .good => 0 | .absent => 1 | .late => 2 | .failed => 3

/-- The higher-ranked of two statuses (R168). -/
def TagStatus.join (a b : TagStatus) : TagStatus := if a.rank < b.rank then b else a

/-- The completion code of a status (Table 5.3). -/
def TagStatus.completion : TagStatus → Nat
  | .good => 0x0 | .absent => 0x4 | .late => 0x1 | .failed => 0x3

/-- The tag as a 64-bit word (Table 5.2). -/
def Tag.word (t : Tag) : Nat :=
  let b (x : Bool) (k : Nat) : Nat := if x then 2 ^ k else 0
  t.owner % 2048 + t.stream % 4096 * 2 ^ 11 + t.granule % 65536 * 2 ^ 23 + b t.bank 39 + b t.eop 40 + b t.eoi 41
    + t.status.rank * 2 ^ 42 + t.seq % 2 ^ 20 * 2 ^ 44

/-- The lower of two record sequences. -/
def minErr (a b : Option Nat) : Option Nat :=
  match a, b with
  | some x, some y => some (min x y)
  | some x, none => some x
  | none, y => y


/-- The package cluster a stream port belongs to. -/
def PortId.cluster : PortId → Nat
  | .ingress s _ => Unit.clusterOf s
  | .egress s _ => Unit.clusterOf s
  | .sigIn e => Unit.clusterOf (e / 2)
  | .sigOut e => Unit.clusterOf (e / 2)
  | .fecIn c _ => c
  | .fecOut c _ => c

/-- PORT of a route entry for a local consumer, 0 for a FEC block's port (Table 5.7). -/
def PortId.localIx : PortId → Nat
  | .ingress _ p => p
  | .sigIn e => 8 + e % 2
  | _ => 0

/-- Whether a port is a FEC block's. -/
def PortId.isFec : PortId → Bool
  | .fecIn _ _ | .fecOut _ _ => true
  | _ => false

/-- log2 of a port's depth: 16 entries at a FEC block, the image's depth elsewhere (R163, Table 5.1). -/
def PortId.depthLog2 (p : PortId) (image : Nat) : Nat := if p.isFec then 4 else image

/-- What a consumer knows of its item once a flit has come (R168, R170): the flit's sequence, the highest status of the item's
flits, and their lowest record. -/
def Entry.after (old new : Entry) : Entry :=
  if old.tag.seq = new.tag.seq then
    { tag := { seq := new.tag.seq, status := old.tag.status.join new.tag.status }, words := [], err := minErr old.err new.err }
  else { tag := { seq := new.tag.seq, status := new.tag.status }, words := [], err := new.err }

/-- Element codes, each with its width in bits, as 64-bit words: DESIGN CHOICE (log entry 141), packed without gaps from bit 0 on, the
first element lowest. -/
def packCodes (l : List (Nat × Nat)) : List Nat :=
  let v := l.foldr (fun x acc => x.1 % 2 ^ x.2 + 2 ^ x.2 * acc) 0
  (List.range ((l.foldl (fun n x => n + x.2) 0 + 63) / 64)).map fun k => v / 2 ^ (64 * k) % 2 ^ 64

/-- The flit that a unit's output makes of payload words: sequence and status come from what it is formed from, sequence from the first
of it (R165, R168). -/
def OutFlit.entry (o : OutFlit) (words : List Nat) (ins : List Entry) : Entry :=
  { tag := { seq := (ins.head?.map fun e => e.tag.seq).getD 0, eoi := o.last
             status := ins.foldl (fun st e => st.join e.tag.status) o.own }
    words := ((words ++ [0, 0, 0, 0]).take 4), err := ins.foldl (fun q e => minErr q e.err) none }

/-- Sequences of ended items with one more; one that lies 2^19 or more behind belongs to no item still in the pipeline (R170). -/
def endItem (l : List Nat) (n : Nat) : List Nat := n :: l.filter fun k => decide ((n + 2 ^ 20 - k) % 2 ^ 20 < 2 ^ 19) && k != n

/-- The side from which a neighbour receives what is sent in a direction. -/
def Dir.opposite : Dir → Dir
  | .east => .west | .west => .east | .north => .south | .south => .north | .localPort => .localPort

/-- The neighbour of a site in a direction of the physical grid; north is toward row 0 (5.4). -/
def neighbour (site : Nat) (d : Dir) : Option Nat :=
  match d with
  | .east => if Unit.colOf site < 8 then some (site + 1) else none
  | .west => if 0 < Unit.colOf site then some (site - 1) else none
  | .north => if 0 < Unit.rowOf site then some (site - 9) else none
  | .south => if Unit.rowOf site < 7 then some (site + 9) else none
  | .localPort => none

/-- The site at which a stream leaves the network: its consumer's, or for a FEC block's port its producer's (log
entry 31). -/
def StreamRec.consumerSite (r : StreamRec) : Option Nat :=
  match r.consumer.site? with
  | some k => some k
  | none => r.producer.site?

/-- The site at which a stream enters the network. -/
def StreamRec.producerSite (r : StreamRec) : Option Nat :=
  match r.producer.site? with
  | some k => some k
  | none => r.consumer.site?

namespace Machine

/-- The record of a bound port. -/
def State.port (s : State) (p : PortId) : Option Port := s.str.ports.find p

/-- A bound port changed. -/
def State.setPort (s : State) (p : PortId) (v : Port) : State :=
  { s with str := { s.str with ports := s.str.ports.put p v } }

/-- The record of a stream of a package cluster. -/
def State.stream (s : State) (c n : Nat) : Option StreamRec := s.str.streams.find (c, n)

/-- The input buffer of a router. -/
def State.buf (s : State) (k : BufKey) : List Entry := s.str.bufs.findD k []

/-- An input buffer changed. -/
def State.setBuf (s : State) (k : BufKey) (l : List Entry) : State :=
  { s with str := { s.str with bufs := if l.isEmpty then s.str.bufs.del k else s.str.bufs.put k l } }

/-- The port at an end of a stream, where the context that binds it there stands: a context of another clearing may bind the same port
of the site to a stream of its own (R175). -/
def State.endPort (s : State) (p : PortId) (n : Nat) : Option Port := (s.port p).filter fun v => v.stream = n

/-- Slots of one input buffer for each class of stream (5.5). -/
def bufDepth : Nat := 4

/-- Both ends of a stream stop (R187). -/
def State.stopStream (s : State) (c n : Nat) : State :=
  match s.stream c n with
  | none => s
  | some r =>
    let stop (s : State) (p : PortId) : State := match s.endPort p n with
      | some v => s.setPort p { v with stopped := true }
      | none => s
    let s := { s with str := { s.str with streams := s.str.streams.put (c, n) { r with stopped := true } } }
    stop (stop s r.producer) r.consumer

/-- A corrected word is counted: at a crossing to the FEC, HBM or Ziura islands for the cluster, elsewhere for the site (R186). -/
def State.correctedWord (s : State) (site cluster : Nat) (fixed : Bool) : State :=
  if fixed then s.bump R.STR_CL_ECC_CORR.COUNT cluster else (s.bump R.STR_ECC_CORR.COUNT site).countCe site

/-- What the code of an entry found at a site (R186, R187): the entry goes on as it is, corrected and counted, or with
a payload word zeroed and STATUS Failed; or it is discarded and its stream stopped. -/
def State.checkEntry (s : State) (ecc : EntryEcc) (site cluster : Nat) (fixed : Bool) (e : Entry) : State × Option Entry :=
  match ecc with
  | .clean => (s, some e)
  | .corrected => (s.correctedWord site cluster fixed, some e)
  | .payload w =>
    let s := s.set1 R.STR_ERR.DATA_UNCORR site
    let (s, q) := s.detect { cls := .dataUncorr, sub := 2, die := cluster / 2, site := some site, unit := 7,
                             owner := some e.tag.owner }
    (s, some { e with words := e.words.set w 0, tag := { e.tag with status := .failed }, err := minErr e.err (some q) })
  | .tagWord =>
    let r := s.stream cluster e.tag.stream
    let k := (r.bind StreamRec.consumerSite).getD site
    let s := (s.stopStream cluster e.tag.stream).set1 R.STR_ERR.TAG_UNCORR k
    ((s.detect (s.atSite .coreUncorr 4 k 7 none)).1, none)

/-- A mover transfer is lost for an uncorrectable tag: the mover stops, and the error is contained at level 1 on its core (R187). -/
def State.lostTransfer (s : State) (site : Nat) : State :=
  let s : State := { s with mem := { s.mem with movers := s.mem.movers.modify site fun m => { m with halt := true } } }
  ((s.set1 R.STR_ERR.TAG_UNCORR site).detect (s.atSite .coreUncorr 4 site 7 none)).1

/-- A router receives a flit on one side: it waits in the input buffer of its class. A flit whose stream has no route
entry here is discarded, and the fault is contained at level 1 on the site (R176). -/
def State.routerReceive (s : State) (site : Nat) (side : Dir) (e : Entry) : State :=
  match s.str.routes.find (site, e.tag.stream) with
  | some r =>
    let k : BufKey := ⟨site, side, 0 < r.res⟩
    s.setBuf k (s.buf k ++ [e])
  | none =>
    let s := s.set1 R.STR_ERR.NO_ROUTE site
    (s.detect { s.atSite .streamRoute 0 site 7 none with owner := some e.tag.owner }).1

/-- Whether a router's input buffer has room for a flit of a stream, or will discard it. -/
def State.routerRoom (s : State) (site : Nat) (side : Dir) (stream : Nat) : Bool :=
  match s.str.routes.find (site, stream) with
  | some r => (s.buf ⟨site, side, 0 < r.res⟩).length < bufDepth
  | none => true

/-- The wait flag of a producer port. -/
def State.setOutWait (s : State) (p : PortId) (b : Bool) : State :=
  let v := if b then 1 else 0
  match p with
  | .egress k i => s.wr (R.STR_STATE.OUT_WAIT i) v k
  | .sigOut e => s.wr (R.STR_STATE.SIG_OUT_WAIT (e % 2)) v (e / 2)
  | _ => s

/-- The wait flag of a consumer port. -/
def State.setInWait (s : State) (p : PortId) (b : Bool) : State :=
  let v := if b then 1 else 0
  match p with
  | .ingress k i => s.wr (R.STR_STATE.IN_WAIT i) v k
  | .sigIn e => s.wr (R.STR_STATE.SIG_IN_WAIT (e % 2)) v (e / 2)
  | _ => s

/-- The owner a port stamps on what it sends (R166). -/
def State.portOwner (s : State) (p : PortId) : Nat :=
  match p.site? with
  | some k => s.rd R.STR_SITE.OWNER k
  | none => 0x7FF

/-- The head of a producer's FIFO crosses into the stream island and the network, spending a credit (R163, R166, R177); what its
code found is counted at the site, or for a FEC block's port for the cluster. An egress port without a credit waits for one (Table
5.7: a signal engine's output port waits as its engine does, OUT and WAITBEAT). -/
def State.sendHead (s : State) (p : PortId) (v : Port) (ecc : EntryEcc) : State :=
  match v.fifo, s.stream p.cluster v.stream with
  | e :: rest, some r =>
    match r.producerSite with
    | some k =>
      if r.producer ≠ p then s
      else if v.credits = 0 then match p with | .egress .. => s.setOutWait p true | _ => s
      else if s.routerRoom k .localPort v.stream then
        let own := if p.isFec then r.owner else s.portOwner p
        let e := { e with tag := { e.tag with owner := own, stream := v.stream } }
        let s := s.setPort p { v with fifo := rest, credits := v.credits - 1 }
        match (s.setOutWait p false).checkEntry ecc k p.cluster p.isFec e with
        | (s, some e) => s.routerReceive k .localPort e
        | (s, none) => s
      else s
    | none => s
  | _, _ => s

/-- Whether an owner holds a glade (R169). -/
def State.isGlade (s : State) (owner : Nat) : Bool := owner < 1024 && s.flag R.SCH_TEN_CFG.CLASS 0 owner

/-- What a unit's output of a site is formed from: the items of ingress ports, and results of the conversion stage. -/
def State.outInputs (s : State) (site : Nat) (o : OutFlit) : List Entry :=
  (o.ports.filterMap fun i => (s.port (.ingress (Fin.ofNat 1152 site) i)).map Port.seen)
    ++ (((s.comb.findD site {}).out.take o.results).map fun x => { tag := x.1, words := [] })

/-- The payload words of a unit's output flit: what core store, a vector register or the conversion stage holds. -/
def State.flitWords (s : State) (site : Nat) (o : OutFlit) : List Nat :=
  match o.src with
  | .store a n => (List.range n).map fun k =>
      if a + 8 * k + 8 ≤ coreStoreSize then s.coreStore.readN (coreAddr site (a + 8 * k)) 8 else 0
  | .reg r i n => packCodes ((((s.eng.vregs.findD (site, r) (List.replicate 128 0)).drop i).take (2 * n)).map fun v => (v, 32))
  | .results => packCodes (((s.comb.findD site {}).out.take o.results).map fun x => (x.2.1, x.2.2.2.2))
  | .zero => []

/-- The unit that feeds an egress port adds a flit to its FIFO, where the vector engine of the site runs, the FIFO has room, the payload
fits and no last flit of the same item has gone before (R171). Results that it carries leave the conversion stage. The unit's own status is
Absent or Late only where it serves a glade (R169). DESIGN CHOICE (log entry 117): a stream carries the items of one queue, so that
SEQ tells them apart. -/
def State.giveFlit (s : State) (site : Nat) (p : PortId) (v : Port) (o : OutFlit) : State × Port :=
  let glade := s.isGlade (s.rd R.STR_SITE.OWNER site)
  let own := if !glade ∧ (o.own = .absent ∨ o.own = .late) then .failed else o.own
  let e := { o with own := own }.entry (s.flitWords site o) (s.outInputs site o)
  if s.flag R.VEC_STATE.STOPPED site ∨ 2 ^ v.depthLog2 ≤ v.fifo.length ∨ v.ended.contains e.tag.seq
    ∨ 4 < (s.flitWords site o).length then (s, v)
  else
    let v := { v with fifo := v.fifo ++ [e], ended := if o.last then endItem v.ended e.tag.seq else v.ended }
    let s : State := match s.comb.find site with
      | some c => { s with comb := s.comb.put site { c with out := c.out.drop o.results } }
      | none => s
    (s.setPort p v, v)

/-- FLIT_SEND (R166, R171, R172, R177): the unit of an egress port may first add a flit; the head of the FIFO is then sent if the
port holds a credit, and waits otherwise. The FIFOs of signal engines and FEC blocks are filled by OUT, WAITBEAT and
FEC_RESULT_EMIT. -/
def execFlitSend (p : PortId) (new : Option OutFlit) (ecc : EntryEcc) (s : State) : Out :=
  match s.port p with
  | none => .next s
  | some v =>
    if v.stopped then .next s
    else
      let (s, v) := match p, new with
        | .egress k _, some o => s.giveFlit k p v o
        | _, _ => (s, v)
      .next (s.sendHead p v ecc)

/-- The sides of a router in the order their heads are looked at. -/
def sides : List Dir := [.east, .west, .north, .south, .localPort]

/-- The flits at the heads of a router's input buffers that leave in direction `d`, with their buffers. -/
def State.candidates (s : State) (site : Nat) (d : Dir) : List (BufKey × Entry × RouteEnt) :=
  (sides.flatMap fun sd => [(⟨site, sd, true⟩ : BufKey), ⟨site, sd, false⟩]).filterMap fun k =>
    match s.buf k with
    | e :: _ =>
      match s.str.routes.find (site, e.tag.stream) with
      | some r => if r.out = d then some (k, e, r) else none
      | none => none
    | [] => none

/-- Slots a stream has used on a link direction in the current window. -/
def State.usedSlots (s : State) (site : Nat) (d : Dir) (n : Nat) : Nat := s.str.used.findD (site, d, n) 0

/-- The choice of R178 among waiting flits: a glade stream below its reservation, else any stream below its
reservation, else round robin by stream number after the stream last sent so. The last component says whether the
choice was round robin. DESIGN CHOICE (log entry 116): of several streams below their reservations in one class, the flit of the
first input side in the order of `sides` goes; a direction that has sent nothing starts as after stream 0. -/
def State.chooseFlit (s : State) (site : Nat) (d : Dir) (cs : List (BufKey × Entry × RouteEnt)) :
    Option ((BufKey × Entry × RouteEnt) × Bool) :=
  let below (c : BufKey × Entry × RouteEnt) : Bool := s.usedSlots site d c.2.1.tag.stream < c.2.2.res
  match cs.find? fun c => c.2.2.glade && below c with
  | some c => some (c, false)
  | none =>
    match cs.find? below with
    | some c => some (c, false)
    | none =>
      let last := s.str.rr.findD (site, d) 0
      let key (c : BufKey × Entry × RouteEnt) : Nat := (c.2.1.tag.stream + 4095 - last) % 4096
      match cs with
      | [] => none
      | c :: r => some (r.foldl (fun b x => if key x < key b then x else b) c, true)

/-- FLIT_FORWARD (R176, R178): one link direction of a router sends one flit to the next router, or none where none
waits with room ahead. -/
def execFlitForward (site : Site) (d : Dir) (ecc : EntryEcc) (s : State) : Out :=
  match neighbour site d with
  | none => .next s
  | some k =>
    let cs := (s.candidates site d).filter fun c => s.routerRoom k d.opposite c.2.1.tag.stream
    match s.chooseFlit site d cs with
    | none => .next s
    | some ((b, e, r), rr) =>
      let n := e.tag.stream
      let s := s.setBuf b ((s.buf b).drop 1)
      let st := s.str
      let st := if 0 < r.res ∧ !rr then { st with used := st.used.put (site, d, n) (s.usedSlots site d n + 1) } else st
      let st := if rr then { st with rr := st.rr.put (site, d) n } else st
      let s := { s with str := st }
      match s.checkEntry ecc site (Unit.clusterOf site) false e with
      | (s, some e) => .next (s.routerReceive k d.opposite e)
      | (s, none) => .next s

/-- RESERVATION_WINDOW (R178): a window of 64 cycles ends on every link direction of a cluster. -/
def execReservationWindow (c : Cluster) (s : State) : Out :=
  .next { s with str := { s.str with used := s.str.used.keep fun k _ => Unit.clusterOf k.1 != c } }

/-- The status a unit takes from an arriving entry: Absent and Late mean Failed to a unit that serves no glade, which
records it (R169). -/
def State.statusClass (s : State) (site : Nat) (e : Entry) : State × Entry :=
  let (s, st, q) := s.servedStatus (s.isGlade e.tag.owner) e.tag.owner site e.tag.status
  (s, { e with tag := { e.tag with status := st }, err := minErr e.err q })

/-- The next flit that waits for a consumer port, with its buffer. -/
def State.waitingFor (s : State) (p : PortId) : Option (BufKey × Entry) :=
  match s.port p with
  | none => none
  | some v =>
    match (s.stream p.cluster v.stream).bind StreamRec.consumerSite with
    | none => none
    | some k => ((s.candidates k .localPort).find? fun c => c.2.1.tag.stream = v.stream).map fun c => (c.1, c.2.1)

/-- The owner a unit serves (R167): that of the context on its site; a FEC block's port serves the owner of its
stream. -/
def State.servedBy (s : State) (p : PortId) : Nat :=
  match p.site? with
  | some k => s.rd R.STR_SITE.OWNER k
  | none => match s.port p with
    | some v => match s.stream p.cluster v.stream with
      | some r => r.owner
      | none => 0x7FF
    | none => 0x7FF

/-- What a port waited for has come to its site, if it is a site's. -/
def State.unblockPort (s : State) (p : PortId) : State :=
  match p.site? with
  | some site => s.unblockAt site
  | none => s

/-- The descriptor of a site's mover whose transfers carry a tag's owner and SEQ (R165). -/
def State.descFor (s : State) (site : Nat) (t : Tag) : Option MovDesc :=
  let m := s.mem.movers.findD site {}
  (m.active ++ m.queue).find? fun d => d.owner = t.owner && decide ((d.words[7]?).getD 0 % 2 ^ 20 = t.seq % 2 ^ 20)

/-- An entry of a mover transfer as its unit takes it (R168, R169, R187): a record that it raised fails the item of its descriptor. -/
def State.takeTransfer (s : State) (site : Nat) (e : Entry) : State × Entry :=
  let (t, e) := s.statusClass site e
  (match e.err with
    | some q => t.failItem ((s.descFor site e.tag).bind MovDesc.item) q
    | none => t, e)

/-- FLIT_ARRIVE (R167, R169, R187): an entry reaches a unit, which takes it when its owner is the one the unit serves
and discards and counts it otherwise. Flits drain into the FIFO of a stopped consumer too (R189). An entry at a core store port has its
data stored by the movement it belongs to; a payload word that the crossing's code cannot correct is stored as zero. What a mover takes
gives its status to what the descriptor forms (R168), and such a word reads as zero to it. A tag that cannot be corrected stops the mover
(R187). -/
def execFlitArrive (a : Arrival) (ecc : EntryEcc) (s : State) : Out :=
  match a with
  | .port p =>
    match s.waitingFor p, s.port p with
    | some (b, e), some v =>
      let s := s.setBuf b ((s.buf b).drop 1)
      match s.checkEntry ecc (p.site?.getD b.site) p.cluster (p.site?.isNone) e with
      | (s, none) => .next s
      | (s, some e) =>
        if e.tag.owner = s.servedBy p then
          let (s, e) := s.statusClass (p.site?.getD b.site) e
          .next (((s.setPort p { v with fifo := v.fifo ++ [e] }).setInWait p false).unblockPort p)
        else .next (s.violate R.SCH_TEN_VIOL.STREAM e.tag.owner)
    | _, _ => .next s
  | .coreStore k e b =>
    if ecc = .tagWord then .next (s.lostTransfer k)
    else match s.checkEntry ecc k (Unit.clusterOf k) false e with
    | (s, none) => .next s
    | (s, some e) =>
      if e.tag.owner = s.rd R.STR_SITE.OWNER k then
        let (s, _) := s.takeTransfer k e
        .next (match ecc with
          | .payload w => { s with coreStore := s.coreStore.zero (coreAddr k (64 * b.val + 8 * (w.val % 8))) 8 }
          | _ => s)
      else .next (s.violate R.SCH_TEN_VIOL.STREAM e.tag.owner)
  | .mover k e b =>
    if ecc = .tagWord then .next (s.lostTransfer k)
    else match s.checkEntry ecc k (Unit.clusterOf k) false e with
    | (s, none) => .next s
    | (s, some e) =>
      if e.tag.owner = s.rd R.STR_SITE.OWNER k then
        let (s, e) := s.takeTransfer k e
        let d := s.descFor k e.tag
        let upd (q : MovDesc) : MovDesc :=
          if d.any fun x => x.serial = q.serial then
            { q with status := q.status.join e.tag.status
                     zeroed := match ecc with | .payload w => (8 * b.val + w.val % 8) :: q.zeroed | _ => q.zeroed }
          else q
        .next { s with mem := { s.mem with movers := s.mem.movers.modify k fun m =>
          { m with active := m.active.map upd, queue := m.queue.map upd } } }
      else .next (s.violate R.SCH_TEN_VIOL.STREAM e.tag.owner)

/-- One credit goes back to the producer of a stream (R177); a port never holds more than its consumer's depth. -/
def State.returnCredit (s : State) (c n : Nat) : State :=
  match s.stream c n with
  | none => s
  | some r => match s.endPort r.producer n with
    | none => s
    | some v =>
      let depth := match s.endPort r.consumer n with | some w => 2 ^ w.depthLog2 | none => 64
      let s := s.setPort r.producer { v with credits := min (v.credits + 1) depth }
      let s := match r.producer with | .egress .. => s.setOutWait r.producer false | _ => s
      s.unblockPort r.producer

/-- A consumer reads the entry at the head of its FIFO; a consumer that finds it empty waits (R177, R188). The consumer of a stopped
stream reads nothing (R187). -/
def State.readPort (s : State) (p : PortId) : State × Option Entry :=
  match s.port p with
  | none => (s, none)
  | some v =>
    if v.stopped then (s, none)
    else match v.fifo with
    | [] => (s.setInWait p true, none)
    | e :: r =>
      let s := (s.setPort p { v with fifo := r, taken := 0, seen := v.seen.after e }).setInWait p false
      (s.returnCredit p.cluster v.stream, some e)

/-- Whether the unit behind a consumer port runs (R189): the vector engine of the site, or the signal engine. -/
def State.consumerRuns (s : State) (p : PortId) : Bool :=
  match p with
  | .ingress k _ => !s.flag R.VEC_STATE.STOPPED k
  | .sigIn e => s.flag R.SIG_STATE.RUNNING e
  | _ => false

/-- CREDIT_RETURN (R177): the unit of a site reads an entry, and its producer has a credit back. The entries of a stopped unit stay
in place (R189). A FEC block reads its flits as descriptors (FEC_DESCRIPTOR). -/
def execCreditReturn (p : PortId) (s : State) : Out :=
  .next (if s.consumerRuns p then (s.readPort p).1 else s)

end Machine
end Sys2Proof
end

