-- ==== Sys2Proof/Machine/Stores.lean ====
section
/-!
DEFINITION. Cluster store and its ownership, clearing addresses, the line caches and the HBM controllers (6.1, 6.4 to
6.7). A request of a mover travels to its home line cache (`inq`), is served there or waits for a fill, and its answer
waits at the mover (`resp`).
-/
namespace Sys2Proof

/-- The bytes of a line with some written. -/
def applyBytes (data : List Byte) (w : LineBytes) : List Byte := w.foldl (fun d b => d.set b.1 b.2) data

/-- A line of zeros. -/
def zeroLine : List Byte := List.replicate 256 0

/-- Whether a write covers its whole line (R221). -/
def wholeLine (w : LineBytes) : Bool := (List.range 256).all fun k => w.any fun b => b.1 = k

/-- The bank group of a device line: stack, pseudo-channel, stack ID and bank group (R213, Table 6.4). -/
def bankGroup (line : Nat) : Nat × Nat × Nat × Nat :=
  (line / 2 ^ 28, (line % 32) ^^^ (line / 2 ^ 13 % 32), line / 2 ^ 7 % 4, (line / 2 ^ 9 % 4) ^^^ (line / 2 ^ 13 % 4))

/-- The die whose line cache is the home of a line that die `d` requests (6.6). -/
def LineKey.home (k : LineKey) (d : Nat) : Nat :=
  match k with
  | .hbm n => n / 2 ^ 29
  | .wor _ => d

def LineCache.line (c : LineCache) (k : LineKey) : Option LcLine := c.lines.find? fun l => l.key = k
def LineCache.fill (c : LineCache) (k : LineKey) : Option Fill := c.fills.find? fun f => f.key = k
def LineCache.drop (c : LineCache) (k : LineKey) : LineCache := { c with lines := c.lines.filter fun l => l.key ≠ k }
def LineCache.setLine (c : LineCache) (v : LcLine) : LineCache :=
  { c with lines := c.lines.map fun l => if l.key = v.key then v else l }
def LineCache.setFill (c : LineCache) (v : Fill) : LineCache :=
  { c with fills := c.fills.map fun f => if f.key = v.key then v else f }

/-- The item of the mover that made a request. -/
def LcReq.item (r : LcReq) : Option ItemRef := r.mover.bind fun m => m.2.item

/-- A write applied to a line a cache holds. A journal write goes through to HBM and does not make the line dirty (R221). -/
def LcLine.write (l : LcLine) (r : LcReq) (b : LineBytes) : LcLine :=
  { l with data := applyBytes l.data b, dirty := l.dirty || !r.journal
           items := match r.item with | some i => if l.items.contains i then l.items else l.items ++ [i] | none => l.items }

/-- What a failed fill answers: all ones for a fabric line of a dead node (R453), zeros otherwise. -/
def Fill.deadLine (f : Fill) : List Byte := match f.key with | .wor _ => List.replicate 256 0xFF | .hbm _ => zeroLine

/-- The items whose data an HBM read serves. -/
def Fill.items (f : Fill) : List ItemRef := f.waiting.filterMap LcReq.item

/-- Whether a mover still has a request of its own out. -/
def Mover.expects (m : Mover) (q : MovReq) : Bool :=
  m.slots.contains q || m.fabric.contains q || m.host.contains q || m.late.contains q

/-- A write that waited for a fill meets the line's data: a whole line makes them good (R226). -/
def FillSt.write (v : FillSt) (r : LcReq) (b : LineBytes) : FillSt :=
  { data := applyBytes v.data b, dirty := v.dirty || !r.journal, good := v.good || wholeLine b
    items := match r.item with | some i => if v.items.contains i then v.items else v.items ++ [i] | none => v.items }

namespace Machine

/-- Address in the model's cluster-store memory of an offset of a cluster's store. -/
def cluAddr (c off : Nat) : Nat := c * 0x4000000 + off

/-- Size of a cluster store (Table 6.1). -/
def cluSize : Nat := 0x4000000

/-- Whether an owner owns the block of an offset (R197). -/
def State.cluOwns (s : State) (c off owner : Nat) : Bool :=
  off < cluSize && s.mem.blockOwner.find (c, off / 65536) = some owner

/-- The 8-byte words that `n` bytes at an offset touch. -/
def wordsOf (off n : Nat) : List Nat :=
  if n = 0 then [] else (List.range ((off + n - 1) / 8 - off / 8 + 1)).map fun k => off / 8 + k

/-- Whether a word of a cluster store is bad (R200). -/
def State.cluIsBad (s : State) (c w : Nat) : Bool := s.mem.cluBad.contains (cluAddr c (8 * w) / 8)

/-- What an owner reads of cluster store: bytes of foreign blocks and of bad words are zero, and whether a bad word of its own is
among them (R197, R200). -/
def State.cluData (s : State) (c off n owner : Nat) : List Byte × Bool :=
  ((List.range n).map fun k =>
      if s.cluOwns c (off + k) owner ∧ !s.cluIsBad c ((off + k) / 8) then s.clusterStore.read (cluAddr c (off + k)) else 0,
    (wordsOf off n).any fun w => s.cluOwns c (8 * w) owner && s.cluIsBad c w)

/-- A list without repeats that follow one another. -/
def mergeRuns : List Nat → List Nat
  | a :: b :: r => if a = b then mergeRuns (b :: r) else a :: mergeRuns (b :: r)
  | l => l

/-- Accesses of a unit to ranges of cluster store, in order: each word of a foreign block counts once (R9, R197). DESIGN CHOICE (log
entry 120): ranges that follow one another in the same word are one access to it. A bad word sets UNCORR (R200). -/
def State.cluTouch (s : State) (c : Nat) (ranges : List (Nat × Nat)) (owner : Nat) (bad : Bool) : State :=
  let foreign := (mergeRuns (ranges.flatMap fun x => wordsOf x.1 x.2)).filter fun w => !s.cluOwns c (8 * w) owner
  (if bad then s.set1 R.CLU_ERR.UNCORR c else s).violate R.SCH_TEN_VIOL.MEM owner foreign.length

/-- A read of cluster store by a FEC block: its bytes, and whether they are Failed (R156, R197, R200). -/
def State.cluRead (s : State) (c off n owner : Nat) : State × List Byte × Bool :=
  let r := s.cluData c off n owner
  (s.cluTouch c [(off, n)] owner r.2, r)

/-- What the code of cluster store finds in the word of an offset that its owner reads: a corrected bit counts, an uncorrectable word
is bad until it is rewritten (R200). -/
def State.cluWord (s : State) (c off owner : Nat) (ecc : Ecc) : State :=
  match ecc with
  | .clean => s
  | .corrected => s.bump R.CLU_ECC_CORR.COUNT c
  | .uncorrectable =>
    let a := cluAddr c off / 8
    if s.mem.cluBad.contains a ∨ !s.cluOwns c off owner then s
    else { s with mem := { s.mem with cluBad := a :: s.mem.cluBad } }

/-- Writes of cluster store by a mover or FEC block, in order: bytes of foreign blocks are ignored and their words counted; a
word written whole is no longer bad (R156, R197, R200). -/
def State.cluWrite (s : State) (c : Nat) (ws : List (Nat × List Byte)) (owner : Nat) : State :=
  let m := ws.foldl (fun m w => ((List.range w.2.length).zip w.2).foldl (fun m kb =>
    if s.cluOwns c (w.1 + kb.1) owner then m.write (cluAddr c (w.1 + kb.1)) kb.2 else m) m) s.clusterStore
  let written (a : Nat) : Bool := ws.any fun w => decide (cluAddr c w.1 ≤ a) && decide (a < cluAddr c w.1 + w.2.length)
  let whole (a : Nat) : Bool := (List.range 8).all (fun k => written (8 * a + k)) && s.cluOwns c (8 * a - cluAddr c 0) owner
  let t : State := { s with clusterStore := m, mem := { s.mem with cluBad := s.mem.cluBad.filter fun a => !whole a } }
  t.cluTouch c (ws.map fun w => (w.1, w.2.length)) owner false

/-- The extent of an owner that covers a clearing page (6.5). -/
def State.extentAt (s : State) (owner page : Nat) : Option Extent :=
  (s.mem.extents.find? fun e => e.1.1 = owner && e.2.clPage ≤ page && page < e.2.clPage + e.2.pages).map (·.2)

/-- The device line of a clearing line, if the owner has it mapped with the access needed (R206, R218). -/
def State.deviceLine (s : State) (owner line : Nat) (write : Bool) : Option Nat :=
  match s.extentAt owner (line / 16) with
  | some e => if write ∧ !e.write then none else some ((e.devPage + (line / 16 - e.clPage)) * 16 + line % 16)
  | none => none

/-- Whether an import window of an owner covers a fabric line with read permission (R432). -/
def State.worReadable (s : State) (owner line : Nat) : Bool :=
  s.wor.imports.any fun e => e.1.1 = owner && e.2.read && e.2.covers (line * 256) 256

/-- Whether any glade holds an image. -/
def State.gladeHeld (s : State) : Bool :=
  s.regs.any fun e => e.1.reg = .SCH_TEN_CFG && e.1.lo = R.SCH_TEN_CFG.IMAGE.lo && e.2 != 0
    && s.flag R.SCH_TEN_CFG.CLASS e.1.unit e.1.idx

/-! ### Line caches -/

/-- The line cache of a die. -/
def State.cache (s : State) (d : Nat) : LineCache := s.mem.lc.findD d {}

/-- The line cache of a die changed; DIRTY counts its dirty lines. -/
def State.setCache (s : State) (d : Nat) (c : LineCache) : State :=
  let s := { s with mem := { s.mem with lc := s.mem.lc.put d c } }
  s.wr R.HBM_LC_STATE.DIRTY (c.lines.filter fun l => l.dirty).length d

/-- The bytes of an HBM line with the writes on their way to it. -/
def State.hbmLine (s : State) (n : Nat) : List Byte :=
  (s.mem.wb.filter fun w => w.line = n).foldl (fun d w => applyBytes d w.bytes) (s.mem.hbm.readBytes (n * 256) 256)

/-- The bytes of a 64-byte pair that a write covers. -/
def coveredOf (b : LineBytes) (p : Nat) : Nat := ((List.range 64).filter fun k => b.any fun x => x.1 = 64 * p + k).length

/-- Whether a pair of an HBM line is bad as its stack holds it (R215). -/
def State.pairsBad (s : State) (n : Nat) : Bool := (List.range 4).any fun p => s.mem.hbmBad.contains (4 * n + p)

/-- Whether a read of an HBM line fails: a pair of it is bad that no write on its way to the stack rewrites whole, or the stack has left
service (R215, R220, R484). -/
def State.hbmFails (s : State) (n : Nat) : Bool :=
  ((List.range 4).any fun p => s.mem.hbmBad.contains (4 * n + p) && !s.mem.wb.any fun w => w.line = n && decide (coveredOf w.bytes p = 64))
    || (decide (n / 2 ^ 28 < 16) && !s.flag R.HBM_STATE.IN_SERVICE (n / 2 ^ 28))

/-- The writes of a list of requests to a line, applied in order. -/
def applyReqs (k : LineKey) (rs : List LcReq) (data : List Byte) : List Byte :=
  rs.foldl (fun d r => match r.write with
    | some b => if r.key = k then applyBytes d b else d
    | none => d) data

/-- The bytes every core sees at an HBM line: those its home cache holds, or those of the stack, with the writes that have arrived at
the cache since (R214, R220); zeros of a line that is lost or fails (R215, R226). -/
def State.seenLine (s : State) (n : Nat) : List Byte :=
  let c := s.cache (n / 2 ^ 29)
  let k : LineKey := .hbm n
  let below := if s.hbmFails n then zeroLine else s.hbmLine n
  let base := if c.lost.contains k then zeroLine else
    match c.line k, c.fill k with
    | some l, _ => l.data
    | none, some f => applyReqs k f.waiting (f.data.getD below)
    | none, none => below
  applyReqs k c.inq base

/-- A mover's record. -/
def State.mover (s : State) (site : Nat) : Mover := s.mem.movers.findD site {}

/-- A mover changed, with the occupancy MOV_STATE shows. -/
def State.setMover (s : State) (site : Nat) (m : Mover) : State :=
  let s := { s with mem := { s.mem with movers := s.mem.movers.put site m } }
  let idle := m.queue.isEmpty && m.active.isEmpty
  ((((s.wr R.MOV_STATE.IDLE (if idle then 1 else 0) site).wr R.MOV_STATE.QUEUED m.queue.length site).wr
    R.MOV_STATE.SLOTS m.slots.length site).wr R.MOV_STATE.PARKED m.parked.length site).wr
    R.MOV_STATE.FABRIC m.fabric.length site

/-- Whether a request is a pending entry of a context that is not on cores (R358). -/
def State.pendingAway (s : State) (q : MovReq) : Bool :=
  s.sched.ctxs.any fun e => e.1.1 = q.owner && e.2.saved.any fun v => v.mover.any fun m => m.late.contains q

/-- An answer reaches the mover that made the request; one whose context has left the site ends as a pending entry
(R359, PENDING_ENTRY_END). An answer that was squashed, or that nothing waits for, is discarded; where the site serves another owner by
then and its clearing is in no reset, it counts as an entry of its own owner (R167, R282, R298). -/
def State.answerMover (s : State) (site : Nat) (q : MovReq) (data : List Byte) (failed : Bool) : State :=
  let m := s.mover site
  if m.expects q ∧ !q.squashed then s.setMover site { m with resp := m.resp ++ [{ req := q, data := data, failed := failed, noted := q.space = .woruri || q.space = .host }] }
  else if q.owner = s.rd R.STR_SITE.OWNER site ∨ s.ten.resets.has q.owner ∨ (s.pendingAway q ∧ !q.squashed) then s
  else s.violate R.SCH_TEN_VIOL.STREAM q.owner

/-- 64-byte requests of the movers to host memory that are not answered (R518), pending entries of contexts among them. -/
def State.hostRequests (s : State) (write : Bool) : Nat :=
  let of (m : Mover) : Nat := ((m.host ++ m.late.filter fun r => r.space = .host).filter fun r =>
    r.write.isSome = write && !m.resp.any fun x => x.req.id = r.id).foldl (fun n r => n + r.hostParts) 0
  let away := s.sched.ctxs.flatMap fun e => e.2.saved.filterMap fun v => v.mover
  s.mem.movers.foldl (fun n e => n + of e.2) 0 + away.foldl (fun n m => n + of m) 0

/-- The answer to a request goes to the mover that made it. -/
def State.answer (s : State) (r : LcReq) (data : List Byte) (failed : Bool) : State :=
  match r.mover with
  | none => s
  | some (site, q) => s.answerMover site q data failed

/-- Writes on their way to HBM; `ack` is the journal write that HBM acknowledges (R221). -/
def State.writeBack (s : State) (n : Nat) (b : LineBytes) (ack : Option LcReq := none) : State :=
  { s with mem := { s.mem with wb := s.mem.wb ++ [⟨n, b, ack⟩] } }

/-- All the bytes of a line, as a write. -/
def fullBytes (data : List Byte) : LineBytes := (List.range data.length).zip data

/-- A level-0 error whose data several items were to use: one record, and every item Failed by it. -/
def State.failItems (s : State) (i : ErrInfo) (items : List ItemRef) : State :=
  let (s, q) := s.detect { i with item := items.head? }
  items.foldl (fun s it => s.failItem (some it) q) s

/-! ### Requests to the fabric (R222, R437) -/

/-- The READ of a fabric line for a fill of a die's cache. -/
def State.askRead (s : State) (die line : Nat) : State :=
  s.askFabric { typ := .read, cls := .request, src := 0, dst := line / 2 ^ 36 % 4096, addr := line * 256 } (.fill die line)

/-- The WRITE of a mover's bytes to a fabric line: 64 bytes where they lie within one aligned quarter (14.3). -/
def State.askWrite (s : State) (site : Nat) (r : MovReq) (line : Nat) (b : LineBytes) : State :=
  let q := ((b.head?).map fun x => x.1 / 64).getD 0
  let quarter := b.all fun x => x.1 / 64 = q
  let img := applyBytes zeroLine b
  let m := b.foldl (fun m x => m ||| 2 ^ x.1) 0
  let p : Packet := { typ := .write, cls := .request, src := 0, dst := line / 2 ^ 36 % 4096, mask := m
                      addr := line * 256 + (if quarter then 64 * q else 0), len := if quarter then 64 else 256
                      data := if quarter then (img.drop (64 * q)).take 64 else img }
  s.askFabric p (.write site r)

/-- A new fill at a die's cache; that of a fabric line asks for the line. -/
def State.newFill (s : State) (d : Nat) (f : Fill) : State :=
  let c := s.cache d
  let s := s.setCache d { c with fills := c.fills ++ [f] }
  match f.key with
  | .wor n => s.askRead d n
  | .hbm _ => s

/-- A store to a fabric line writes through (R222). -/
def State.storeThrough (s : State) (r : LcReq) (line : Nat) (b : LineBytes) : State :=
  match r.mover with
  | some (site, q) => s.askWrite site q line b
  | none => s

/-- Whether a line lies on a stack that has left service. -/
def State.keyOut (s : State) (k : LineKey) : Bool :=
  match k with
  | .hbm n => decide (n / 2 ^ 28 < 16) && !s.flag R.HBM_STATE.IN_SERVICE (n / 2 ^ 28)
  | .wor _ => false

/-- An access to a line of a stack that has left service fails the item it is for (R484). -/
def State.failOut (s : State) (k : LineKey) (item : Option ItemRef) (owner : Nat) : State :=
  match k with
  | .hbm n => s.failItems { cls := .dataUncorr, sub := 5, die := n / 2 ^ 29, stack := n / 2 ^ 28, unit := 7, owner := some owner,
                            detail := n * 256 } item.toList
  | .wor _ => s

/-- A request meets a line cache that has no fill of its line in flight (R220, R221). -/
def State.serveLine (s : State) (d : Nat) (r : LcReq) : State :=
  let c := s.cache d
  if s.keyOut r.key then (s.failOut r.key r.item r.owner).answer r zeroLine true
  else
  match c.line r.key, r.write with
  | some l, none =>
    if c.lost.contains r.key then s.answer r zeroLine true else s.answer r l.data false
  | some l, some b =>
    match r.key with
    | .wor n => (s.setCache d (c.setLine { l with data := applyBytes l.data b })).storeThrough r n b
    | .hbm n =>
    let c := if wholeLine b then { c with lost := c.lost.filter fun k => k ≠ r.key } else c
    let s := s.setCache d (c.setLine (l.write r b))
    if r.journal then s.writeBack n b (some r) else s.answer r [] false
  | none, none =>
    if c.lost.contains r.key then s.answer r zeroLine true
    else s.newFill d { key := r.key, waiting := [r], glade := r.glade }
  | none, some b =>
    let c := if wholeLine b then { c with lost := c.lost.filter fun k => k ≠ r.key } else c
    match r.key with
    | .hbm n =>
      if r.journal then (s.setCache d c).writeBack n b (some r)
      else
        let f : Fill := { key := r.key, waiting := [r], glade := r.glade }
        let f := if wholeLine b then { f with data := some (applyBytes zeroLine b), dirty := true } else f
        s.setCache d { c with fills := c.fills ++ [f] }
    | .wor n => s.storeThrough r n b

/-- What the code of a cached line found when a request touches it (R226). -/
def State.lineEcc (s : State) (d : Nat) (k : LineKey) (ecc : Ecc) : State :=
  let c := s.cache d
  match c.line k, ecc with
  | none, _ => s
  | some _, .clean => s
  | some _, .corrected => s.bump R.HBM_LC_ECC_CORR.COUNT d
  | some l, .uncorrectable =>
    if l.dirty then
      let s := (s.setCache d { c.drop k with lost := k :: c.lost }).set1 R.HBM_LC_ERR.DIRTY_UNCORR d
      s.failItems { cls := .dataUncorr, sub := 6, die := d, unit := 7 } l.items
    else (s.setCache d (c.drop k)).bump R.HBM_LC_ECC_CORR.COUNT d

/-- One prefetch at a die's cache for a mover's read, `i` lines past it (R224, R225). -/
def State.prefetchOne (s : State) (d : Nat) (r : LcReq) (i : Nat) : State :=
  match r.mover with
  | none => s
  | some (_, q) =>
    let line := q.line + i
    let stop := match q.pfLast with | none => true | some l => decide (l < line)
    if stop || (!q.nextPage && line / 16 != q.line / 16) then s
    else
      let key : Option LineKey := match q.space with
        | .hbm => (s.deviceLine q.owner line false).map .hbm
        | .woruri => if s.worReadable q.owner line then some (.wor line) else none
        | _ => none
      match key with
      | none => s.bump R.HBM_LC_PF_DROP.COUNT d
      | some k =>
        let c := s.cache d
        if k.home d ≠ d ∨ (c.line k).isSome ∨ (c.fill k).isSome ∨ c.lost.contains k then s
        else s.newFill d { key := k, waiting := [], glade := r.glade }

/-- LINE_CACHE_REQUEST (R220 to R226): the oldest request that has arrived at a die's cache is served, or another
unit's request `ext`, which waits behind an earlier one for its line; `ahead` lines are prefetched. The cache of a lost die answers only what fails (R484).
A request for a line whose fill an invalidate or an atomic has met waits for that fill to end, and then fetches the line again (R222,
R450). -/
def execLineCacheRequest (d : Die) (ext : Option LcReq) (ecc : Ecc) (ahead : Nat) (s : State) : Out :=
  if !s.flag R.HBM_LC_STATE.IN_SERVICE d ∧ !((s.cache d).inq.head?.any fun r => s.keyOut r.key) then .next s
  else
    let c := s.cache d
    let pick : Option (LcReq × State) := match ext, c.inq with
      | some x, r :: rest =>
        if c.inq.any fun q => q.key = x.key then some (r, s.setCache d { c with inq := rest ++ [x] }) else some (x, s)
      | some x, [] => some (x, s)
      | none, r :: rest => some (r, s.setCache d { c with inq := rest })
      | none, [] => none
    match pick with
    | none => .next s
    | some (r, t) =>
      if (c.fill r.key).any Fill.dropped then .next s else
      let s := t.lineEcc d r.key ecc
      let c := s.cache d
      let s := match c.fill r.key with
        | some f =>
          let s := s.setCache d (c.setFill { f with waiting := f.waiting ++ [r] })
          match r.key, r.write with
          | .wor n, some b => s.storeThrough r n b
          | _, _ => s
        | none => s.serveLine d r
      if s.flag R.HBM_LC_CTRL.PF_EN d ∧ r.write.isNone then
        .next ((List.range (min ahead (s.rd R.HBM_LC_CTRL.PF_DIST d))).foldl (fun s i => s.prefetchOne d r (i + 1)) s)
      else .next s

/-- Whether a fill of a class may use a way (R223). -/
def wayAllowed (w way : Nat) (glade : Bool) : Bool :=
  w = 0 || (if glade then decide (way < w) else decide (w ≤ way))

/-- One request that waited for a fill is answered (R220, R222); a journal write goes through to HBM (R221). Where the read of the line
failed, a write of part of it goes to HBM too, which rewrites the pairs that it covers whole (R215); to a stack that has left service it
is not made (R484). -/
def State.answerWaiting (s : State) (f : Fill) (v : FillSt) (r : LcReq) : State × FillSt :=
  match r.write, f.key with
  | none, _ => (s.answer r (if v.good then v.data else if f.failed then f.deadLine else zeroLine) (!v.good), v)
  | some b, .wor _ => (s, { v with data := applyBytes v.data b })
  | some b, .hbm n =>
    if f.failed ∧ !v.good ∧ s.keyOut f.key then (s.answer r zeroLine true, v)
    else if r.journal then (s.writeBack n b (some r), v.write r b)
    else ((if f.failed ∧ !v.good ∧ !wholeLine b then s.writeBack n b else s).answer r [] false, v.write r b)

/-- The requests that waited for a fill are answered in their order. `lost` says that the line's dirty data were lost: its bytes are
Failed until a write of the whole line (R226). -/
def State.answerFill (s : State) (f : Fill) (lost : Bool) : State × FillSt :=
  f.waiting.foldl (fun (st : State × FillSt) r => st.1.answerWaiting f st.2 r)
    (s, { data := f.data.getD zeroLine, dirty := f.dirty, good := !f.failed && !lost })

/-- LINE_FILL (R222, R223, R225): a fill whose data have come answers its requests and is installed in a way of its
class, in place of the line `victim`, whose dirty data go back to HBM. -/
def execLineFill (d : Die) (key : LineKey) (way : Fin 16) (victim : Option LineKey) (s : State) : Out :=
  let c := s.cache d
  match c.fill key with
  | none => .next s
  | some f =>
    if f.data.isNone ∧ !f.failed then .next s
    else
      let vic := victim.bind c.line
      let fits := match victim with
        | some _ => decide ((vic.map LcLine.way) = some way.val)
        | none => decide (c.lines.length < 131072)
      if !fits ∨ !wayAllowed (s.rd R.HBM_LC_CTRL.GLADE_WAYS d) way f.glade then .next s
      else
        let s := s.setCache d { c with fills := c.fills.filter fun g => g.key ≠ key }
        let (s, v) := s.answerFill f (c.lost.contains key)
        let c := s.cache d
        let lost := c.lost.filter fun k => k ≠ key
        let s := s.setCache d { c with lost := if v.good then lost else if c.lost.contains key ∨ v.dirty then key :: lost else lost }
        if f.failed ∧ !v.good then .next s
        else if f.dropped then
          .next (match key, v.dirty with | .hbm n, true => s.writeBack n (fullBytes v.data) | _, _ => s)
        else
          let s := match vic with
            | some l => match l.key, l.dirty with
              | .hbm n, true => s.writeBack n (fullBytes l.data)
              | _, _ => s
            | none => s
          let c := s.cache d
          let c := match victim with | some k => c.drop k | none => c
          .next (s.setCache d { c with lines := c.lines ++ [⟨key, v.data, v.dirty, way, v.items⟩] })

/-! ### HBM controllers -/

/-- The fill of a line with its data, or marked failed. -/
def State.setFillData (s : State) (d : Nat) (f : Fill) (data : Option (List Byte)) : State :=
  s.setCache d ((s.cache d).setFill { f with data := data, failed := data.isNone })

/-- Whether a stack serves requests. -/
def State.stackUp (s : State) (k : Nat) : Bool := s.flag R.HBM_STATE.IN_SERVICE k && !s.flag R.HBM_STATE.SELF_REFRESH k

/-- 64-byte pairs of HBM that are bad from now on, until rewritten (R215). -/
def State.spoilPair (s : State) (a : Nat) : State :=
  if s.mem.hbmBad.contains a then s else { s with mem := { s.mem with hbmBad := a :: s.mem.hbmBad } }

/-- HBM_READ (R215): the read for a fill of a line of stack `k` completes; `ecc` is what the code found in pair `pair` of it. Zeros and
Failed from a stack that has left service (R484). -/
def execHbmRead (k : Stack) (line : Fin (2 ^ 28)) (pair : Fin 4) (ecc : Ecc) (s : State) : Out :=
  let n := k.val * 2 ^ 28 + line.val
  let d := k.val / 2
  let fail (s : State) (f : Fill) : State := (s.setFillData d f none).failItems
    { cls := .dataUncorr, sub := 5, die := d, stack := k, unit := 7, owner := (f.waiting.head?).map LcReq.owner, detail := n * 256 } f.items
  match (s.cache d).fill (.hbm n) with
  | none => .next s
  | some f =>
    if f.data.isSome ∨ f.failed then .next s
    else if !s.flag R.HBM_STATE.IN_SERVICE k then .next (fail s f)
    else if !s.stackUp k then .next s
    else
      match (if s.hbmFails n then Ecc.uncorrectable else ecc) with
      | .clean => .next (s.setFillData d f (some (s.hbmLine n)))
      | .corrected => .next ((s.bump R.HBM_ECC_CORR.COUNT k).setFillData d f (some (s.hbmLine n)))
      | .uncorrectable =>
        let t := if s.hbmFails n then s else s.spoilPair (4 * n + pair)
        .next (fail ((t.bump R.HBM_ECC_UNCORR.COUNT k).set1 R.HBM_ERR.UNCORR k) f)

/-- The pairs that a write covers only in part (R215). -/
def partialPairs (b : LineBytes) : List Nat := (List.range 4).filter fun p => 0 < coveredOf b p ∧ coveredOf b p < 64

/-- HBM_WRITE (R215): the oldest write on its way to a line completes; a pair written in part is read and merged, and `ecc` is what the
code found in pair `pair` of those. A journal write is acknowledged (R221). -/
def execHbmWrite (k : Stack) (line : Fin (2 ^ 28)) (pair : Fin 4) (ecc : Ecc) (s : State) : Out :=
  let n := k.val * 2 ^ 28 + line.val
  match s.stackUp k, s.mem.wb.find? fun w => w.line = n with
  | true, some w =>
    let m := w.bytes.foldl (fun m b => m.write (n * 256 + b.1) b.2) s.mem.hbm
    let bad := s.mem.hbmBad.filter fun a => !(a / 4 = n && coveredOf w.bytes (a % 4) = 64)
    let t : State := { s with mem := { s.mem with hbm := m, hbmBad := bad, wb := s.mem.wb.erase w } }
    let t := match w.ack with | some r => t.answer r [] false | none => t
    let ps := partialPairs w.bytes
    let known := ps.any fun p => bad.contains (4 * n + p)
    match (if known then Ecc.uncorrectable else if ps.contains pair then ecc else .clean) with
    | .clean => .next t
    | .corrected => .next (t.bump R.HBM_ECC_CORR.COUNT k)
    | .uncorrectable =>
      let t := (t.bump R.HBM_ECC_UNCORR.COUNT k).set1 R.HBM_ERR.UNCORR k
      let t := if known then t else t.spoilPair (4 * n + pair)
      .next (t.failItems { cls := .dataUncorr, sub := 5, die := k / 2, stack := k, unit := 7, detail := n * 256 } [])
  | _, _ => .next s

/-- SCRUB_LINE (R216); `ecc` is what the code found in pair `pair` of the line. -/
def execScrubLine (k : Stack) (pair : Fin 4) (ecc : Ecc) (s : State) : Out :=
  if !s.stackUp k then .next s
  else
    let pos := s.rd R.HBM_SCRUB_POS.LINE k
    let n := k.val * 2 ^ 28 + pos
    let t := s.wr R.HBM_SCRUB_POS.LINE (pos + 1) k
    match (if s.pairsBad n then Ecc.uncorrectable else ecc) with
    | .clean => .next t
    | .corrected => .next (t.bump R.HBM_ECC_CORR.COUNT k)
    | .uncorrectable =>
      let t := t.set1 R.HBM_ERR.SCRUB_UNCORR k
      let t := if s.pairsBad n then t else t.spoilPair (4 * n + pair)
      .next (t.detect { cls := .scrubUncorr, die := k / 2, stack := k, unit := 7, detail := n * 256 }).1

/-- HBM_RESERVE_WRITE (R230): a value above 32 sets 32; the write is ignored while any glade holds an image. -/
def execHbmReserveWrite (k : Stack) (v : Word) (s : State) : Out :=
  if !s.managed then .next s else
  if s.gladeHeld then .next s else .next (s.wr R.HBM_RESERVE.RES (min 32 (v.toNat % 64)) k)

/-- HBM_LC_CTRL_WRITE (R223, R234): GLADE_WAYS does not change while any glade holds an image. -/
def execHbmLcCtrlWrite (d : Die) (v : Word) (s : State) : Out :=
  if !s.managed then .next s else
  let s := (s.wr R.HBM_LC_CTRL.PF_EN (v.toNat % 2) d).wr R.HBM_LC_CTRL.PF_DIST (v.toNat / 2 % 16) d
  if s.gladeHeld then .next s else .next (s.wr R.HBM_LC_CTRL.GLADE_WAYS (min 8 (v.toNat / 256 % 16)) d)

end Machine
end Sys2Proof
end

