-- ==== Sys2Proof/Machine/Float.lean ====
section
/-!
DEFINITION. IEEE 754 arithmetic of the vector engine (R121, R122, R124): binary32 and binary64 operations, rounding to
nearest with ties to even, subnormals kept, every NaN result the quiet NaN of R122.
-/
namespace Sys2Proof

/-- Rounds an exact value `n * 2^e` into a format; an exact zero takes the sign `zneg`. -/
def FFmt.round (f : FFmt) (zneg : Bool) (n e : Int) : FVal :=
  if n = 0 then .fin zneg 0 f.emin
  else
    let (m, q) := roundMag f.p f.emin .nearestEven (n < 0) 0 n.natAbs e
    if m = 0 then .fin (n < 0) 0 f.emin
    else if magExceeds m q f.maxFinite.1 f.maxFinite.2 then .inf (n < 0)
    else .fin (n < 0) m q

/-- The encoding of a value that already lies in the format; NaN is the quiet NaN (R122). -/
def FFmt.toBits (f : FFmt) (v : FVal) : Nat :=
  match v with
  | .nan => f.quietNan
  | .inf neg => f.infBits neg
  | .fin neg m e =>
    match f.round neg (if neg then -(m : Int) else m) e with
    | .fin neg' m' q => f.encode neg' m' q
    | .inf neg' => f.infBits neg'
    | .nan => f.quietNan

/-- A number as an exact signed integer and exponent. -/
def FVal.signedMant : FVal → Int × Int
  | .fin neg m e => (if neg then -(m : Int) else m, e)
  | _ => (0, 0)

/-- The sign of a value. -/
def FVal.neg : FVal → Bool
  | .nan => false
  | .inf n => n
  | .fin n _ _ => n

/-- Sum in a format. -/
def FFmt.add (f : FFmt) (a b : FVal) : FVal :=
  match a, b with
  | .nan, _ => .nan
  | _, .nan => .nan
  | .inf x, .inf y => if x = y then .inf x else .nan
  | .inf x, _ => .inf x
  | _, .inf y => .inf y
  | .fin na ma ea, .fin nb mb eb =>
    let q := min ea eb
    let va : Int := (if na then -(ma : Int) else ma) * 2 ^ (ea - q).toNat
    let vb : Int := (if nb then -(mb : Int) else mb) * 2 ^ (eb - q).toNat
    f.round (ma = 0 && mb = 0 && na && nb) (va + vb) q

/-- A value with its sign changed. -/
def FVal.negate : FVal → FVal
  | .nan => .nan
  | .inf n => .inf (!n)
  | .fin n m e => .fin (!n) m e

/-- Product in a format. -/
def FFmt.mul (f : FFmt) (a b : FVal) : FVal :=
  match a, b with
  | .nan, _ => .nan
  | _, .nan => .nan
  | .inf x, .inf y => .inf (x != y)
  | .inf x, .fin y m _ => if m = 0 then .nan else .inf (x != y)
  | .fin x m _, .inf y => if m = 0 then .nan else .inf (x != y)
  | .fin na ma ea, .fin nb mb eb =>
    let n : Int := (ma * mb : Nat)
    f.round (na != nb) (if na != nb then -n else n) (ea + eb)

/-- `a * b + c` with one rounding (R121). -/
def FFmt.fma (f : FFmt) (a b c : FVal) : FVal :=
  match a, b, c with
  | .fin na ma ea, .fin nb mb eb, .fin nc mc ec =>
    let q := min (ea + eb) ec
    let p : Int := (ma * mb : Nat)
    let vp : Int := (if na != nb then -p else p) * 2 ^ (ea + eb - q).toNat
    let vc : Int := (if nc then -(mc : Int) else mc) * 2 ^ (ec - q).toNat
    f.round (ma * mb = 0 && mc = 0 && (na != nb) && nc) (vp + vc) q
  | .fin _ _ _, .fin _ _ _, c => c
  | a, b, c => f.add (f.mul a b) c

/-- A value divided by a positive natural, rounded once in the format. -/
def FFmt.divNat (f : FFmt) (a : FVal) (n : Nat) : FVal :=
  match a with
  | .fin neg m e =>
    let k := 2 * f.p + Nat.log2 n + 4
    let q := m * 2 ^ k / n
    let st := if m * 2 ^ k % n = 0 then 0 else 1
    let v : Int := (2 * q + st : Nat)
    f.round neg (if neg then -v else v) (e - k - 1)
  | v => v

/-- A value of another format brought into this one with one rounding. -/
def FFmt.convert (f : FFmt) (v : FVal) : FVal :=
  match v with
  | .fin neg m e => f.round neg (if neg then -(m : Int) else m) e
  | v => v

/-- The order of numbers, with -0 below +0 where `zeros` holds; NaN is below nothing. -/
def FVal.lt (zeros : Bool) (a b : FVal) : Bool :=
  match a, b with
  | .nan, _ => false
  | _, .nan => false
  | .inf x, .inf y => x && !y
  | .inf x, _ => x
  | _, .inf y => !y
  | .fin na ma ea, .fin nb mb eb =>
    let q := min ea eb
    let va : Int := (if na then -(ma : Int) else ma) * 2 ^ (ea - q).toNat
    let vb : Int := (if nb then -(mb : Int) else mb) * 2 ^ (eb - q).toNat
    decide (va < vb) || (zeros && va == vb && ma == 0 && na && !nb)

def FVal.isNan : FVal → Bool
  | .nan => true
  | _ => false

/-- Minimum (R122). -/
def FVal.min (a b : FVal) : FVal := if a.isNan || b.isNan then .nan else if b.lt true a then b else a

/-- Maximum (R122). -/
def FVal.max (a b : FVal) : FVal := if a.isNan || b.isNan then .nan else if a.lt true b then b else a

/-- The canonical binary64 tree of R124 over leaves: pairs of neighbours are summed until one node is left; `fuel`
bounds the levels. -/
def treeSum (fuel : Nat) (leaves : List FVal) : FVal :=
  match fuel, leaves with
  | _, [] => .fin false 0 FFmt.fp64.emin
  | _, [x] => x
  | 0, x :: _ => x
  | k + 1, xs => treeSum k (pairUp xs)
where
  /-- One level of the tree: neighbours summed, the lower index on the left. -/
  pairUp : List FVal → List FVal
    | a :: b :: r => FFmt.fp64.add a b :: pairUp r
    | l => l

/-- Leaves padded with +0 to a power of two (R101, R124). -/
def padLeaves (xs : List FVal) : List FVal :=
  let rec up (k p n : Nat) : Nat := match k with
    | 0 => p
    | k + 1 => if n ≤ p then p else up k (2 * p) n
  xs ++ List.replicate (up (xs.length + 1) 1 xs.length - xs.length) (.fin false 0 FFmt.fp64.emin)

/-- The vector sum of R124 before its last rounding. -/
def vectorSum (xs : List FVal) : FVal := treeSum (xs.length + 1) (padLeaves xs)

/-- Extreme of a list by a binary choice (R125). -/
def foldExtreme (op : FVal → FVal → FVal) (xs : List FVal) : FVal :=
  match xs with
  | [] => .nan
  | x :: r => r.foldl op x

/-- The lowest index of the maximum or minimum, or of the first NaN (R125). DESIGN CHOICE (log entry 115): -0 lies below +0
here as it does for maximum and minimum (R122). -/
def argExtreme (least : Bool) (xs : List FVal) : Nat :=
  match xs.findIdx? FVal.isNan with
  | some i => i
  | none =>
    let better (a b : FVal) : Bool := if least then b.lt true a else a.lt true b
    let r := xs.foldl (fun (acc : Nat × Nat × Option FVal) v =>
      match acc.2.2 with
      | none => (acc.1 + 1, acc.1, some v)
      | some m => if better m v then (acc.1 + 1, acc.1, some v) else (acc.1 + 1, acc.2.1, some m)) (0, 0, none)
    r.2.1

/-- The granule partial of a lane whose last place is 2^L (Table 3.3); for MX-FP4, with the E8M0 scale codes of the two blocks. -/
def Lane.granPartial (ln : Lane) (f : OpFormat) (L : Int) (sc0 sc1 : Nat × Nat) : GranPartial :=
  if f = .mxfp4 then { bits := mxPartial (mxHalf ln.s0 sc0) (mxHalf ln.s1 sc1), t := ln.t, flags := ln.flags }
  else if f.exact then { bits := BitVec.ofInt 96 ln.s1, t := ln.t, flags := ln.flags }
  else
    let r := round64 (2 * ln.s1 + (if ln.t then 1 else 0)) (L - 1)
    { bits := BitVec.ofNat 96 (FFmt.fp64.toBits (.fin (r.1 < 0) r.1.natAbs r.2)), t := ln.t, flags := ln.flags }

end Sys2Proof
end

