-- ==== Sys2Proof/Machine/Vector.lean ====
section
/-!
DEFINITION. The vector engine (4.1 to 4.3): elementwise operations, reductions, function tables and the composite
operations. An operation on a stopped engine does not come about (log entry 6).
-/
namespace Sys2Proof

/-- Absolute value; a NaN gives the NaN of R122. -/
def FVal.abs : FVal → FVal
  | .nan => .nan
  | .inf _ => .inf false
  | .fin _ m e => .fin false m e

/-- Whether a relation holds (IEEE 754: NaN is unordered and equal to nothing; -0 equals +0). -/
def VRel.holds (r : VRel) (a b : FVal) : Bool :=
  let un := a.isNan || b.isNan
  match r with
  | .lt => a.lt false b
  | .gt => b.lt false a
  | .le => !un && !(b.lt false a)
  | .ge => !un && !(a.lt false b)
  | .eq => !un && !(a.lt false b) && !(b.lt false a)
  | .ne => un || a.lt false b || b.lt false a

namespace Machine

/-- The elements of a vector register. -/
def State.vreg (s : State) (site r : Nat) : List Nat := s.eng.vregs.findD (site, r) (List.replicate 128 0)

/-- Element codes of a vector of `n` elements. A register group continues in the following registers; a core-store
vector is contiguous, and its bytes beyond the store read zero (R9). -/
def State.vread (s : State) (site : Nat) (o : VOpnd) (n : Nat) : List Nat :=
  match o.loc with
  | .reg r => (List.range n).map fun i =>
      let v := ((s.vreg site ((r + i / 128) % 32))[i % 128]?).getD 0
      if o.bf16 then v % 2 ^ 16 else v
  | .store a => (List.range n).map fun i =>
      let w := if o.bf16 then 2 else 4
      if a + i * w + w ≤ coreStoreSize then Mem.readN s.coreStore (coreAddr site (a + i * w)) w else 0

/-- The values of a vector: BF16 widens exactly (R121). -/
def State.vvals (s : State) (site : Nat) (o : VOpnd) (n : Nat) : List FVal :=
  (s.vread site o n).map fun b => if o.bf16 then FFmt.bf16.decode b else FFmt.fp32.decode b

/-- The vector engine of a site has written a result now. -/
def State.vecWrote (s : State) (site : Nat) : State := { s with eng := { s.eng with vecAt := s.eng.vecAt.put site s.elapsed } }

/-- Element codes written to a destination. Elements of a register beyond those written keep their value. DESIGN CHOICE (log entry 133): a
BF16 element lies in the low 16 bits of its register element. -/
def State.vwrite (s : State) (site : Nat) (o : VOpnd) (vs : List Nat) : State :=
  let s := s.vecWrote site
  match o.loc with
  | .reg r =>
    let upd (s : State) (iv : Nat × Nat) : State :=
      let k := (r + iv.1 / 128) % 32
      { s with eng := { s.eng with vregs := s.eng.vregs.put (site, k) ((s.vreg site k).set (iv.1 % 128) iv.2) } }
    ((List.range vs.length).zip vs).foldl upd s
  | .store a =>
    let w := if o.bf16 then 2 else 4
    let upd (m : Mem) (iv : Nat × Nat) : Mem :=
      if a + iv.1 * w + w ≤ coreStoreSize then m.writeN (coreAddr site (a + iv.1 * w)) w iv.2 else m
    { s with coreStore := ((List.range vs.length).zip vs).foldl upd s.coreStore }

/-- The code a binary32 result takes in its destination: rounded to BF16 where the destination is BF16 (R121). -/
def resultBits (bf16 : Bool) (v : FVal) : Nat :=
  if bf16 then FFmt.bf16.toBits (FFmt.bf16.convert v) else FFmt.fp32.toBits v

/-- What the code of core store found in a word that a unit of a site reads (R200): the state, and whether the word is there. A
corrected bit counts; an uncorrectable word fails the item and is contained at level 1 on its site. -/
def State.coreWord (s : State) (site : Nat) (item : Option ItemRef) (ecc : Ecc) : State × Bool :=
  match ecc with
  | .clean => (s, true)
  | .corrected => ((s.bump R.MOV_CS_ECC_CORR.COUNT site).countCe site, true)
  | .uncorrectable => ((s.set1 R.MOV_ERR.CS_UNCORR site).failWith (s.atSite .coreUncorr 1 site 5 item), false)

/-- Whether an operand lies in core store. -/
def VOpnd.inStore (o : VOpnd) : Bool := match o.loc with | .store _ => true | .reg _ => false

/-- The item an operation works on (R170): of the queue the command names, the one whose sequence the item's SEQ stands for. -/
def State.vecItem (s : State) (c : VCtl) : Option ItemRef := c.item.bind fun i => s.itemAt c.item (i.item % 2 ^ 20)

/-- What the code of the vector registers found before an operation on operands `src` (R141): nothing, a corrected bit that is
counted, or an uncorrectable error that stops the engine, fails the item and is contained at level 1; and what that of core store
found in the operands that lie there (R200). -/
def vecRun (c : VCtl) (src : List VOpnd) (s : State) (run : State → State) : Out :=
  let u : Nat := c.site
  let go (s : State) : Out :=
    match s.coreWord u (s.vecItem c) (if src.any VOpnd.inStore then c.store else .clean) with
    | (s, true) => .next (run s)
    | (s, false) => .next s
  match c.ecc with
  | .clean => go s
  | .corrected => go ((s.bump R.VEC_ECC_CORR.COUNT u).countCe u)
  | .uncorrectable =>
    let s := (s.set1 R.VEC_ERR.ECC_UNCORR u).wr R.VEC_STATE.STOPPED 1 u
    .next (s.failWith (s.atSite .coreUncorr 2 u 2 (s.vecItem c)))

/-- An operation of a vector engine, which a stopped engine does not run. -/
def vecOp (c : VCtl) (src : List VOpnd) (s : State) (run : State → State) : Out :=
  if s.flag R.VEC_STATE.STOPPED c.site then .next s else vecRun c src s run

/-- An elementwise operation on one operand. -/
def map1 (c : VCtl) (a : VOpnd) (f : FVal → FVal) (s : State) : Out :=
  vecOp c [a] s fun s => s.vwrite c.site c.dst ((s.vvals c.site a 128).map fun x => resultBits c.dst.bf16 (f x))

/-- An elementwise operation on two operands. -/
def map2 (c : VCtl) (a b : VOpnd) (f : FVal → FVal → FVal) (s : State) : Out :=
  vecOp c [a, b] s fun s => s.vwrite c.site c.dst
    (List.zipWith (fun x y => resultBits c.dst.bf16 (f x y)) (s.vvals c.site a 128) (s.vvals c.site b 128))

/-- A reduction over `n` elements whose one result is element 0 of the destination (log entry 22). -/
def reduceOp (c : VCtl) (a : VOpnd) (n : Nat) (f : List FVal → Nat) (s : State) : Out :=
  vecOp c [a] s fun s => s.vwrite c.site c.dst [f (s.vvals c.site a n)]

/-- VEC_ADD (R121). -/
def execVecAdd (c : VCtl) (a b : VOpnd) (s : State) : Out := map2 c a b FFmt.fp32.add s
/-- VEC_SUB (R121). -/
def execVecSub (c : VCtl) (a b : VOpnd) (s : State) : Out := map2 c a b (fun x y => FFmt.fp32.add x y.negate) s
/-- VEC_MUL (R121). -/
def execVecMul (c : VCtl) (a b : VOpnd) (s : State) : Out := map2 c a b FFmt.fp32.mul s
/-- VEC_FMA: a * b + d with one rounding (R121). -/
def execVecFma (c : VCtl) (a b d : VOpnd) (s : State) : Out :=
  vecOp c [a, b, d] s fun s => s.vwrite c.site c.dst (List.zipWith (fun xy z => resultBits c.dst.bf16 (FFmt.fp32.fma xy.1 xy.2 z))
    ((s.vvals c.site a 128).zip (s.vvals c.site b 128)) (s.vvals c.site d 128))
/-- VEC_MIN (R122). -/
def execVecMin (c : VCtl) (a b : VOpnd) (s : State) : Out := map2 c a b FVal.min s
/-- VEC_MAX (R122). -/
def execVecMax (c : VCtl) (a b : VOpnd) (s : State) : Out := map2 c a b FVal.max s

/-- VEC_ABS (R121, R122). -/
def execVecAbs (c : VCtl) (a : VOpnd) (s : State) : Out := map1 c a FVal.abs s
/-- VEC_NEG (R121, R122). -/
def execVecNeg (c : VCtl) (a : VOpnd) (s : State) : Out := map1 c a FVal.negate s

/-- VEC_COMPARE (R121); what true and false look like is not stated (Config.compareCode). -/
def execVecCompare (c : VCtl) (r : VRel) (a b : VOpnd) (s : State) : Out :=
  vecOp c [a, b] s fun s => s.vwrite c.site c.dst (List.zipWith (fun x y => (Config.compareCode (r.holds x y)).toNat)
    (s.vvals c.site a 128) (s.vvals c.site b 128))

/-- VEC_SELECT (R121): the element of `a` where the condition holds what a compare writes for true, else of `b`. -/
def execVecSelect (c : VCtl) (cond a b : VOpnd) (s : State) : Out :=
  vecOp c [cond, a, b] s fun s => s.vwrite c.site c.dst (List.zipWith
    (fun k xy => resultBits c.dst.bf16 (if k = (Config.compareCode true).toNat then xy.1 else xy.2))
    (s.vread c.site cond 128) ((s.vvals c.site a 128).zip (s.vvals c.site b 128)))

/-- VEC_FORMAT_CONVERSION between FP32 and BF16 (R121). -/
def execVecFormatConversion (c : VCtl) (a : VOpnd) (s : State) : Out := map1 c a id s

/-- The code of a sum's root in its destination format, rounded once (R124). -/
def sumBits (bf16 : Bool) (r : FVal) : Nat :=
  if bf16 then FFmt.bf16.toBits (FFmt.bf16.convert r) else FFmt.fp32.toBits (FFmt.fp32.convert r)

/-- The status of what a site's vector engine forms for an item (R168): the highest of the item's flits that its ingress ports have
read, and Failed once the item is. -/
def State.vecStatus (s : State) (site : Nat) (item : Option ItemRef) : TagStatus :=
  let seq := (item.elim 0 ItemRef.item) % 2 ^ 20
  let read := (List.range 8).filterMap fun p => (s.port (.ingress (Fin.ofNat 1152 site) (Fin.ofNat 8 p))).bind fun v =>
    if v.seen.tag.seq = seq then some v.seen.tag.status else none
  if item.any s.failed.has then .failed else read.foldl TagStatus.join .good

/-- The node of a piece of a sum that spans several cores, not rounded, goes on to a combining stage (R124, R108). -/
def State.sendPiece (s : State) (site : Nat) (p : SumPiece) (item : Option ItemRef) (r : FVal) : State :=
  let c := s.comb.findD site {}
  let tag : Tag := { owner := (s.siteOwner site).getD 0x7FF, stream := p.stream, granule := p.first
                     seq := (item.elim 0 ItemRef.item) % 2 ^ 20, status := s.vecStatus site item }
  let v : WaitNode := { reduction := 0, row := p.row, col := p.col, granule := p.first, level := p.level, node := {}
                        vec := some r, tag := tag, item := item }
  { s.vecWrote site with comb := s.comb.put site { c with forward := c.forward ++ [v] } }

/-- The leaves of one piece of a sum over several cores: 2^level elements, the missing ones +0 (R124). -/
def pieceLeaves (level : Nat) (xs : List FVal) : List FVal :=
  xs.take (2 ^ level) ++ List.replicate (2 ^ level - xs.length) (.fin false 0 FFmt.fp64.emin)

/-- REDUCE_SUM (R124): the root of the canonical tree, rounded once to the destination, or the node of one aligned piece of
a sum over several cores. -/
def execReduceSum (c : VCtl) (a : VOpnd) (n : Nat) (piece : Option SumPiece) (s : State) : Out :=
  match piece with
  | none => reduceOp c a n (fun xs => sumBits c.dst.bf16 (vectorSum xs)) s
  | some p => vecOp c [a] s fun s => s.sendPiece c.site p (s.vecItem c) (vectorSum (pieceLeaves p.level (s.vvals c.site a n)))
/-- REDUCE_MAX (R125). -/
def execReduceMax (c : VCtl) (a : VOpnd) (n : Nat) (s : State) : Out :=
  reduceOp c a n (fun xs => resultBits c.dst.bf16 (foldExtreme FVal.max xs)) s
/-- REDUCE_MIN (R125). -/
def execReduceMin (c : VCtl) (a : VOpnd) (n : Nat) (s : State) : Out :=
  reduceOp c a n (fun xs => resultBits c.dst.bf16 (foldExtreme FVal.min xs)) s
/-- ARGMAX (R125): the index as a whole number. -/
def execArgmax (c : VCtl) (a : VOpnd) (n : Nat) (s : State) : Out := reduceOp c a n (argExtreme false) s
/-- ARGMIN (R125): the index as a whole number. -/
def execArgmin (c : VCtl) (a : VOpnd) (n : Nat) (s : State) : Out := reduceOp c a n (argExtreme true) s

/-! ### Function tables -/

/-- A coefficient of a segment as a value. -/
def coefVal (set func seg k : Nat) : FVal := FFmt.fp32.decode (Config.ftabCoef set func seg k).toNat

/-- `fma(d, fma(d, c2, c1), c0)` (R132). -/
def polyEval (set func seg : Nat) (d : FVal) : FVal :=
  FFmt.fp32.fma d (FFmt.fp32.fma d (coefVal set func seg 2) (coefVal set func seg 1)) (coefVal set func seg 0)

/-- `p * 2^k` with one rounding. -/
def scalePow (p : FVal) (k : Int) : FVal :=
  match p with
  | .fin n m e => FFmt.fp32.round n (if n then -(m : Int) else m) (e + k)
  | v => v

/-- An exact number as an operand. -/
def exactVal (n e : Int) : FVal := .fin (n < 0) n.natAbs e

/-- A positive number as `m * 2^k` with m in [1, 2): the fraction part of m over 2^w, w and k. -/
def splitNormal (m : Nat) (e : Int) : Nat × Nat × Int :=
  let w := Nat.log2 m
  (m - 2 ^ w, w, e + w)

/-- The value of a table function (R132, Table 4.2) with a valid header. DESIGN CHOICE (log entry 114): where an offset d
has no FP32 encoding, which 4.3 says of none, the exact value of d enters the fused multiply-adds. DESIGN CHOICE (log entry 132): the
reciprocal of a negative value is that of its magnitude, negated. -/
def tableEval (set : Nat) (h : FtabHdr) (x : FVal) : FVal :=
  match x with
  | .nan => .nan
  | x =>
    match h.kind with
    | 1 => -- exp2
      match x with
      | .inf neg => if neg then .fin false 0 FFmt.fp32.emin else .inf false
      | x =>
        let (n, e) := x.signedMant
        -- x in units of 2^b with b at most -8
        let b := min e (-8)
        let v := n * 2 ^ (e - b).toNat
        let one : Int := 2 ^ (-b).toNat
        if 128 * one < v then .inf false
        else if v < -150 * one then .fin false 0 FFmt.fp32.emin
        else
          let k := v.fdiv one
          let f := v - k * one
          let sg := (256 * f).fdiv one
          scalePow (polyEval set h.func sg.toNat (exactVal (f - sg * one / 256) b)) k
    | 2 => -- log2
      match x with
      | .inf neg => if neg then .nan else .inf false
      | .fin neg m e =>
        if m = 0 then .inf true else if neg then .nan
        else
          let (fr, w, k) := splitNormal m e
          let sg := fr * 256 / 2 ^ w
          let d := exactVal ((fr * 256 : Nat) - (sg * 2 ^ w : Nat)) (-(w : Int) - 8)
          FFmt.fp32.add (FFmt.fp32.convert (exactVal k 0)) (polyEval set h.func sg d)
      | .nan => .nan
    | 3 => -- reciprocal
      match x with
      | .inf neg => FFmt.fp32.decode (Config.recipOfInf neg).toNat
      | .fin neg m e =>
        if m = 0 then .inf neg
        else
          let (fr, w, k) := splitNormal m e
          let sg := fr * 256 / 2 ^ w
          let d := exactVal ((fr * 256 : Nat) - (sg * 2 ^ w : Nat)) (-(w : Int) - 8)
          let r := scalePow (polyEval set h.func sg d) (-k)
          if neg then r.negate else r
      | .nan => .nan
    | 4 => -- reciprocal square root
      match x with
      | .inf neg => if neg then .nan else FFmt.fp32.decode Config.rsqrtOfInf.toNat
      | .fin neg m e =>
        if m = 0 then .inf false else if neg then .nan
        else
          let (_, w, k) := splitNormal m e
          -- m in [1, 4) with k even: value mant / 2^w'
          let odd := k.fmod 2 = 1
          let k' := if odd then k - 1 else k
          let mant := if odd then 2 * m else m
          let sg := (256 * (mant - 2 ^ w)) / (3 * 2 ^ w)
          let d := exactVal ((256 * (mant - 2 ^ w) : Nat) - (3 * sg * 2 ^ w : Nat)) (-(w : Int) - 8)
          scalePow (polyEval set h.func sg d) (-(k' / 2))
      | .nan => .nan
    | _ => -- interval
      let lo := FFmt.fp32.decode h.lo
      let hi := FFmt.fp32.decode h.hi
      if x.lt false lo then FFmt.fp32.decode h.left
      else if hi.lt false x then FFmt.fp32.decode h.right
      else
        let (nx, ex) := x.signedMant
        let (nl, el) := lo.signedMant
        let (nh, eh) := hi.signedMant
        let b := min ex (min el eh)
        let vx := nx * 2 ^ (ex - b).toNat
        let vl := nl * 2 ^ (el - b).toNat
        let vh := nh * 2 ^ (eh - b).toNat
        let sg := min 255 ((256 * (vx - vl)).fdiv (vh - vl))
        polyEval set h.func sg.toNat (exactVal (256 * (vx - vl) - sg * (vh - vl)) (b - 8))

/-- The header of a slot that holds function `func`, or nothing where the slot is invalid or holds another (R133). -/
def State.tableSlot (s : State) (slot func : Nat) : Option FtabHdr :=
  match s.eng.ftab.find slot with
  | some h => if 1 ≤ h.kind ∧ h.kind ≤ 5 ∧ h.func = func then some h else none
  | none => none

/-- An operation names an invalid or mismatched slot: no result, the flag, and the item Failed (R133). -/
def tableInvalid (c : VCtl) (s : State) : State :=
  let s := s.set1 R.VEC_ERR.TABLE_INVALID c.site
  s.failWith (s.atSite .program 4 c.site 2 (s.vecItem c))

/-- A table function over one vector. -/
def tableOp (c : VCtl) (slot func : Nat) (a : VOpnd) (s : State) : Out :=
  vecOp c [a] s fun s =>
    match s.tableSlot slot func with
    | none => tableInvalid c s
    | some h => s.vwrite c.site c.dst ((s.vvals c.site a 128).map fun x =>
        resultBits c.dst.bf16 (tableEval s.eng.ftabSet h x))

/-- EXP2 (R132). -/
def execExp2 (c : VCtl) (slot : Nat) (a : VOpnd) (s : State) : Out := tableOp c slot 0x01 a s
/-- LOG2 (R132). -/
def execLog2 (c : VCtl) (slot : Nat) (a : VOpnd) (s : State) : Out := tableOp c slot 0x02 a s
/-- RECIPROCAL (R132). -/
def execReciprocal (c : VCtl) (slot : Nat) (a : VOpnd) (s : State) : Out := tableOp c slot 0x03 a s
/-- RECIPROCAL_SQUARE_ROOT (R132). -/
def execReciprocalSquareRoot (c : VCtl) (slot : Nat) (a : VOpnd) (s : State) : Out := tableOp c slot 0x04 a s
/-- INTERVAL_FUNCTION: the function the program names by its FUNC code (R132, Table 4.3). -/
def execIntervalFunction (c : VCtl) (slot func : Nat) (a : VOpnd) (s : State) : Out := tableOp c slot func a s

/-- The FP32 constant log2(e) of R130. -/
def log2e : FVal := FFmt.fp32.decode 0x3FB8AA3B

/-- The steps of softmax (R130). -/
def softmaxVals (set : Nat) (hExp hRecip : FtabHdr) (xs : List FVal) : List FVal :=
  let m := foldExtreme FVal.max xs
  let es := xs.map fun x => tableEval set hExp (FFmt.fp32.mul (FFmt.fp32.add x m.negate) log2e)
  let r := tableEval set hRecip (FFmt.fp32.convert (vectorSum es))
  es.map fun e => FFmt.fp32.mul e r

/-- SOFTMAX over n elements (R130); the slots hold exp2 and reciprocal. -/
def execSoftmax (c : VCtl) (slotExp slotRecip : Nat) (a : VOpnd) (n : Nat) (s : State) : Out :=
  vecOp c [a] s fun s =>
    match s.tableSlot slotExp 0x01, s.tableSlot slotRecip 0x03 with
    | some he, some hr => s.vwrite c.site c.dst ((softmaxVals s.eng.ftabSet he hr (s.vvals c.site a n)).map
        (resultBits c.dst.bf16))
    | _, _ => tableInvalid c s

/-- The steps of layer normalisation (R130). -/
def layerNormVals (set : Nat) (hRsqrt : FtabHdr) (eps : FVal) (xs gs bs : List FVal) : List FVal :=
  let n := xs.length
  let mu := FFmt.fp32.convert (FFmt.fp64.divNat (vectorSum xs) n)
  let ds := xs.map fun x => FFmt.fp32.add x mu.negate
  let v := FFmt.fp32.convert (FFmt.fp64.divNat (vectorSum (ds.map fun d => FFmt.fp64.mul d d)) n)
  let q := tableEval set hRsqrt (FFmt.fp32.add v eps)
  List.zipWith (fun dg b => FFmt.fp32.fma dg.1 (FFmt.fp32.mul q dg.2) b) (ds.zip gs) bs

/-- LAYER_NORMALISATION over n elements (R130); `eps` is the FP32 code of the image. -/
def execLayerNormalisation (c : VCtl) (slotRsqrt : Nat) (eps : Nat) (a g b : VOpnd) (n : Nat) (s : State) : Out :=
  vecOp c [a, g, b] s fun s =>
    match s.tableSlot slotRsqrt 0x04 with
    | some h => s.vwrite c.site c.dst ((layerNormVals s.eng.ftabSet h (FFmt.fp32.decode eps) (s.vvals c.site a n)
        (s.vvals c.site g n) (s.vvals c.site b n)).map (resultBits c.dst.bf16))
    | none => tableInvalid c s

end Machine
end Sys2Proof
end

