-- ==== Sys2Proof/Machine/Movers.lean ====
section
/-!
DEFINITION. Movers (6.2, 6.3, 6.7). A descriptor is posted, started, has its source lines read through requests, moves
its data in one event of its own (COPY, FEED, LOAD, GATHER, SCATTER, ZERO), has its writes acknowledged, and completes.
-/
namespace Sys2Proof

/-- Bits [lo + w - 1 : lo] of a number. -/
def bitsAt (v lo w : Nat) : Nat := v / 2 ^ lo % 2 ^ w

/-- A 32-bit two's complement number. -/
def signed32 (v : Nat) : Int := if v % 2 ^ 32 < 2 ^ 31 then (v % 2 ^ 32 : Nat) else ((v % 2 ^ 32 : Nat) : Int) - 2 ^ 32

/-- The format of a code of Table 3.1. -/
def OpFormat.ofCode (c : Nat) : Option OpFormat :=
  match c with
  | 0 => some .int8 | 1 => some .int4 | 2 => some .mxfp4 | 3 => some .e4m3 | 4 => some .e5m2 | 5 => some .bf16
  | 6 => some .fp16 | 7 => some .int16 | 8 => some .fp32 | 9 => some .cint16 | _ => none

/-- Items that share a position (Table 3.1). -/
def OpFormat.perPos (f : OpFormat) : Nat := match f with | .int4 | .mxfp4 => 2 | _ => 1

/-- Bytes of one source element (log entry 33: four-bit elements take a byte each). -/
def OpFormat.srcBytes (f : OpFormat) : Nat :=
  match f with
  | .int8 | .int4 | .mxfp4 | .e4m3 | .e5m2 => 1
  | .bf16 | .fp16 | .int16 => 2
  | .fp32 | .cint16 => 4

/-- Bytes of a lane in a FEED line (Table 6.3). -/
def OpFormat.laneBytes (f : OpFormat) : Nat := match f with | .bf16 | .fp16 => 2 | _ => 1

/-- The highest slice digit of a format. DESIGN CHOICE (log entry 137): a DIGIT that the format or the operation does not have is refused
as a field breach of R205. -/
def OpFormat.maxDigit (f : OpFormat) : Nat := match f with | .int16 | .cint16 => 1 | .fp32 => 2 | _ => 0

def FieldSt.h (f : FieldSt) : Nat := ((shapeDims f.shape).getD (1, 1)).1
def FieldSt.w (f : FieldSt) : Nat := ((shapeDims f.shape).getD (1, 1)).2
/-- Rows of cells. -/
def FieldSt.rows (f : FieldSt) : Nat := 64 * f.h
/-- Columns of cells. -/
def FieldSt.cols (f : FieldSt) : Nat := 64 * f.w

/-- The index of a value in a list. -/
def indexIn (l : List Nat) (v : Nat) : Option Nat := l.findIdx? fun x => x = v

/-- Fields of a descriptor (Table 6.2). -/
structure Desc where
  op : Nat
  srcSp : Nat
  dstSp : Nat
  fmt : Nat
  esize : Nat
  digit : Nat
  nextPage : Bool
  fence : Bool
  bank : Bool
  eop : Bool
  eoi : Bool
  granule : Nat
  src : Nat
  dst : Nat
  nIn : Nat
  nOut : Nat
  idx : Nat
  sIn : Int
  sOut : Int
  dIn : Int
  dOut : Int
  mask : Nat
  seq : Nat
  status : Nat
  /-- a reserved field is not zero -/
  odd : Bool
  deriving DecidableEq, Repr

/-- The fields of a descriptor's eight words (R201). -/
def Desc.ofWords (ws : List Nat) : Desc :=
  let w (k : Nat) : Nat := (ws[k]?).getD 0
  { op := bitsAt (w 0) 0 4, srcSp := bitsAt (w 0) 4 3, dstSp := bitsAt (w 0) 7 3, fmt := bitsAt (w 0) 10 4
    esize := bitsAt (w 0) 14 2, digit := bitsAt (w 0) 16 2, nextPage := bitsAt (w 0) 18 1 = 1
    fence := bitsAt (w 0) 19 1 = 1, bank := bitsAt (w 0) 20 1 = 1, eop := bitsAt (w 0) 21 1 = 1
    eoi := bitsAt (w 0) 22 1 = 1, granule := bitsAt (w 0) 23 16, src := bitsAt (w 1) 0 56, dst := bitsAt (w 2) 0 56
    nIn := bitsAt (w 3) 0 16, nOut := bitsAt (w 3) 16 16, idx := bitsAt (w 3) 32 21
    sIn := signed32 (bitsAt (w 4) 0 32), sOut := signed32 (bitsAt (w 4) 32 32)
    dIn := signed32 (bitsAt (w 5) 0 32), dOut := signed32 (bitsAt (w 5) 32 32), mask := w 6
    seq := bitsAt (w 7) 0 20, status := bitsAt (w 7) 20 2
    odd := bitsAt (w 0) 39 25 ≠ 0 ∨ bitsAt (w 1) 56 8 ≠ 0 ∨ bitsAt (w 2) 56 8 ≠ 0 ∨ bitsAt (w 3) 53 11 ≠ 0
      ∨ bitsAt (w 7) 22 42 ≠ 0 }

/-- The status of a tag field. -/
def TagStatus.ofCode (c : Nat) : TagStatus :=
  match c with
  | 0 => .good | 1 => .absent | 2 => .late | _ => .failed

/-- The tag of a descriptor's transfers: the owner is that of the descriptor's clearing, the rest as the descriptor says (R165,
R166). -/
def Desc.tag (d : Desc) (owner : Nat) : Tag :=
  { owner := owner, granule := d.granule, bank := d.bank, eop := d.eop, eoi := d.eoi, status := TagStatus.ofCode d.status, seq := d.seq }

/-- The space of a code (Table 6.1). -/
def Space.ofCode (c : Nat) : Option Space :=
  match c with
  | 0 => some .core | 1 => some .cluster | 2 => some .hbm | 3 => some .woruri | 4 => some .host | _ => none

/-- Bytes of one element a descriptor moves. -/
def Desc.bytes (d : Desc) : Nat :=
  if d.op = 2 ∨ d.op = 3 then ((OpFormat.ofCode d.fmt).map OpFormat.srcBytes).getD 1 else 2 ^ d.esize

/-- Source address of element (o, j), with the index list of a GATHER (R202). -/
def Desc.srcAt (d : Desc) (idx : List Nat) (o j : Nat) : Int :=
  let o' := if d.op = 4 then (idx[o]?).getD 0 else o
  d.src + (o' : Int) * d.sOut + (j : Int) * d.sIn

/-- Destination address of element (o, j), with the index list of a SCATTER (R202). -/
def Desc.dstAt (d : Desc) (idx : List Nat) (o j : Nat) : Int :=
  let o' := if d.op = 5 then (idx[o]?).getD 0 else o
  d.dst + (o' : Int) * d.dOut + (j : Int) * d.dIn

/-- Elements (o, j), o first. -/
def Desc.elems (d : Desc) : List (Nat × Nat) :=
  (List.range d.nOut).flatMap fun o => (List.range d.nIn).map fun j => (o, j)

/-- Elements a FEED or LOAD reads: those of fed lanes or columns (R208, R210, R212). -/
def Desc.fedElems (d : Desc) : List (Nat × Nat) :=
  let cx := d.fmt = 9
  let bit (k : Nat) : Bool := d.mask.testBit k
  if d.op = 2 then d.elems.filter fun e => if cx then bit (2 * e.2) || bit (2 * e.2 + 1) else bit e.2
  else if d.op = 3 then d.elems.filter fun e => if cx then bit (2 * e.1) || bit (2 * e.1 + 1) else bit e.1
  else if d.op = 6 then []
  else d.elems

/-- The 256-byte lines that `n` bytes at an address touch. -/
def linesOf (a n : Nat) : List Nat := (List.range ((a + n - 1) / 256 - a / 256 + 1)).map fun k => a / 256 + k

/-- A list without repeats, in order of first appearance. -/
def dedupe (l : List Nat) : List Nat := l.foldl (fun acc x => if acc.contains x then acc else acc ++ [x]) []

/-- An address of 56 bits. -/
def addr56 (a : Int) : Nat := (a % 2 ^ 56).toNat

/-- Positions of a FEED (R208). -/
def Desc.positions (d : Desc) : Nat := d.nOut / ((OpFormat.ofCode d.fmt).map OpFormat.perPos).getD 1

/-- Bytes a FEED writes: its lines and its control entries (R208, R209). -/
def Desc.feedSize (d : Desc) : Nat :=
  match OpFormat.ofCode d.fmt with
  | some f => (d.positions + 63) * (64 * f.laneBytes) + 16 * (if f.exact then 1 else d.positions)
  | none => 0

/-- Whether a descriptor may be executed (R201, R205): `H` is the height of the field whose load lanes a LOAD feeds. -/
def Desc.legal (d : Desc) (idx : List Nat) (H : Option Nat) : Bool :=
  let n : Int := d.bytes
  let inside (sp : Nat) (a : Int) : Bool :=
    if sp = 0 then decide (0 ≤ a) && decide (a + n ≤ 0x180000)
    else if sp = 1 then decide (0 ≤ a) && decide (a + n ≤ 0x4000000) else true
  let moves := d.op = 1 ∨ d.op = 4 ∨ d.op = 5 ∨ d.op = 6
  let fmt := OpFormat.ofCode d.fmt
  let common := decide (1 ≤ d.op) && decide (d.op ≤ 6) && decide (d.srcSp ≤ 4) && decide (d.dstSp ≤ 4) && !d.odd
    && decide (1 ≤ d.nIn) && decide (1 ≤ d.nOut)
  let moveOk := decide moves && decide (d.fmt = 0) && decide (d.digit = 0)
    && (decide (d.op ≠ 6) || decide (d.srcSp = 0))
    && (decide (d.op ≠ 4 ∧ d.op ≠ 5) || (decide (d.idx % 4 = 0) && decide (d.idx + 4 * d.nOut ≤ 0x180000)))
    && d.elems.all (fun e => inside d.dstSp (d.dstAt idx e.1 e.2))
    && (decide (d.op = 6) || d.elems.all fun e => inside d.srcSp (d.srcAt idx e.1 e.2))
  let srcOk := d.fedElems.all fun e => inside d.srcSp (d.srcAt idx e.1 e.2)
  let laneOk := match fmt with
    | some f => decide (d.dstSp = 0) && decide (d.digit ≤ f.maxDigit) && srcOk &&
      (if d.op = 2 then
        decide (d.nIn ≤ (if d.fmt = 9 then 32 else 64)) && decide (d.nOut % f.perPos = 0)
          && decide (d.dst + d.feedSize ≤ 0x180000)
      else
        decide (d.nOut ≤ (if d.fmt = 9 then 32 else 64)) && (match H with
          | some h => decide ((if d.fmt = 9 then 2 * d.nIn else d.nIn) = h)
          | none => false))
    | none => false
  common && (if moves then moveOk else laneOk)

/-- The exponent word of a control entry (Table 5.4). -/
def exponentWord (e : Option Int) : Nat :=
  match e with
  | some v => (v % 4096).toNat + 4096
  | none => 0

/-- The digit byte of a real INT16 part (R110). -/
def digitByte (digit part : Nat) : Nat := if digit = 0 then part % 65536 / 256 else part % 256

/-- The distinct remote source lines of a descriptor, in order (R203). -/
def Desc.srcLines (d : Desc) (idx : List Nat) : List Nat :=
  if d.srcSp < 2 then []
  else dedupe (d.fedElems.flatMap fun e => linesOf (addr56 (d.srcAt idx e.1 e.2)) d.bytes)

/-- The distinct remote destination lines of a descriptor. -/
def Desc.dstLines (d : Desc) (idx : List Nat) : List Nat :=
  if d.dstSp < 2 ∨ d.op = 2 ∨ d.op = 3 then []
  else dedupe (d.elems.flatMap fun e => linesOf (addr56 (d.dstAt idx e.1 e.2)) d.bytes)

/-- Whether a descriptor reads an index list (R202). -/
def Desc.indexed (d : Desc) : Bool := d.op = 4 || d.op = 5

/-- The 256-byte lines of core store that a descriptor writes. -/
def Desc.coreLines (d : Desc) (idx : List Nat) : List Nat :=
  if d.dstSp ≠ 0 ∨ d.op = 3 then []
  else if d.op = 2 then linesOf d.dst d.feedSize
  else dedupe (d.elems.flatMap fun e => linesOf (addr56 (d.dstAt idx e.1 e.2)) d.bytes)

/-- Whether an earlier descriptor of the mover, not yet moved, is to write a line of a descriptor's index list (R204). -/
def Mover.indexBlocked (m : Mover) (d : Desc) : Bool :=
  d.indexed && m.active.any fun q => !q.moved &&
    ((Desc.ofWords q.words).coreLines q.idx).any (linesOf d.idx (4 * d.nOut)).contains

/-- The bank group of a request, for those that hold HBM slots. -/
def MovReq.group (r : MovReq) : Option (Nat × Nat × Nat × Nat) :=
  match r.space, r.key with
  | .hbm, .hbm n => some (bankGroup n)
  | _, _ => none

/-- Whether a request touches a line that an earlier incomplete descriptor of the mover writes (R204), or that a write
still pending from before a restore holds (R360). -/
def Mover.blocked (m : Mover) (r : MovReq) : Bool :=
  (m.active.any fun d => d.serial < r.desc && d.wlines.contains (r.space, r.line))
    || m.late.any fun q => q.write.isSome && q.space = r.space && q.line = r.line

/-- Requests of a bank group that hold slots. -/
def Mover.groupUse (m : Mover) (g : Option (Nat × Nat × Nat × Nat)) : Nat := (m.slots.filter fun r => r.group = g).length

/-- A descriptor of a mover changed. -/
def Mover.setDesc (m : Mover) (d : MovDesc) : Mover :=
  { m with active := m.active.map fun x => if x.serial = d.serial then d else x }

/-- A request leaves its descriptor's list. -/
def Mover.takeReq (m : Mover) (r : MovReq) : Mover :=
  { m with active := m.active.map fun d => if d.serial = r.desc then
      { d with todo := d.todo.filter fun q => q.id ≠ r.id, waiting := d.waiting ++ [r.id] } else d }

/-- A request that is not sent leaves its descriptor (R206, R432): a read of it gives zeros, and a write holds no line. -/
def Mover.refuseReq (m : Mover) (r : MovReq) : Mover :=
  { m with active := m.active.map fun d => if d.serial = r.desc then
      { d with todo := d.todo.filter (fun q => q.id ≠ r.id)
               wlines := if r.write.isSome then d.wlines.filter (fun l => l ≠ (r.space, r.line)) else d.wlines } else d }

/-- The descriptor whose movement is next: the oldest not yet moved, once its reads are all there. -/
def Mover.moving (m : Mover) : Option MovDesc :=
  if m.dead then none
  else match m.active.find? fun d => !d.moved with
  | some d => if d.todo.isEmpty ∧ d.waiting.isEmpty then some d else none
  | none => none

/-- An answer reaches a mover: its slot or its pending entry frees, a read's data are staged, and an acknowledged write no longer holds
its line. Of two answers to one read, which was issued again after a restore, the first is taken, whichever request it answers, and the
second is discarded (R360); a read answered so before it was issued again is not. DESIGN CHOICE (log entry 142): of two requests of one
read that are out, an answer ends the pending entry. -/
def Mover.takeAnswer (m : Mover) (r : MovResp) : Mover :=
  let keep (l : List MovReq) : List MovReq := l.filter fun q => q.id ≠ r.req.id
  let again := m.late.any fun q => q.id = r.req.id
  let gone (l : List MovReq) : List MovReq := if again then l else keep l
  let upd (d : MovDesc) : MovDesc :=
    if d.serial ≠ r.req.desc ∨ !d.waiting.contains r.req.id then d
    else
      let d := { d with waiting := d.waiting.filter (fun k => k ≠ r.req.id), failed := d.failed || r.failed, owed := d.owed || (r.failed && !r.noted)
                        todo := keep d.todo }
      match r.req.write with
      | none => { d with staged := d.staged.put (r.req.space, r.req.line) r.data }
      | some _ => { d with wlines := d.wlines.filter fun l => l ≠ (r.req.space, r.req.line) }
  { m with slots := gone m.slots, fabric := gone m.fabric, host := gone m.host, late := keep m.late
           parked := if again then keep m.parked else m.parked, active := m.active.map upd }

/-- The status of what a descriptor forms (R168): its own, and Failed of data that were bad. -/
def MovDesc.out (q : MovDesc) (bad : Bool) : TagStatus := q.status.join (if bad then .failed else .good)

namespace Machine

/-- The field an engine's site belongs to, with its block row and block column. -/
def State.fieldOf (s : State) (site : Nat) : Option (Nat × FieldSt × Nat × Nat) :=
  s.fields.findSome? fun e =>
    match indexIn e.2.sites site with
    | some i => some (e.1, e.2, i / e.2.w, i % e.2.w)
    | none => none

/-- DESCRIPTOR_POST (R204): a program posts the descriptor it wrote at a core-store offset. Its item is that of the queue the command
names whose sequence the descriptor's SEQ stands for (R170). `ecc` is what the code of core store found in its words (R200). -/
def execDescriptorPost (site : Site) (off : Nat) (item : Option ItemRef) (ecc : Ecc) (s : State) : Out :=
  let m := s.mover site
  if 32 ≤ m.queue.length ∨ coreStoreSize < off + 64 then .next s
  else
    let ws := (List.range 8).map fun k => s.coreStore.readN (coreAddr site (off + 8 * k)) 8
    let d : MovDesc := { words := ws, serial := m.next, owner := s.rd R.STR_SITE.OWNER site,
                         item := s.itemAt item (Desc.ofWords ws).seq }
    match s.coreWord site d.item ecc with
    | (s, true) => .next (s.setMover site { s.mover site with queue := m.queue ++ [d], next := m.next + 1 })
    | (s, false) => .next s

/-- The index list of a GATHER or SCATTER (R202). -/
def State.indexList (s : State) (site : Nat) (d : Desc) : List Nat :=
  if d.indexed then (List.range d.nOut).map fun k => s.coreStore.readN (coreAddr site (d.idx + 4 * k)) 4 else []

/-- Whether an import window of an owner covers a fabric line with write permission (R432). -/
def State.worWritable (s : State) (owner line : Nat) : Bool :=
  s.wor.imports.any fun e => e.1.1 = owner && e.2.write && e.2.covers (line * 256) 256

/-- The key of a line of a space for an owner, or nothing where the access is denied (R206, R432, R514). Host lines carry
their own number. -/
def State.lineKey (s : State) (owner : Nat) (sp : Space) (line : Nat) (write : Bool) : Option LineKey :=
  match sp with
  | .hbm => (s.deviceLine owner line write).map .hbm
  | .woruri => if (if write then s.worWritable owner line else s.worReadable owner line) then some (.wor line) else none
  | .host => (s.hostFn owner).map fun _ => .wor line
  | _ => none

/-- The requests for a list of lines, numbered from `k`, with the status `st`; denied lines are counted by the caller. -/
def State.requests (s : State) (d : MovDesc) (st : TagStatus) (sp : Space) (ls : List (Nat × Option LineBytes)) (k : Nat)
    (pf : Option Nat) (np : Bool) : List MovReq :=
  ((ls.filterMap fun l => (s.lineKey d.owner sp l.1 l.2.isSome).map fun key => (l, key)).zipIdx k).map fun x =>
    { id := x.2, desc := d.serial, space := sp, line := x.1.1.1, key := x.1.2, write := x.1.1.2
      tag := { (Desc.ofWords d.words).tag d.owner with status := st },
      pfLast := pf, nextPage := np, item := d.item }

/-- Whether lines rise without gaps (R224). -/
def gapless (l : List Nat) : Bool :=
  match l with
  | a :: b :: r => b = a + 1 && gapless (b :: r)
  | _ => true

/-- The status that a descriptor gives its transfers (R168, R169): Absent and Late mean Failed to a mover that serves no glade, which
records it and fails the item. -/
def State.descStatus (s : State) (site : Nat) (q : MovDesc) (d : Desc) : State × TagStatus :=
  let (s, st, r) := s.servedStatus (s.isGlade q.owner) q.owner site (TagStatus.ofCode d.status)
  (match r with | some r => s.failItem q.item r | none => s, st)

/-- DESCRIPTOR_START (R204, R205): the descriptor at the head of the queue starts, unless its owner's movers are stopped,
it has FENCE set and earlier descriptors are incomplete, or an earlier one is to write lines of its index list. An illegal one is not
executed, nor is a FEED of a borrow context with more than 2,048 positions (R368). `ecc` is what the code of core store found in the index list (R200). -/
def execDescriptorStart (site : Site) (ecc : Ecc) (s : State) : Out :=
  let m := s.mover site
  match m.queue with
  | [] => .next s
  | q :: rest =>
    let d := Desc.ofWords q.words
    if m.halt ∨ s.mem.movStop.contains q.owner ∨ (d.fence ∧ !m.active.isEmpty) ∨ m.indexBlocked d then .next s
    else match s.coreWord site q.item (if d.indexed then ecc else .clean) with
    | (s, false) => .next (s.setMover site { s.mover site with queue := rest })
    | (s, true) =>
      let idx := s.indexList site d
      let H := match s.fieldOf site with
        | some (_, f, r, _) => if r = 0 then some f.rows else none
        | none => none
      if !d.legal idx H ∨ (d.op = 2 ∧ 2048 < d.positions ∧ s.borrowAt site) then
        let s := (s.setMover site { m with queue := rest }).set1 R.MOV_ERR.DESC_FORMAT site
        .next (s.failWith (s.atSite .program 8 site 5 q.item))
      else
        let sp := (Space.ofCode d.srcSp).getD .core
        let ls := d.srcLines idx
        let (s, st) := s.descStatus site q d
        let rq := s.requests q st sp (ls.map fun l => (l, none)) m.nextReq (if gapless ls then ls.getLast? else none)
          d.nextPage
        let denied := (ls.filter fun l => (s.lineKey q.owner sp l false).isNone).length
        let dsp := (Space.ofCode d.dstSp).getD .core
        let q := { q with idx := idx, status := q.status.join st, todo := rq, wlines := (d.dstLines idx).map fun l => (dsp, l) }
        let s := s.setMover site { m with queue := rest, active := m.active ++ [q], nextReq := m.nextReq + rq.length }
        .next (s.violate R.SCH_TEN_VIOL.MEM q.owner denied)

/-! ### Requests -/

/-- A request goes out: to the home line cache of its line, or to the host. -/
def State.issue (s : State) (site : Nat) (r : MovReq) : State :=
  match r.space with
  | .host => s
  | _ =>
    let d := r.key.home (Unit.dieOf site)
    let c := s.cache d
    let q : LcReq := { key := r.key, write := r.write, glade := s.isGlade r.owner, owner := r.owner, mover := some (site, r) }
    s.setCache d { c with inq := c.inq ++ [q] }

/-- A 256-byte line or its bytes with the 8-byte word `w` zero. -/
def zeroWord (b : LineBytes) (w : Nat) : LineBytes := b.map fun x => if x.1 / 8 = w then (x.1, 0) else x

/-- A request crosses to the HBM island (Table 5.1): a corrected bit counts for the cluster; an uncorrectable word of the data is
zeroed and its item fails; with an uncorrectable tag the request is lost, its mover stops, and the error is contained at level 1 on the
mover's core (R186, R187). -/
def State.issueEcc (s : State) (site : Nat) (r : MovReq) (ecc : EntryEcc) : State :=
  match ecc with
  | .clean => s.issue site r
  | .corrected => (s.correctedWord site (Unit.clusterOf site) true).issue site r
  | .payload w =>
    let s := (s.set1 R.STR_ERR.DATA_UNCORR site).failWith
      { s.atSite .dataUncorr 2 site 7 r.item with recUnit := none, owner := some r.owner }
    s.issue site { r with write := r.write.map fun b => zeroWord b w }
  | .tagWord => s.lostTransfer site

/-- HBM_REQUEST_ISSUE (R204, R227 to R229, R518): a parked request whose bank group has room issues, or else the next request
that may issue; a request whose group holds 12 parks. Of the host link's 2,048 reads and 512 writes of 64 bytes a request that does
not fit waits. A fabric request that no import window of the owner covers by then is not sent, and counts (R432). `ecc` is what the code of the
crossing toward HBM found. -/
def execHbmRequestIssue (site : Site) (ecc : EntryEcc) (s : State) : Out :=
  let m := s.mover site
  let ready (r : MovReq) : Bool := m.groupUse r.group < 12
  if m.halt then .next s else
  match (if m.slots.length < 48 then m.parked.find? ready else none) with
  | some r =>
    .next ((s.setMover site { m with parked := m.parked.filter (fun q => q.id ≠ r.id), slots := m.slots ++ [r] }).issueEcc
      site r ecc)
  | none =>
    if 16 ≤ m.parked.length then .next s
    else
      match (m.active.flatMap MovDesc.todo).find? fun r => !m.blocked r with
      | none => .next s
      | some r =>
        match r.space with
        | .woruri =>
          if (s.lineKey r.owner .woruri r.line r.write.isSome).isNone then
            .next ((s.setMover site (m.refuseReq r)).violate R.SCH_TEN_VIOL.MEM r.owner 1)
          else if 512 ≤ m.fabric.length then .next s
          else
            let m := m.takeReq r
            .next ((s.setMover site { m with fabric := m.fabric ++ [r] }).issue site r)
        | .host =>
          if (if r.write.isSome then 512 else 2048) < s.hostRequests r.write.isSome + r.hostParts then .next s
          else
            let m := m.takeReq r
            .next (s.setMover site { m with host := m.host ++ [r] })
        | _ =>
          let full := 12 ≤ m.groupUse r.group || m.parked.any fun q => q.group = r.group
          if full then .next (s.setMover site { m.takeReq r with parked := m.parked ++ [r] })
          else if 48 ≤ m.slots.length then .next s
          else
            let m := m.takeReq r
            .next ((s.setMover site { m with slots := m.slots ++ [r] }).issueEcc site r ecc)

/-- An answer taken by the mover of a site. -/
def State.takeAnswer (s : State) (site : Nat) (r : MovResp) : State := s.setMover site ((s.mover site).takeAnswer r)

/-- What the code of the crossing from HBM found in an answer (R186, R187); nothing where the answer is lost. -/
def State.answerEcc (s : State) (site : Nat) (r : MovResp) (ecc : EntryEcc) : State × Option MovResp :=
  match ecc with
  | .clean => (s, some r)
  | .corrected => (s.correctedWord site (Unit.clusterOf site) true, some r)
  | .payload w =>
    let s := (s.set1 R.STR_ERR.DATA_UNCORR site).failWith
      { s.atSite .dataUncorr 2 site 7 r.req.item with recUnit := none, owner := some r.req.owner }
    (s, some { r with data := (zeroWord (fullBytes r.data) w).map fun x => x.2, failed := true, noted := true })
  | .tagWord => (s.lostTransfer site, none)

/-- HBM_RESPONSE (R167, R227): the oldest answer reaches the mover, which takes it when its tag has the owner that the site serves, and
discards and counts it otherwise. `ecc` is what the code of the crossing from HBM found. -/
def execHbmResponse (site : Site) (ecc : EntryEcc) (s : State) : Out :=
  let m := s.mover site
  match m.resp with
  | [] => .next s
  | r :: rest =>
    match (s.setMover site { m with resp := rest }).answerEcc site r ecc with
    | (s, none) => .next s
    | (s, some r) =>
      if r.tag.owner = s.rd R.STR_SITE.OWNER site then .next ((s.takeAnswer site r).unblockAt site)
      else .next (s.violate R.SCH_TEN_VIOL.STREAM r.tag.owner)

/-! ### The movements -/

/-- The bytes a movement reads, and whether some were bad. -/
def State.sourceBytes (s : State) (site : Nat) (q : MovDesc) (sp a n : Nat) : List Byte × Bool :=
  match sp with
  | 0 => (if q.zeroed.isEmpty then s.coreStore.readBytes (coreAddr site a) n
          else (List.range n).map (fun k => if q.zeroed.contains ((a + k) / 8) then 0 else s.coreStore.read (coreAddr site (a + k))),
      false)
  | 1 => s.cluData (Unit.clusterOf site) a n q.owner
  | _ =>
    let space := (Space.ofCode sp).getD .core
    ((List.range n).map (fun k =>
      (((q.staged.find (space, (a + k) / 256)).getD [])[(a + k) % 256]?).getD 0), false)

/-- The data of a list of elements, with the state after the reads; what they violate counts once for the movement. -/
def State.readElems (s : State) (site : Nat) (q : MovDesc) (d : Desc) (idx : List Nat) (es : List (Nat × Nat)) :
    State × Tab (Nat × Nat) (List Byte) × Bool :=
  let at_ (e : Nat × Nat) : Nat := addr56 (d.srcAt idx e.1 e.2)
  let r := es.map fun e => (e, s.sourceBytes site q d.srcSp (at_ e) d.bytes)
  let bad := r.any fun x => x.2.2
  let s := if d.srcSp = 1 then s.cluTouch (Unit.clusterOf site) (es.map fun e => (at_ e, d.bytes)) q.owner bad else s
  (s, r.map fun x => (x.1, x.2.1), q.failed || bad)

/-- Bytes into a list of line writes. -/
def addBytes (ls : List (Nat × LineBytes)) (a : Nat) (bs : List Byte) : List (Nat × LineBytes) :=
  ((List.range bs.length).zip bs).foldl (fun ls kb =>
    let l := (a + kb.1) / 256
    let b := ((a + kb.1) % 256, kb.2)
    if ls.any fun x => x.1 = l then ls.map fun x => if x.1 = l then (l, x.2 ++ [b]) else x else ls ++ [(l, [b])]) ls

/-- Elements written to a destination space: stores at once, remote lines as write requests (R203). Denied lines are
counted (R206). -/
def State.writeElems (s : State) (site : Nat) (q : MovDesc) (st : TagStatus) (sp : Nat) (ws : List (Nat × List Byte)) :
    State × MovDesc :=
  match sp with
  | 0 => ({ s with coreStore := ws.foldl (fun m w => m.writeBytes (coreAddr site w.1) w.2) s.coreStore }, q)
  | 1 => (s.cluWrite (Unit.clusterOf site) ws q.owner, q)
  | _ =>
    let space := (Space.ofCode sp).getD .core
    let ls := ws.foldl (fun ls w => addBytes ls w.1 w.2) []
    let m := s.mover site
    let rq := s.requests q st space (ls.map fun l => (l.1, some l.2)) m.nextReq none false
    let denied := ls.filter fun l => (s.lineKey q.owner space l.1 true).isNone
    let s := (s.setMover site { m with nextReq := m.nextReq + rq.length }).violate R.SCH_TEN_VIOL.MEM q.owner denied.length
    (s, { q with todo := rq, wlines := q.wlines.filter fun w => !(denied.any fun l => (space, l.1) = w) })

/-- What the code of a store found as a movement read it (R200). -/
def State.storeEcc (s : State) (site : Nat) (q : MovDesc) (d : Desc) (idx : List Nat) (ecc : Ecc) : State × Bool :=
  match d.srcSp with
  | 0 => s.coreWord site q.item ecc
  | 1 =>
    let c := Unit.clusterOf site
    let at_ := d.fedElems.head?.map fun e => addr56 (d.srcAt idx e.1 e.2)
    let s := at_.elim s fun a => s.cluWord c a q.owner ecc
    let hit := d.fedElems.any fun e => (s.cluData c (addr56 (d.srcAt idx e.1 e.2)) d.bytes q.owner).2
    (if hit then s.failWith { s.atSite .dataUncorr 3 site 5 q.item with recUnit := none } else s, true)
  | _ => (s, true)

/-- A movement whose data were bad: READ_UNCORR, the item Failed (R207), and a record where what found the error wrote none (R468). Data
that a dead node did not send have its record alone (R453). -/
def State.readFailed (s : State) (site : Nat) (q : MovDesc) (bad : Bool) : State :=
  if !bad then s
  else
    let s := if (Desc.ofWords q.words).srcSp = 3 then s else s.set1 R.MOV_ERR.READ_UNCORR site
    if !q.owed then s
    else s.failWith { s.atSite .dataUncorr 4 site 5 q.item with recUnit := none, owner := some q.owner }

/-- The movement `f` of the next descriptor, if it has operation `op`. -/
def movement (op : Nat) (site : Nat) (ecc : Ecc) (s : State)
    (f : State → MovDesc → Desc → List Nat → State × MovDesc) : Out :=
  match (s.mover site).moving with
  | none => .next s
  | some q =>
    let d := Desc.ofWords q.words
    if d.op ≠ op then .next s
    else
      match s.storeEcc site q d q.idx ecc with
      | (s, false) => .next s
      | (s, true) =>
        let (s, q) := f s q d q.idx
        .next (s.setMover site ((s.mover site).setDesc { q with moved := true }))

/-- The shared movement of COPY, GATHER and SCATTER (R202); write transfers formed of bad data are Failed (R168). -/
def moveElems (site : Nat) (s : State) (q : MovDesc) (d : Desc) (idx : List Nat) : State × MovDesc :=
  let (s, t, bad) := s.readElems site q d idx d.elems
  let s := s.readFailed site q bad
  s.writeElems site q (q.out bad) d.dstSp (t.map fun x => (addr56 (d.dstAt idx x.1.1 x.1.2), x.2))

/-- COPY (R202). -/
def execCopy (site : Site) (ecc : Ecc) (s : State) : Out := movement 1 site ecc s (moveElems site)
/-- GATHER (R202). -/
def execGather (site : Site) (ecc : Ecc) (s : State) : Out := movement 4 site ecc s (moveElems site)
/-- SCATTER (R202). -/
def execScatter (site : Site) (ecc : Ecc) (s : State) : Out := movement 5 site ecc s (moveElems site)

/-- ZERO (R202). -/
def execZero (site : Site) (s : State) : Out :=
  movement 6 site .clean s fun s q d idx =>
    s.writeElems site q (q.out false) d.dstSp (d.elems.map fun e => (addr56 (d.dstAt idx e.1 e.2), List.replicate d.bytes 0))

/-- A little-endian number. -/
def leNat (bs : List Byte) : Nat := bs.foldr (fun b a => b.toNat + 256 * a) 0

/-- The raw code of lane `k` at item `o` of a FEED, or nothing where the lane is not fed: a whole element, or for the
digits of INT16 a digit byte (R208, R212). -/
def feedEl (d : Desc) (f : OpFormat) (t : Tab (Nat × Nat) (List Byte)) (o k : Nat) : Option Nat :=
  if !d.mask.testBit k then none
  else if f = .cint16 then
    if k / 2 < d.nIn then
      some (digitByte d.digit (cint16Part (leNat (((t.find (o, k / 2)).getD []).drop (2 * (k % 2)) |>.take 2))))
    else none
  else if k < d.nIn then
    let v := leNat ((t.find (o, k)).getD [])
    some (if f = .int16 then digitByte d.digit v else v)
  else none

/-- The lane's value in the FEED line: the digit of an FP32 element, the element otherwise. -/
def lineEl (d : Desc) (f : OpFormat) (v : Nat) : Nat :=
  if f = .fp32 then
    let e := v / 2 ^ 23 % 256
    let m := v % 2 ^ 23 + (if e = 0 then 0 else 2 ^ 23)
    m / 2 ^ (16 - 8 * d.digit) % 256
  else v

/-- E_a of position `p` of a FEED (R211). -/
def feedExp (d : Desc) (f : OpFormat) (t : Tab (Nat × Nat) (List Byte)) (p : Nat) : Int :=
  passExponent f d.digit ((List.range 64).filterMap fun k => feedEl d f t (p * f.perPos) k)

/-- FEED (R208, R209, R211, R212): the skewed lines and the control entries go to core store, and the field whose west
edge they serve has one more run of positions. `scales` are the MX-FP4 scale codes of each position (log entry 34). -/
def execFeed (site : Site) (scales : List (Nat × Nat)) (ecc : Ecc) (s : State) : Out :=
  movement 2 site ecc s fun s q d idx =>
    match OpFormat.ofCode d.fmt with
    | none => (s, q)
    | some f =>
      let (s, t, bad) := s.readElems site q d idx d.fedElems
      let s := s.readFailed site q bad
      let P := d.positions
      let L := P + 63
      let B := 64 * f.laneBytes
      let lane (p k : Nat) : Nat :=
        if k ≤ p ∧ p - k < P then
          let lo := ((feedEl d f t ((p - k) * f.perPos) k).map (lineEl d f)).getD 0
          if f.perPos = 2 then lo % 16 + 16 * (((feedEl d f t ((p - k) * 2 + 1) k).getD 0) % 16) else lo
        else 0
      let m := (List.range L).foldl (fun m p => (List.range 64).foldl (fun m k =>
        m.writeN (coreAddr site (d.dst + p * B + k * f.laneBytes)) f.laneBytes (lane p k)) m) s.coreStore
      let status := q.out bad
      let exps := if f.exact then [] else (List.range P).map fun p => some (feedExp d f t p)
      let nCtl := if f.exact then 1 else P
      let m := (List.range nCtl).foldl (fun m e =>
        let last := e + 1 = nCtl
        let tag : Tag := { owner := q.owner, granule := d.granule, bank := d.bank, eop := d.eop && last,
                           eoi := d.eoi && last, status := status, seq := d.seq }
        let a := coreAddr site (d.dst + L * B + 16 * e)
        (m.writeN a 8 tag.word).writeN (a + 8) 8 (exponentWord ((exps[e]?).getD none))) m
      let s := { s with coreStore := m }
      let seg : FeedSeg :=
        { site := site, addr := d.dst, count := P, digit := d.digit, granule := d.granule, bank := d.bank, seq := d.seq,
          status := status, eop := d.eop, eoi := d.eoi, exps := exps
          whole := if f = .fp32 then (List.range P).map fun p => (List.range 64).map fun k => (feedEl d f t p k).getD 0
            else []
          scales := scales, item := q.item }
      match s.fieldOf site with
      | some (a, fd, r, 0) =>
        ({ s with fields := s.fields.put a { fd with west := fd.west.put r (fd.west.findD r [] ++ [seg]) } }, q)
      | _ => (s, q)

/-- The raw code a LOAD sends to column `n`, row `r` (R210, R212, R113). DESIGN CHOICE (log entry 136): a column at or above N_OUT whose
MASK bit is 1 is sent zero elements. -/
def loadEl (d : Desc) (f : OpFormat) (t : Tab (Nat × Nat) (List Byte)) (n r : Nat) : Nat :=
  if f = .cint16 then
    let bs := (t.find (n / 2, r / 2)).getD []
    let re := cint16Part (leNat (bs.take 2))
    let im := cint16Part (leNat ((bs.drop 2).take 2))
    let v := match n % 2, r % 2 with
      | 0, 0 => re | 1, 0 => im | 0, _ => (65536 - im) % 65536 | _, _ => re
    digitByte d.digit v
  else
    let v := leNat ((t.find (n, r)).getD [])
    if f = .int16 then digitByte d.digit v else v

/-- LOAD (R210 to R212, R173): one more load for every column of the engine's block column: H elements, row H - 1 first,
with end of pass on row 0, and for each block row a control entry with GRANULE + b, the descriptor's SEQ and STATUS, and
E_b. -/
def execLoad (site : Site) (scales : List (List (Nat × Nat))) (ecc : Ecc) (s : State) : Out :=
  movement 3 site ecc s fun s q d idx =>
    match OpFormat.ofCode d.fmt, s.fieldOf site with
    | some f, some (a, fd, 0, bc) =>
      let (s, t, bad) := s.readElems site q d idx d.fedElems
      let s := s.readFailed site q bad
      let H := fd.rows
      let ord := fd.sent.findD bc 0 + 1
      let status := q.out bad
      let tags := (List.range fd.h).map fun b =>
        ({ owner := q.owner, granule := (d.granule + b) % 2 ^ 16, bank := d.bank, status := status, seq := d.seq } : Tag)
      let load (n : Nat) : ColLoad :=
        if !d.mask.testBit n then
          { ord := ord, bank := d.bank, digit := d.digit, els := [], eop := H - 1, masked := true, item := q.item }
        else
          { ord := ord, bank := d.bank, digit := d.digit, item := q.item, eop := H - 1, tags := tags
            els := (List.range H).map fun k => loadEl d f t n (H - 1 - k)
            exps := if f.exact then [] else (List.range fd.h).map fun b =>
              some (passExponent f d.digit ((List.range 64).map fun k => loadEl d f t n (64 * b + k)))
            scales := (scales[n]?).getD [] }
      let loads := (List.range 64).foldl (fun l n => l.put (64 * bc + n) (l.findD (64 * bc + n) [] ++ [load n])) fd.loads
      let fd := { fd with loads := loads, sent := fd.sent.put bc ord
                          first := if ord = 1 ∧ fd.first.isNone then some d.bank else fd.first }
      ({ s with fields := s.fields.put a fd }, { q with load := some (a, bc, ord) })
    | _, _ => (s, q)

/-- Whether the oldest active descriptor of a site's mover has done all its work (R204). -/
def State.descDone (s : State) (site : Nat) : Bool :=
  match (s.mover site).active with
  | [] => false
  | d :: _ =>
    d.moved && d.todo.isEmpty && d.waiting.isEmpty && match d.load with
      | none => true
      | some (a, bc, ord) => match s.fields.find a with
        | some f => (List.range 64).all fun n => (f.loads.findD (64 * bc + n) []).all fun l => l.ord ≠ ord
        | none => true

/-- DESCRIPTOR_COMPLETE (R204, R443): the oldest descriptor completes once its movement is done, its requests are
answered, and a LOAD's elements are all in the load lanes. -/
def execDescriptorComplete (site : Site) (s : State) : Out :=
  let m := s.mover site
  if s.descDone site then .next ((s.setMover site { m with active := m.active.drop 1 }).tick R.MOV_DESC_COUNT.COUNT site) else .next s

end Machine
end Sys2Proof
end

