-- ==== Sys2Proof/Machine/Tensor.lean ====
section
/-!
DEFINITION. Tensor engines and stitched fields (chapter 2). One TENSOR_STEP is one step of the single H x W array that
a field is (R55): it shifts loads, releases a position at the west edge or holds, and takes every position inside the
array one cell further.
-/
namespace Sys2Proof

/-- The operand format of a field whose every result follows the canonical tree in exact or window mode. -/
def FieldSt.exact (f : FieldSt) : Bool := f.format.exact

/-- The site of the engine at a block row and block column. -/
def FieldSt.engine (f : FieldSt) (b c : Nat) : Nat := (f.sites[b * f.w + c]?).getD 0

/-- The anchor site of a field, as its error flags use it. -/
def FieldSt.anchorSite (f : FieldSt) : Nat := f.engine 0 0

/-- Whether the pass at the west edge, on `bank`, is a swapping pass (R62): its bank differs from that of the pass before
it, or it is the first pass since the field was configured or resumed and its bank was empty then. A field that no pass
has come to yet was configured empty. -/
def FieldSt.isSwap (f : FieldSt) (bank : Bool) : Bool :=
  match f.prevBank with
  | some b => b != bank || (f.fresh && !f.had.contains bank)
  | none => true

/-- The bank that a load fills: that of the swapping pass of the same number (R63). Swapping passes alternate between the
banks (R62), so the bank is known before the pass has come, from the bank of the pass before; before any pass, from the
bank bit of the first LOAD descriptor. -/
def FieldSt.bankOf (f : FieldSt) (ord : Nat) : Bool :=
  match f.owed.find ord, f.prevBank with
  | some b, _ => b
  | none, some b => b != decide ((ord - f.swaps) % 2 = 1)
  | none, none => f.first.getD false != decide (ord % 2 = 0)

/-- The field with its banks' names exchanged, where a swapping pass comes on another bank than `bankOf` said. -/
def FieldSt.rename (f : FieldSt) : FieldSt :=
  { f with banks := f.banks.foldl (fun (t : Tab (Bool × Nat) ColBank) e => t.put (!e.1.1, e.1.2) e.2) []
           bad := f.bad.foldl (fun (t : Tab Bool (Nat × Nat)) e => t.put (!e.1) e.2) []
           parity := f.parity.foldl (fun (t : Tab Bool (Nat × Nat)) e => t.put (!e.1) e.2) [] }

/-- What the image says of the latest pass of the sequence: its stream number and the place of its output (R77, R118). DESIGN CHOICE
(log entry 138): the image lists the passes of a field in their order, and the list repeats. -/
def FieldSt.planOf (f : FieldSt) : PassPlan :=
  (f.passPlans[(f.order - 1) % f.passPlans.length]?).getD { stream := f.stream }

/-- Whether a position of the array is in a cell of the engine of a block row and column: the last cell row it reached in
column 0 of the field lies `age - 1` cells from the field's corner. -/
def PosSt.inEngine (p : PosSt) (b c : Nat) : Bool :=
  decide (64 * (b + c) < p.age) && decide (p.age ≤ 64 * (b + c) + 127)

/-- Loads that column `n` has finished. -/
def FieldSt.doneOf (f : FieldSt) (n : Nat) : Nat := f.done.findD n 0

/-- Whether the load of swapping pass number `ord` is complete in every column (R68). -/
def FieldSt.loadDone (f : FieldSt) (ord : Nat) : Bool := (List.range f.cols).all fun n => ord ≤ f.doneOf n

/-- Whether every block row has its next position at the west edge. -/
def FieldSt.positionReady (f : FieldSt) : Bool := (List.range f.h).all fun b => !(f.west.findD b []).isEmpty

/-- Whether every south-edge output lane has room (R49). DESIGN CHOICE (log entry 105): a lane holds 16 results; the spec
gives the south edge no depth. -/
def FieldSt.outRoom (f : FieldSt) : Bool := (List.range f.cols).all fun n => (f.out.findD n []).length < 16

/-- A run whose first position is taken; a run that is used up leaves its lane. -/
def FieldSt.advanceRow (f : FieldSt) (b : Nat) : FieldSt :=
  match f.west.findD b [] with
  | [] => f
  | g :: r =>
    let g' := { g with next := g.next + 1 }
    { f with west := f.west.put b (if g'.count ≤ g'.next then r else g' :: r) }

/-- A lane with its own product: `a` streamed, `b` stationary. -/
def laneProduct (fmt : OpFormat) (L : Int) (r : Nat) (di dj : Nat) (ln : Lane) (a b : Nat) : Lane :=
  ln.add fmt L r (fmt.cellEl di a) (fmt.cellEl dj b)

/-- What one column gives in one step. -/
structure ColOut where
  lanes : List Lane
  pstacks : List PStack
  /-- granule partials formed with t = 1, and with a special flag (COR_NUM_STICKY, COR_NUM_SPECIAL) -/
  sticky : Nat := 0
  special : Nat := 0
  results : List FieldResult := []
  /-- a block row's E_b is missing (R174) -/
  missing : Bool := false
  deriving DecidableEq, Repr

/-- Whether no released position remains in an engine. -/
def FieldSt.drained (f : FieldSt) (b c : Nat) : Bool := !(f.inArray.any fun p => p.inEngine b c)

/-- The record in force at an engine's west edge. -/
def FieldSt.recAt (f : FieldSt) (b c : Nat) : Nat :=
  match f.inArray.find? fun p => p.eop && decide (p.age ≤ 64 * b + 63 + 64 * c) with
  | some p => p.pass
  | none => f.rec_

/-- A pass on `bank` is counted as a pass of the sequence of R61 to R63, whether it enters or not (R576). -/
def FieldSt.countPass (f : FieldSt) (bank : Bool) : FieldSt :=
  let f := { f with order := f.order + 1 }
  if f.isSwap bank then
    let f := if f.bankOf (f.swaps + 1) = bank then f else f.rename
    let owed := if f.loadDone (f.swaps + 1) then f.owed else f.owed.put (f.swaps + 1) bank
    { f with swaps := f.swaps + 1, prevBank := some bank, fresh := false, owed := owed }
  else { f with prevBank := some bank, fresh := false }

/-- A position released is one of its pass's first 64 (R274). -/
def PassHead.add (p : PosSt) (h : PassHead) : PassHead :=
  if 64 ≤ h.pos.length then h
  else { h with record := p.pass, digit := p.digit, pos := h.pos ++ [(p.els, p.exps, p.scales)], item := if h.pos.isEmpty then p.item else h.item }

/-- A field that keeps the first positions of the passes that are in it. -/
def FieldSt.trimHeads (f : FieldSt) : FieldSt :=
  { f with heads := f.heads.keep fun n _ => n = f.passes || f.inArray.any fun p => p.no = n }

/-- Elements a column takes in a load: those up to the one that carries end of pass. -/
def ColLoad.count (l : ColLoad) : Nat := l.eop + 1

/-- The load whose elements are in the load lanes toward a bank, the latest begun. -/
def FieldSt.loadInto (f : FieldSt) (bank : Bool) : Option Nat :=
  ((List.range f.cols).filterMap fun n => (f.loads.findD n []).head?.bind fun l =>
    if 0 < f.taken.findD n 0 ∧ f.bankOf l.ord = bank then some l.ord else none).max?

/-- The load whose elements pass into a block column, if one does. -/
def FieldSt.loadIn (f : FieldSt) (c : Nat) : Option ColLoad :=
  (List.range 64).findSome? fun n => if 0 < f.taken.findD (64 * c + n) 0 then (f.loads.findD (64 * c + n) []).head? else none

/-- Whether the FEED descriptors of the next pass have completed at every block row. -/
def FieldSt.passFed (f : FieldSt) : Bool := (List.range f.h).all fun r => (f.west.findD r []).any FeedSeg.eop

namespace Machine

/-- Bit `r` of the row mask of an engine under a record. -/
def State.rowFed (s : State) (site rec r : Nat) : Bool := (s.rd R.TNS_ROWMASK.ROWS site rec).testBit r

/-- Bit `n` of the column mask of an engine under a record. -/
def State.colFed (s : State) (site rec n : Nat) : Bool := (s.rd R.TNS_COLMASK.COLS site rec).testBit n

/-- The raw element codes of one block row at its next position: for each item of the position, 64 codes, read from
the FEED lines in core store (R208). -/
def State.westEls (s : State) (f : FieldSt) (g : FeedSeg) : List (List Nat) :=
  let lb := f.format.laneBytes
  let at_ (r : Nat) : Nat := s.coreStore.readN (coreAddr g.site (g.addr + (g.next + r) * (64 * lb) + r * lb)) lb
  if f.format = .fp32 then [(g.whole[g.next]?).getD []]
  else if f.format.perPos = 2 then
    [(List.range 64).map fun r => at_ r % 16, (List.range 64).map fun r => at_ r / 16]
  else [(List.range 64).map at_]

/-- The item of a pair's first or second element (R89). -/
def pairItem (item : Option ItemRef) (k : Nat) : Option ItemRef := item.map fun i => { i with item := i.item + k }

/-- The items of a position of the field all fail by a record: in INT4 and MX-FP4 the pair that shares the position (R89). -/
def State.failPosItems (s : State) (f : FieldSt) (item : Option ItemRef) (q : Nat) : State :=
  (List.range f.format.perPos).foldl (fun s k => s.failItem (pairItem item k) q) s

/-- An error of level 0 of a position of a field: the record, and its items Failed. -/
def State.failPos (s : State) (f : FieldSt) (i : ErrInfo) : State :=
  let (s, q) := s.detect i
  s.failPosItems f i.item q

/-- One cell row of one column for one position at step `k` of that column (R48, R72, R74, R91). -/
def State.colStep (s : State) (f : FieldSt) (p : PosSt) (n k : Nat) : ColOut :=
  let b := k / 64
  let r := k % 64
  let site := f.engine b (n / 64)
  let bank := (f.banks.find (p.bank, n)).getD { els := [], digit := 0 }
  let fed := s.colFed site p.pass (n % 64)
  let lanes0 := (p.lanes[n]?).getD []
  let pstacks := (p.pstacks[n]?).getD []
  let ea := ((p.exps[b]?).getD none).getD 0
  let eb := ((bank.exps[b]?).getD none).getD 0
  let L := f.format.laneL p.digit bank.digit ea eb
  let lanes1 := if r = 0 then lanes0.map fun _ => ({} : Lane) else lanes0
  let lanes := if fed ∧ s.rowFed site p.pass r then
      lanes1.zipIdx.map fun x => laneProduct f.format L r p.digit bank.digit x.1
        (if p.zeros.any fun z => z.1 = b && decide (z.2.1 ≤ n / 64) && r / 8 = z.2.2 then 0 else (((p.els[x.2]?).getD [])[k]?).getD 0)
        ((bank.els[k]?).getD 0)
    else lanes1
  if r < 63 ∨ !fed then { lanes := lanes, pstacks := pstacks }
  else
    let sc (it : Nat) : (Nat × Nat) × (Nat × Nat) :=
      let a := (p.scales[b * lanes.length + it]?).getD (127, 127)
      let w := (bank.scales[b]?).getD (127, 127)
      ((a.1, w.1), (a.2, w.2))
    let leaves := lanes.zipIdx.map fun x => x.1.leaf f.format L (sc x.2).1 (sc x.2).2
    let pstacks := List.zipWith (fun st lf => pushLeaf f.exact st lf) pstacks leaves
    let missing := !f.exact && (((bank.exps[b]?).getD none).isNone)
    let out := { lanes := lanes, pstacks := pstacks, missing := missing
                 sticky := (lanes.filter fun l => l.t).length
                 special := (leaves.filter fun l => l.flags.any).length }
    if k + 1 < f.rows ∨ p.lost then out
    else
      let noExp := !f.exact && (List.range f.h).any fun i => ((bank.exps[i]?).getD none).isNone
      let plan := p.plan
      let tag : Tag := { owner := f.owner, stream := plan.stream, granule := p.granule, bank := p.bank, eop := p.eop,
                         status := p.status.join bank.status }
      let res := pstacks.zipIdx.filterMap fun x => x.1.head?.map fun nd =>
        { tag := { tag with eoi := p.eoi, seq := (p.seq + x.2) % 2 ^ 20 }, node := nd.1
          level := nd.2, row := (plan.row + p.row + x.2) % 2 ^ 32, col := (plan.col + n) % 2 ^ 32
          digits := (p.digit, bank.digit), item := pairItem p.item x.2 }
      { out with results := if noExp then [] else res }

/-- A position goes one step on in every column it stands in (R48, R57): after `age` steps it is at row `age - n` of
column `n`. -/
def State.stepPosition (s : State) (f : FieldSt) (p : PosSt) : State × FieldSt × PosSt :=
  (List.range f.cols).foldl (fun (st : State × FieldSt × PosSt) n =>
    let (s, f, p) := st
    if n ≤ p.age ∧ p.age < n + f.rows then
      let k := p.age - n
      let o := s.colStep f p n k
      let site := f.engine (k / 64) (n / 64)
      let s := (s.bump R.COR_NUM_STICKY.COUNT site 0 o.sticky).bump R.COR_NUM_SPECIAL.COUNT site 0 o.special
      let s := if o.missing ∧ !p.lost then
          let s := s.set1 R.STR_ERR.EXP_MISSING f.anchorSite
          s.failPos f { s.atSite .program 7 f.anchorSite 1 p.item with recUnit := none, owner := some f.owner }
        else s
      let s := if p.eop ∧ k % 64 = 63 ∧ n % 64 = 63 then s.tick R.TNS_PASS_COUNT.COUNT site else s
      let f := { f with out := if o.results.isEmpty then f.out else f.out.put n (f.out.findD n [] ++ o.results) }
      (s, f, { p with lanes := p.lanes.set n o.lanes, pstacks := p.pstacks.set n o.pstacks })
    else (s, f, p)) (s, f, p)

/-- The next position of the pass in force enters row 0 (R57): elements, exponents and control come from the head runs
of the block rows; the anchor's row gives the control bits. -/
def State.releasePosition (s : State) (f : FieldSt) : State × FieldSt :=
  let segs := (List.range f.h).filterMap fun b => (f.west.findD b []).head?
  match segs with
  | [] => (s, f)
  | g :: _ =>
    let n := f.format.perPos
    let els := (List.range n).map fun it => segs.flatMap fun x => ((s.westEls f x)[it]?).getD []
    let exps := segs.map fun x => (x.exps[x.next]?).getD none
    let scales := segs.flatMap fun x => (List.range n).map fun it => (x.scales[x.next * n + it]?).getD (127, 127)
    let last := g.next + 1 = g.count
    let noExp := !f.exact && exps.any Option.isNone
    let status := segs.foldl (fun st x => st.join x.status) .good
    let status := if f.bad.has f.bank then .failed else status
    let p : PosSt :=
      { e := f.t, bank := f.bank, digit := g.digit, eop := g.eop && last, eoi := g.eoi && last, status := status
        seq := g.seq, granule := f.granule, pass := f.rec_, els := els, exps := exps, scales := scales
        lanes := List.replicate f.cols (List.replicate n {}), pstacks := List.replicate f.cols (List.replicate n [])
        row := f.items, item := g.item, lost := noExp || f.parity.has f.bank, no := f.passes, plan := f.planOf }
    let (s, status, q) := s.servedStatus f.glade f.owner f.anchorSite status
    let s := match q with | some q => s.failPosItems f g.item q | none => s
    let p := { p with status := status }
    let s := match f.bad.find f.bank with
      | some b => s.failPosItems f g.item b.2
      | none => s
    let s := match f.parity.find f.bank with
      | some b => s.failPosItems f g.item b.2
      | none => s
    let s := if noExp then
        (s.set1 R.STR_ERR.EXP_MISSING f.anchorSite).failPos f
          { s.atSite .program 7 f.anchorSite 1 g.item with recUnit := none, owner := some f.owner }
      else s
    let f := (List.range f.h).foldl (fun f b => f.advanceRow b) f
    let f := { f with inArray := f.inArray ++ [p], started := true, items := f.items + n, t := f.t + 1
                      heads := f.heads.modify f.passes (PassHead.add p) }
    (s, if p.eop then
        { f with passOpen := false, items := 0, rec_ := s.rd R.TNS_PASSREC.NEXT f.anchorSite f.rec_ }
      else f)

/-- The runs of a pass that does not enter the field, as far as they have arrived at a block row: their items, what
stays, and whether the end of the pass was among them. -/
def dropPass (l : List FeedSeg) : List (Option ItemRef) × List FeedSeg × Bool :=
  match l with
  | [] => ([], [], false)
  | g :: r =>
    if g.eop then ([g.item], r, true)
    else
      let (is, r', e) := dropPass r
      (g.item :: is, r', e)

/-- Discards what has arrived of a pass that does not enter (R576): every item of it is Failed by the record `q`. -/
def State.discardPass (s : State) (f : FieldSt) (q : Nat) : State × FieldSt :=
  f.discard.foldl (fun (st : State × FieldSt) b =>
    let (s, f) := st
    let (is, r, fin) := dropPass (f.west.findD b [])
    let s := is.foldl (fun s it => s.failPosItems f it q) s
    (s, { f with west := f.west.put b r, discard := if fin then f.discard.filter (fun x => x ≠ b) else f.discard }))
    (s, f)

/-- The record of what a lane or load fault of a field raises: DESIGN CHOICE (log entry 106), the anchor's site and the
anchor's TNS_ERR stand for the field, which the spec says of EXP_MISSING alone (R174). -/
def State.fieldEvent (s : State) (f : FieldSt) (cls : ErrClass) (sub : Nat) (item : Option ItemRef) : ErrInfo :=
  { s.atSite cls sub f.anchorSite 1 item with recUnit := none, owner := some f.owner }

/-- The first position of a pass stands at the west edge: the pass is turned away (R76, R84, R576), held for its load
(R68), or begins (R61, R62). A reusing pass on the bank of a pass that was turned away is held too while the load of that pass,
which fills its bank (R576), is not complete: the bank of a pass never changes under it (R64, R67; log entry 107). A pass of a borrow
context begins once all its FEED descriptors have completed (R368). DESIGN CHOICE (log entry 106): the anchor shows GRANULE_ALIGN for a
stitched field, and the record names it. -/
def State.openPass (s : State) (f : FieldSt) : State × FieldSt :=
  if f.passOpen ∨ f.stopping ∨ f.stopped then (s, f)
  else if s.borrowAt f.anchorSite ∧ !f.passFed then (s, { f with hold := false })
  else if !f.discard.isEmpty then
    s.discardPass f ((s.err.last.find (Unit.dieOf f.anchorSite)).elim 0 ErrRecord.seq)
  else
    match (f.west.findD 0 []).head? with
    | none => (s, { f with hold := false })
    | some g =>
      let bank := g.bank
      let align := g.granule % f.h ≠ 0
      if align ∨ !s.flag R.TNS_PASSREC.VALID f.anchorSite f.rec_ then
        let s := s.set1 R.TNS_ERR.GRANULE_ALIGN f.anchorSite
        let (s, q) := s.detect (s.fieldEvent f .program (if align then 1 else 2) g.item)
        let s := s.failPosItems f g.item q
        s.discardPass { f.countPass bank with hold := false, rec_ := s.rd R.TNS_PASSREC.NEXT f.anchorSite f.rec_,
                                              discard := List.range f.h } q
      else if (f.isSwap bank ∧ !f.loadDone (f.swaps + 1)) ∨ f.owed.any (fun e => e.2 = bank) then (s, { f with hold := true })
      else
        let count (t : Tab Nat Nat) (k : Nat) : Tab Nat Nat := t.put k (t.findD k 0 + 1)
        let t : State := { s with det := { s.det with passes := f.sites.foldl count s.det.passes } }
        (t, { f.countPass bank with passOpen := true, bank := bank, granule := g.granule, hold := false,
                                    items := 0, passes := f.passes + 1
                                    heads := f.heads.put (f.passes + 1) { record := f.rec_, digit := g.digit, since := s.elapsed
                                                                          bank := (List.range f.cols).map fun n => (f.banks.find (bank, n)).getD {} } })

/-- Passes that are turned away as far as they have arrived, and then the pass that begins or is held: a pass that does
not enter takes no position (R576). `fuel` bounds the passes. -/
def State.openPasses (fuel : Nat) (s : State) (f : FieldSt) : State × FieldSt :=
  match fuel with
  | 0 => (s, f)
  | k + 1 =>
    let r := s.openPass f
    if r.2.passOpen ∨ r.2.hold ∨ !r.2.discard.isEmpty ∨ (r.2.west.findD 0 []).isEmpty then r
    else State.openPasses k r.1 r.2

/-- Whether column `n` may begin a load (R64, R65): every position of an earlier pass on the bank has left the bottom cell
of the column. Loads may run one ahead of the swapping passes that have come, and two ahead of the first pass, since both
banks are free then. -/
def mayLoad (f : FieldSt) (n : Nat) (l : ColLoad) : Bool :=
  !f.stopping && !f.stopped && (decide (l.ord ≤ f.swaps + 1) || (decide (l.ord = 2) && f.prevBank.isNone))
    && !(f.inArray.any fun p => p.bank = f.bankOf l.ord && decide (p.age < f.rows + n))

/-- A column ends a load (R64, R577): its bank holds the elements, or with another count than H the bank is bad in
every column. The content of a bad bank is a free value in each column from the end of that column's own load on: until then an earlier
pass may still use it there (R64, R65, R67). -/
def State.endLoad (s : State) (f : FieldSt) (n : Nat) (l : ColLoad) : State × FieldSt :=
  let bank := f.bankOf l.ord
  let free (draw m : Nat) : ColBank :=
    { els := (List.range f.rows).map fun r => Config.freeElem draw r m, digit := l.digit, exps := l.exps,
      scales := l.scales }
  let f := { f with done := f.done.put n l.ord, taken := f.taken.del n
                    loads := f.loads.modify n (fun q => q.drop 1) }
  let spoilt (f : FieldSt) : Bool := (f.bad.find bank).elim false (fun v => v.1 = l.ord)
  let clear (f : FieldSt) : FieldSt :=
    if (List.range f.cols).all fun m => l.ord ≤ f.doneOf m then
      let f := { f with owed := f.owed.del l.ord }
      if spoilt f then f
      else { f with bad := f.bad.keep (fun b v => !(b = bank && v.1 < l.ord))
                    parity := f.parity.keep (fun b v => !(b = bank && v.1 < l.ord)) }
    else f
  let open_ (s : State) (f : FieldSt) : State × FieldSt :=
    ({ s with freeCtr := s.freeCtr + 1 }, clear { f with banks := f.banks.put (bank, n) (free s.freeCtr n) })
  if l.masked then open_ s f
  else if l.count = f.rows then
    if spoilt f then open_ s f
    else
      let c : ColBank := { els := l.els.reverse, digit := l.digit, exps := l.exps, scales := l.scales
                           status := l.tags.foldl (fun st g => st.join g.status) .good }
      (s, clear { f with banks := f.banks.put (bank, n) c })
  else
    let s := s.set1 R.TNS_ERR.LOAD_ORDER f.anchorSite
    let (s, q) := s.detect (s.fieldEvent f .program 0xB l.item)
    let d := s.freeCtr
    let banks := ((List.range f.cols).filter fun m => l.ord ≤ f.doneOf m).foldl (fun t m => t.put (bank, m) (free d m)) f.banks
    ({ s with freeCtr := s.freeCtr + 1 }, clear { f with banks := banks, bad := f.bad.put bank (l.ord, q) })

/-- Every column's load lane moves by one element (R64, R65). A masked column takes the H steps of a load and no element
(R75). -/
def State.stepLoads (s : State) (f : FieldSt) : State × FieldSt :=
  (List.range f.cols).foldl (fun (st : State × FieldSt) n =>
    let (s, f) := st
    match f.loads.findD n [] with
    | [] => (s, f)
    | l :: _ =>
      let k := f.taken.findD n 0
      if k = 0 ∧ !mayLoad f n l then (s, f)
      else if l.count ≤ k + 1 then s.endLoad f n l
      else (s, { f with taken := f.taken.put n (k + 1) })) (s, f)

/-- What the code of a FIFO of a field finds in an entry (R186, R187): a corrected bit counts at the reading engine's site; an
uncorrectable payload word is zeroed by `zero` and its item fails; with an uncorrectable tag or exponent word the entry is discarded by
`lose`, the field stops, and the error is contained at level 1 on the reading core. -/
def State.fieldFifo (s : State) (f : FieldSt) (site : Nat) (item : Option ItemRef) (ecc : EntryEcc) (zero : Nat → FieldSt) (lose : FieldSt) :
    State × FieldSt :=
  match ecc with
  | .clean => (s, f)
  | .corrected => (s.correctedWord site (Unit.clusterOf site) false, f)
  | .payload w =>
    ((s.set1 R.STR_ERR.DATA_UNCORR site).failPos f { s.atSite .dataUncorr 2 site 7 item with recUnit := none, owner := some f.owner }, zero w)
  | .tagWord => ((s.set1 R.STR_ERR.TAG_UNCORR site).detect (s.atSite .coreUncorr 4 site 7 none)).1 |> fun s => (s, { lose with stopped := true })

/-- A lane fails parity (R78), a load's marker comes on another element (R577), or a FIFO's code finds an error. A lane that
carries nothing cannot fail. DESIGN CHOICE (log entry 119): the word of a partial entry is that of the eight lanes of its number, whose
sums and stacks it makes zero, and the word of a load entry that of the next elements of eight columns. -/
def State.laneFault (s : State) (f : FieldSt) (v : LaneFault) : State × FieldSt :=
  match v with
  | .operand e | .partialLane e =>
    match f.inArray.find? fun p => p.e = e with
    | none => (s, f)
    | some p =>
      let sub := match v with | .operand _ => 1 | _ => 2
      let s := (s.set1 R.TNS_ERR.LANE_PARITY f.anchorSite).failPos f (s.fieldEvent f .laneParity sub p.item)
      (s, { f with inArray := f.inArray.map fun p => if p.e = e then { p with lost := true } else p })
  | .load b =>
    match f.loadInto b with
    | none => (s, f)
    | some ord =>
      let (s, q) := (s.set1 R.TNS_ERR.LANE_PARITY f.anchorSite).detect (s.fieldEvent f .laneParity 3 none)
      (s, { f with parity := f.parity.put b (ord, q) })
  | .marker n k =>
    (s, { f with loads := f.loads.modify n.val fun q => match q with
      | l :: r => (if f.taken.findD n.val 0 ≤ k ∧ !l.masked then { l with eop := k } else l) :: r
      | [] => [] })
  | .westFifo b c e ecc =>
    match f.inArray.find? fun p => p.e = e && decide (b.val < f.h ∧ c.val < f.w) with
    | none => (s, f)
    | some p =>
      let upd (g : PosSt → PosSt) : FieldSt := { f with inArray := f.inArray.map fun p => if p.e = e then g p else p }
      s.fieldFifo f (f.engine b c) p.item ecc
        (fun w => upd fun p => { p with status := .failed, zeros := (b.val, c.val, w) :: p.zeros }) (upd fun p => { p with lost := true })
  | .northFifo b c e ecc =>
    match f.inArray.find? fun p => p.e = e && decide (0 < b.val ∧ b.val < f.h ∧ c.val < f.w) with
    | none => (s, f)
    | some p =>
      let upd (g : PosSt → PosSt) : FieldSt := { f with inArray := f.inArray.map fun p => if p.e = e then g p else p }
      let clear (w : Nat) (p : PosSt) : PosSt := (List.range 8).foldl (fun p i =>
        let n := 64 * c.val + 8 * w + i
        { p with lanes := p.lanes.modify n fun l => l.map fun _ => {}, pstacks := p.pstacks.modify n fun l => l.map fun st => st.map fun x => ({}, x.2) }) p
      s.fieldFifo f (f.engine b c) p.item ecc (fun w => upd fun p => { (clear w p) with status := .failed }) (upd fun p => { p with lost := true })
  | .feedWord b ecc =>
    match (f.west.findD b []).head? with
    | none => (s, f)
    | some g =>
      match s.coreWord g.site g.item ecc with
      | (s, true) => (s, f)
      | (t, false) => (t.failPosItems f g.item (max 1 (s.rd R.ERR_STATUS.NEXT_SEQ)), { f with stopped := true })
  | .loadFifo b c ecc =>
    match (if b.val < f.h ∧ c.val < f.w then f.loadIn c else none) with
    | none => (s, f)
    | some l =>
      let spoil (n : Nat) (q : List ColLoad) : List ColLoad := match q with
        | l :: r => { l with els := l.els.set (f.taken.findD n 0) 0, tags := l.tags.map fun g => { g with status := .failed } } :: r
        | [] => []
      let bad (w : Nat) : FieldSt :=
        { f with loads := (List.range 8).foldl (fun t i => t.modify (64 * c.val + 8 * w + i) (spoil (64 * c.val + 8 * w + i))) f.loads }
      s.fieldFifo f (f.engine b c) l.item ecc bad { f with bad := f.bad.put (f.bankOf l.ord) (l.ord, max 1 (s.rd R.ERR_STATUS.NEXT_SEQ)) }

/-- A field changed. -/
def State.setField (s : State) (a : Nat) (f : FieldSt) : State := { s with fields := s.fields.put a f }

/-- The tensor engines of a field that a position is in have run up to now (R277). -/
def State.markRuns (s : State) (f : FieldSt) : State :=
  let on := (List.range f.h).flatMap fun b => (List.range f.w).filterMap fun c => if f.drained b c then none else some (f.engine b c)
  { s with det := { s.det with ran := on.foldl (fun t k => t.put k s.elapsed) s.det.ran } }

/-- One step of the array that fires (R49, R57): a position enters where a pass is being released, every position inside
moves one cell on, the loads move one element, and a held pass of a started field has a bubble in its place (R69, R575). -/
def State.fireStep (s : State) (f : FieldSt) : State × FieldSt :=
  let bubble := f.hold && f.started && !f.stopping
  let (s, f) := if f.passOpen then s.releasePosition f else (s, if bubble then { f with t := f.t + 1 } else f)
  let (s, f, ps) := f.inArray.foldl (fun (st : State × FieldSt × List PosSt) p =>
    let (s, f, ps) := st
    let (s, f, p) := s.stepPosition f p
    (s, f, ps ++ [p])) (s, f, [])
  let (s, f) := s.stepLoads { f with inArray := ps }
  let f := { f with inArray := f.inArray.map fun p => { p with age := p.age + 1 } }
  (s.markRuns f, FieldSt.trimHeads { f with inArray := f.inArray.filter fun p => p.age + 1 < f.rows + f.cols })

/-- TENSOR_STEP (R48 to R70). No step fires while a pass that is being released lacks its next position or an output lane
has no room (R49, R60). Between passes a step needs no position of the west edge: those inside the array go on to the
south edge, and the empty lane inserts no position (log entry 108). -/
def execTensorStep (anchor : Site) (fault : Option LaneFault) (s : State) : Out :=
  match s.fields.find anchor.val with
  | none => .next s
  | some f =>
    if f.stopped then .next s
    else
      let (s, f) := match fault with
        | some v => s.laneFault f v
        | none => (s, f)
      let (s, f) := s.openPasses ((f.west.findD 0 []).length + 1) f
      let (s, f) := if (f.passOpen && !f.positionReady) || !f.outRoom then (s, f) else s.fireStep f
      .next (s.setField anchor f)

/-- PASS_RELEASE (R68, R575): the pass at the west edge begins once its load is complete in every column. -/
def execPassRelease (anchor : Site) (s : State) : Out :=
  match s.fields.find anchor.val with
  | none => .next s
  | some f =>
    let (s, f) := s.openPasses ((f.west.findD 0 []).length + 1) f
    .next (s.setField anchor f)

/-- FIELD_STOPPED (R79): a stopping field that has drained and finished its started loads has stopped. -/
def execFieldStopped (anchor : Site) (s : State) : Out :=
  match s.fields.find anchor.val with
  | none => .next s
  | some f =>
    if f.stopping ∧ !f.passOpen ∧ f.inArray.isEmpty ∧ (f.taken.all fun e => e.2 = 0) then
      .next (s.setField anchor { f with stopping := false, stopped := true })
    else .next s

end Machine

/-! ### What TNS_STATE shows (Table 2.7) -/

/-- The state of a bank at the engine of a block row and column (2.4): 0 empty, 1 loading, 2 ready, 3 in use. -/
def FieldSt.bankState (f : FieldSt) (b c : Nat) (bank : Bool) : Nat :=
  let cols := (List.range 64).map fun n => 64 * c + n
  if f.inArray.any fun p => p.bank = bank && p.inEngine b c then 3
  else if cols.any fun n => 0 < f.taken.findD n 0 && ((f.loads.findD n []).head?.elim false fun l => f.bankOf l.ord = bank) then 1
  else if cols.any fun n => f.banks.has (bank, n) then 2
  else 0

end Sys2Proof
end

