-- ==== Sys2Proof/Machine/Combining.lean ====
section
/-!
DEFINITION. The combining and conversion stages of a vector engine (3.7, 3.8, 3.10, 4.2).
-/
namespace Sys2Proof

/-- The rounding mode of a COR_NUMCFG code. -/
def RoundMode.ofCode (c : Nat) : RoundMode :=
  match c with
  | 1 => .towardZero | 2 => .stochastic | _ => .nearestEven

/-- The output format of a code of Table 3.6. -/
def OutFormat.ofCode (c : Nat) : OutFormat :=
  match c with
  | 1 => .fp32 | 2 => .bf16 | 3 => .fp16 | 4 => .e4m3 | 5 => .e5m2 | 6 => .int8 | 7 => .fp64 | _ => .int32

/-- Bits of an element in an output format (Table 3.6). -/
def OutFormat.width : OutFormat → Nat
  | .int32 | .fp32 => 32 | .bf16 | .fp16 => 16 | .e4m3 | .e5m2 | .int8 => 8 | .fp64 => 64

/-- The slicing of a COR_NUMCFG code. -/
def Slicing.ofCode (c : Nat) : Slicing :=
  match c with
  | 1 => .int16Four | 2 => .fp32Nine | 3 => .fp32Six | _ => .none

/-- Whether two nodes belong to the same output element (its logical row and column, R118) of the same item. -/
def WaitNode.sameOutput (a b : WaitNode) : Bool := a.row = b.row && a.col = b.col && a.tag.seq = b.tag.seq

/-- Whether two nodes belong to the same output element of the same reduction. -/
def WaitNode.sameElement (a b : WaitNode) : Bool := a.reduction = b.reduction && a.sameOutput b

/-- Whether node (g', l') lies under node (g, l). -/
def covers (g l g' l' : Nat) : Bool := l' ≤ l && g ≤ g' && g' < g + 2 ^ l

/-- The sum of two nodes of a vector sum (R124). -/
def vecJoin (a b : Option FVal) : Option FVal :=
  match a, b with
  | some x, some y => some (FFmt.fp64.add x y)
  | _, _ => none

/-- A join of two nodes of one element: the lower one left (R107), tags and items joined. -/
def WaitNode.join (exact : Bool) (a b : WaitNode) : WaitNode :=
  let (x, y) := if a.granule ≤ b.granule then (a, b) else (b, a)
  { x with node := nodeAdd exact x.node y.node, vec := vecJoin x.vec y.vec, level := x.level + 1, departed := x.departed || y.departed
           tag := { x.tag with granule := x.granule, status := x.tag.status.join y.tag.status } }

/-- The canonical joins a new node allows (R107): `fuel` bounds the levels. A node whose granule is no multiple of 2^level joins no
other. Answers the node it became, whether that is
the stage's root, and the nodes that still wait. -/
def combine (exact : Bool) (plan : SplitPlan) (fuel : Nat) (v : WaitNode) (waiting : List WaitNode) :
    WaitNode × Bool × List WaitNode :=
  match fuel with
  | 0 => (v, false, waiting)
  | k + 1 =>
    if v.granule = plan.rootGranule ∧ v.level = plan.rootLevel then (v, true, waiting)
    else if v.granule % 2 ^ v.level ≠ 0 then (v, false, waiting)
    else
      let sib := v.granule ^^^ 2 ^ v.level
      let zero : WaitNode := { v with granule := sib, node := {}, departed := false
                                      vec := v.vec.map fun _ => .fin false 0 FFmt.fp64.emin }
      if plan.absent.any fun a => covers a.1 a.2 sib v.level then combine exact plan k (v.join exact zero) waiting
      else
        match waiting.find? fun w => w.sameElement v && w.granule = sib && w.level = v.level with
        | some w => combine exact plan k (v.join exact w) (waiting.erase w)
        | none => (v, false, waiting)

/-- Addition in arrival order (R108, R109): the sum so far takes the new node on the right. The sum stays a tree node
while every addition joins canonical siblings that are tree nodes themselves, and has departed from the tree afterwards
(R267). -/
def addArrival (exact : Bool) (acc v : WaitNode) : WaitNode :=
  let sib := acc.level = v.level ∧ acc.granule ^^^ 2 ^ acc.level = v.granule ∧ !acc.departed ∧ !v.departed
  { acc with node := nodeAdd exact acc.node v.node, vec := vecJoin acc.vec v.vec, granule := min acc.granule v.granule
             level := if sib then acc.level + 1 else acc.level, departed := !decide sib, tag := { acc.tag with status := acc.tag.status.join v.tag.status } }

namespace Machine

/-- The combining stage of a site. -/
def State.combOf (s : State) (site : Nat) : CombSt := s.comb.findD site {}

/-- A combining stage changed; COMB_USED counts its waiting nodes, one unit each (log entry 36). -/
def State.setComb (s : State) (site : Nat) (c : CombSt) : State :=
  let s := { s with comb := s.comb.put site c }
  s.wr R.VEC_STATE.COMB_USED (c.waiting.length + c.slices.length + c.arrival.length) site

/-- The conversion stage writes one element (R115 to R118), or the one rounding of a vector sum (R124); an element whose root departed from the canonical tree
counts in ORDER (R267). -/
def State.convertOut (s : State) (site : Nat) (plan : SplitPlan) (v : WaitNode) : State :=
  let mode := RoundMode.ofCode (s.rd R.COR_NUMCFG.ROUND site)
  let out := OutFormat.ofCode (s.rd R.COR_NUMCFG.OUT_FMT site)
  let u := ditherU (s.rd R.COR_SR_SEED.SEED site) plan.tensor v.row v.col
  let code := match plan.vector, v.vec with
    | some bf16, some r => (sumBits bf16 r, if bf16 then 16 else 32)
    | _, _ => (convertRoot out mode (s.flag R.COR_NUMCFG.SAT site) u v.node, out.width)
  let c := s.combOf site
  let s := s.setComb site { c with out := c.out ++ [(v.tag, code.1, v.row, v.col, code.2)] }
  if v.departed ∧ !s.flag R.COR_NUMCFG.DETERMINISM site then s.bump R.GLB_DET_ND_COUNT.ORDER 0 v.tag.owner else s

/-- The root of this stage is complete: it goes on to another stage as the node its plan says it is, waits with the other
slice roots, or is converted (R107, R112, R128). -/
def State.stageRoot (s : State) (site : Nat) (plan : SplitPlan) (v : WaitNode) : State :=
  let c := s.combOf site
  let v := { v with granule := plan.rootGranule, level := plan.rootLevel, tag := { v.tag with granule := plan.rootGranule } }
  if !plan.final then s.setComb site { c with forward := c.forward ++ [v] }
  else
    match plan.slice with
    | none => s.convertOut site plan v
    | some _ =>
      let slices := c.slices ++ [v]
      let order := (Slicing.ofCode (s.rd R.COR_NUMCFG.SLICE site)).order
      let root (ij : Nat × Nat) : Option WaitNode := slices.find? fun w =>
        w.sameOutput v && (c.plans.any fun p => p.reduction = w.reduction && p.slice = some ij
          && p.tensor = plan.tensor)
      let roots := order.filterMap root
      if roots.length = order.length ∧ 0 < order.length then
        let s := s.setComb site { c with slices := slices.filter fun w => !roots.contains w }
        let sum := { v with node := sliceSum (roots.map WaitNode.node), departed := roots.any WaitNode.departed
                            tag := { v.tag with status := roots.foldl (fun st w => st.join w.tag.status) .good } }
        s.convertOut site plan sum
      else s.setComb site { c with slices := slices }

/-- A node meets the plan of its stage (R107, R108, R109, R127). -/
def State.takeNode (s : State) (site : Nat) (v : WaitNode) : State :=
  let c := s.combOf site
  match c.plans.find? fun p => p.stream = v.tag.stream && p.nodes.contains (v.granule, v.level) with
  | none =>
    let s := s.set1 R.VEC_ERR.COMB_PLAN site
    s.failWith { s.atSite .program 3 site 2 v.item with recUnit := none, owner := some v.tag.owner }
  | some plan =>
    let v := { v with reduction := plan.reduction }
    let exact := ((OpFormat.ofCode (s.rd R.COR_NUMCFG.FORMAT site)).getD .int8).exact
    if s.flag R.COR_NUMCFG.ARRIVAL site ∨ plan.unaligned then
      let (acc, n) := match c.arrival.find? fun w => w.1.sameElement v with
        | some (w, n) => (addArrival exact w v, n + 1)
        | none => (v, 1)
      let rest := c.arrival.filter fun w => !w.1.sameElement v
      if n = plan.nodes.length then (s.setComb site { c with arrival := rest }).stageRoot site plan acc
      else s.setComb site { c with arrival := rest ++ [(acc, n)] }
    else
      let (w, done, waiting) := combine exact plan (plan.rootLevel + 1) v c.waiting
      if done then (s.setComb site { c with waiting := waiting }).stageRoot site plan w
      else s.setComb site { c with waiting := waiting ++ [w] }

/-- A node from its 32 bytes in memory. DESIGN CHOICE (log entry 140): n in the first 16, or in window mode and in vector sums a binary64
value in the first 8; x in the next 2; bit 0 of byte 18 s; bits 0 to 2 of byte 19 the flags NaN, +Inf and -Inf. -/
def nodeOfBytes (exact : Bool) (b : BitVec 256) : Node :=
  let flags : Flags := { nan := b.getLsbD 152, pinf := b.getLsbD 153, ninf := b.getLsbD 154 }
  if exact then { n := (b.extractLsb' 0 128).toInt, x := (b.extractLsb' 128 12).toInt, s := b.getLsbD 144, flags := flags }
  else
    let v := (FFmt.fp64.decode (b.extractLsb' 0 64).toNat).signedMant
    { n := v.1, x := v.2, flags := flags }

/-- A node that core store holds: its identity is what the program gives (R107), its element and item too. -/
def State.storeNode (s : State) (site addr stream granule level row col : Nat) (item : ItemRef) : WaitNode :=
  let b := BitVec.ofNat 256 (s.coreStore.readN (coreAddr site addr) 32)
  let item := s.itemAt (some item) (item.item % 2 ^ 20)
  let exact := ((OpFormat.ofCode (s.rd R.COR_NUMCFG.FORMAT site)).getD .int8).exact
  let vec := (s.combOf site).plans.any fun p => p.stream = stream && p.nodes.contains (granule, level) && p.vector.isSome
  { reduction := 0, row := row, col := col, granule := granule, level := level, item := item
    node := if vec then {} else nodeOfBytes exact b
    vec := if vec then some (FFmt.fp64.decode (b.extractLsb' 0 64).toNat) else none
    tag := { owner := (s.siteOwner site).getD 0x7FF, stream := stream, granule := granule
             seq := (item.elim 0 ItemRef.item) % 2 ^ 20, status := s.vecStatus site item } }

/-- The oldest node a source holds for the stage at `site`, and the state without it. -/
def State.sourceNode (s : State) (site : Nat) (src : NodeSrc) : Option (WaitNode × State) :=
  match src with
  | .store a n g l r c item => some (s.storeNode site a n g l r.toNat c.toNat item, s)
  | .field a col =>
    match s.fields.find a.val with
    | none => none
    | some f =>
      match f.out.findD col.val [] with
      | [] => none
      | r :: rest =>
        some ({ reduction := 0, row := r.row, col := r.col, granule := r.tag.granule, level := r.level, node := r.node,
                tag := r.tag, item := r.item }, s.setField a { f with out := f.out.put col.val rest })
  | .stage k =>
    let c := s.combOf k
    match c.forward with
    | [] => none
    | v :: rest => some (v, s.setComb k { c with forward := rest })

/-- Whether the combining stage of a site takes nodes: its engine runs, or its context is being stopped and the field of the context has
not drained yet (R358 step 1). -/
def State.combRuns (s : State) (site : Nat) : Bool :=
  !s.flag R.VEC_STATE.STOPPED site || s.sched.ctxs.any fun e => e.2.res = .saving && (s.ctxSites e.2).contains site &&
    ((s.ctxSites e.2).head?.bind s.fields.find).any fun f => f.stopping || f.out.any fun o => !o.2.isEmpty

/-- COMBINING_NODE_ARRIVE (R107, R126 to R128): the next node of a source reaches the stage at `site`. A stage of a stopped
engine (R79, R271), or whose combining area is full, takes none; while a context is being stopped its stages go on until its field has
drained (R358). `ecc` is what the code of the combining area found (R141). -/
def execCombiningNodeArrive (site : Site) (src : NodeSrc) (ecc : Ecc) (s : State) : Out :=
  if !s.combRuns site ∨ s.rd R.VEC_COMB_CFG.SIZE site ≤ s.rd R.VEC_STATE.COMB_USED site then .next s
  else
    match s.sourceNode site src with
    | none => .next s
    | some (v, t) => vecRun { site := site, dst := { loc := .reg 0 }, ecc := ecc, item := v.item } [] s fun u =>
        ((u.sourceNode site src).elim t fun x => x.2).takeNode site v

end Machine
end Sys2Proof
end

