-- ==== Sys2Proof/Machine/FecEncode.lean ====
section
/-!
DEFINITION. The encodes of a FEC block (R144): the descriptor's fields (Table 4.6), LDPC encoding with rate matching and
bit interleaving, and polar encoding with its rate matching. R144 names the clauses of 3GPP TS 38.212 and prints none of
them: the algorithms here are PRESUMED from that standard (log entry 35), and its tables (base graphs, polar reliability
order, polar input interleaver) are constants of Config without a value.
-/
namespace Sys2Proof

/-- Fields of a code-block descriptor (Table 4.6). -/
structure FecDesc where
  op : Nat
  bg2 : Bool
  zc : Nat
  maxIter : Nat
  offset : Nat
  rows : Nat
  kp : Nat
  deadline : Nat
  inAddr : Nat
  outAddr : Nat
  e : Nat
  rv : Nat
  qm : Nat
  ncb : Nat
  iIl : Bool
  iBil : Bool
  nPc : Nat
  nPcWm : Nat
  nMaxLog : Nat
  kPolar : Nat
  odd : Bool
  deriving DecidableEq, Repr

/-- The fields of a descriptor's words (R154). -/
def FecDesc.ofWords (ws : List Nat) : FecDesc :=
  let w (k : Nat) : Nat := (ws[k]?).getD 0
  { op := bitsAt (w 0) 0 4, bg2 := bitsAt (w 0) 4 1 = 1, zc := bitsAt (w 0) 5 9, maxIter := bitsAt (w 0) 14 5
    offset := bitsAt (w 0) 19 2, rows := bitsAt (w 0) 21 6, kp := bitsAt (w 0) 27 14, deadline := w 1
    inAddr := bitsAt (w 2) 0 32, outAddr := bitsAt (w 2) 32 32, e := bitsAt (w 3) 0 18, rv := bitsAt (w 3) 18 2
    qm := bitsAt (w 3) 20 4, ncb := bitsAt (w 3) 24 17, iIl := bitsAt (w 3) 41 1 = 1, iBil := bitsAt (w 3) 42 1 = 1
    nPc := bitsAt (w 3) 43 2, nPcWm := bitsAt (w 3) 45 1, nMaxLog := bitsAt (w 3) 46 4, kPolar := bitsAt (w 3) 50 10
    odd := bitsAt (w 0) 41 23 ≠ 0 ∨ bitsAt (w 3) 60 4 ≠ 0 ∨ w 4 ≠ 0 ∨ w 5 ≠ 0 ∨ w 6 ≠ 0 ∨ w 7 ≠ 0 }

/-- Information columns of the graph. -/
def FecDesc.infoCols (d : FecDesc) : Nat := if d.bg2 then 10 else 22

/-- Bit `k` of a list, 0 beyond its end. -/
def bitOf (l : List Bool) (k : Nat) : Bool := (l[k]?).getD false

/-! ### LDPC (TS 38.212 5.3.2, 5.4.2) -/

/-- A block of `z` bits rotated: bit `i` is bit `i + s` modulo z. -/
def rotBits (z s : Nat) (b : List Bool) : List Bool := (List.range z).map fun i => bitOf b ((i + s) % z)

/-- The sum over GF(2) of the entries of a base graph row whose columns are among the blocks that `keep` allows. -/
def rowSum (z : Nat) (row : List (Nat × Nat)) (blocks : List (List Bool)) (keep : Nat → Bool) : List Bool :=
  (row.filter fun e => keep e.1).foldl (fun acc e => List.zipWith xor acc (rotBits z e.2 ((blocks[e.1]?).getD [])))
    (List.replicate z false)

/-- The lifted codeword of an information word: its blocks, column by column. The four core rows fix the first four parity
blocks (their sum leaves the first of them alone, under the one shift that occurs an odd number of times), and every other
row its own. -/
def FecDesc.ldpcBlocks (d : FecDesc) (info : List Bool) : List (List Bool) :=
  let z := d.zc
  let kb := d.infoCols
  let row (r : Nat) : List (Nat × Nat) := Config.ldpcRow d.bg2 z r
  let sys := (List.range kb).map fun c => (List.range z).map fun i =>
    if c * z + i < d.kp then bitOf info (c * z + i) else false
  let total := (List.range 4).foldl (fun acc r => List.zipWith xor acc (rowSum z (row r) sys (· < kb))) (List.replicate z false)
  let shifts := (List.range 4).flatMap fun r => (row r).filterMap fun e => if e.1 = kb then some e.2 else none
  let odd := (shifts.find? fun s => (shifts.filter (· = s)).length % 2 = 1).getD 0
  let core := (List.range 3).foldl (fun bs r => bs ++ [rowSum z (row r) bs (· ≤ kb + r)])
    (sys ++ [rotBits z (z - odd % z) total])
  (List.range (if d.bg2 then 42 else 46)).foldl (fun bs r =>
    if r < 4 then bs else bs ++ [rowSum z (row r) bs (· < kb + r)]) core

/-- Where bit selection starts in the circular buffer, by redundancy version (5.4.2.1). -/
def FecDesc.k0 (d : FecDesc) : Nat :=
  let a := match d.rv, d.bg2 with
    | 0, _ => 0
    | 1, false => 17
    | 1, true => 13
    | 2, false => 33
    | 2, true => 25
    | _, false => 56
    | _, true => 43
  a * d.ncb / ((if d.bg2 then 50 else 66) * d.zc) * d.zc

/-- The rate-matched output of an LDPC encode: bits selected from the circular buffer, fillers left out, and interleaved
over the modulation order. DESIGN CHOICE (log entry 131): a value that Table 4.6 does not list and R155 does not reject is computed with. -/
def FecDesc.ldpcEncode (d : FecDesc) (info : List Bool) : List Bool :=
  let code := (d.ldpcBlocks info).flatten.drop (2 * d.zc)
  let filler (j : Nat) : Bool := decide (d.kp ≤ j + 2 * d.zc) && decide (j + 2 * d.zc < d.infoCols * d.zc)
  let order := ((List.range d.ncb).map fun j => (d.k0 + j) % d.ncb).filter fun j => !filler j
  let sel (k : Nat) : Bool := bitOf code ((order[k % order.length]?).getD 0)
  let q := max 1 d.qm
  (List.range d.e).map fun n => sel (n % q * (d.e / q) + n / q)

/-! ### Polar codes (TS 38.212 5.3.1, 5.4.1) -/

/-- The ceiling of a base-2 logarithm. -/
def log2Ceil (n : Nat) : Nat := if n ≤ 1 then 0 else Nat.log2 (n - 1) + 1

/-- The polar mother code length of TS 38.212 5.3.1 (log entry 35). -/
def FecDesc.polarN (d : FecDesc) : Nat :=
  let c := log2Ceil d.e
  let n1 := if 8 * d.e ≤ 9 * 2 ^ (c - 1) ∧ 16 * d.kPolar < 9 * d.e then c - 1 else c
  2 ^ max 5 (min (min n1 (log2Ceil (8 * d.kPolar))) d.nMaxLog)

/-- The sub-block interleaver pattern of 32 (Table 5.4.1.1-1). -/
def subBlocks : List Nat :=
  [0, 1, 2, 4, 3, 5, 6, 7, 8, 16, 9, 17, 10, 18, 11, 19, 12, 20, 13, 21, 14, 22, 15, 23, 24, 25, 26, 28, 27, 29, 30, 31]

/-- Coded bit that stands at place `n` after sub-block interleaving. -/
def subBlock (N n : Nat) : Nat := ((subBlocks[32 * n / N]?).getD 0) * (N / 32) + n % (N / 32)

/-- Whether a rate match of E below N punctures (and otherwise shortens). -/
def FecDesc.punctures (d : FecDesc) : Bool := decide (16 * d.kPolar ≤ 7 * d.e)

/-- Indices that carry no bit because of rate matching. -/
def FecDesc.polarFrozen (d : FecDesc) (N : Nat) : List Nat :=
  if N ≤ d.e then []
  else if d.punctures then
    let low := if 3 * N ≤ 4 * d.e then (3 * N - 2 * d.e + 3) / 4 else (9 * N - 4 * d.e + 15) / 16
    (List.range (N - d.e)).map (subBlock N) ++ List.range low
  else (List.range (N - d.e)).map fun n => subBlock N (d.e + n)

/-- The indices of the information and parity-check bits, by ascending reliability. -/
def FecDesc.polarInfo (d : FecDesc) (N : Nat) : List Nat :=
  let frozen := d.polarFrozen N
  let l := ((List.range 1024).map Config.polarOrder).filter fun q => decide (q < N) && !frozen.contains q
  l.drop (l.length - (d.kPolar + d.nPc))

/-- Ones in the binary form of an index, which give the weight of its row. -/
def onesOf (n : Nat) : Nat := ((List.range 10).filter fun k => n.testBit k).length

/-- The indices of the parity-check bits: the least reliable, and with NPC_WM one of least row weight among the others,
the most reliable of those. -/
def FecDesc.polarPc (d : FecDesc) (N : Nat) : List Nat :=
  let l := d.polarInfo N
  let rest := l.drop d.nPc
  let least := rest.foldl (fun m q => min m (onesOf q)) 10
  l.take (d.nPc - d.nPcWm) ++ (if d.nPcWm = 0 then [] else ((rest.filter fun q => onesOf q = least).getLast?).toList)

/-- The input after input interleaving. -/
def FecDesc.polarInput (d : FecDesc) (info : List Bool) : List Bool :=
  if d.iIl then ((List.range 164).map Config.polarInterleave).filterMap fun p =>
    if 164 - d.kPolar ≤ p then some (bitOf info (p - (164 - d.kPolar))) else none
  else info

/-- The bits u before the transform: information bits in order, and parity-check bits from the five-stage register. -/
def FecDesc.polarU (d : FecDesc) (N : Nat) (info : List Bool) : List Bool :=
  let inf := d.polarInfo N
  let pc := if d.nPc = 0 then [] else d.polarPc N
  let r := (List.range N).foldl (fun (st : List Bool × List Bool × List Bool) n =>
    let (y, c, u) := st
    let y := y.drop 1 ++ y.take 1
    if !inf.contains n then (y, c, u ++ [false])
    else if pc.contains n then (y, c, u ++ [bitOf y 0])
    else
      let b := bitOf c 0
      (y.set 0 (bitOf y 0 != b), c.drop 1, u ++ [b])) (List.replicate 5 false, d.polarInput info, [])
  r.2.2

/-- The rate-matched output of a polar encode. -/
def FecDesc.polarEncode (d : FecDesc) (info : List Bool) : List Bool :=
  let N := d.polarN
  let u := d.polarU N info
  let coded (j : Nat) : Bool := ((List.range N).filter fun i => i &&& j = j ∧ bitOf u i).length % 2 = 1
  let y := (List.range N).map fun n => coded (subBlock N n)
  let sel (k : Nat) : Bool :=
    if N ≤ d.e then bitOf y (k % N) else if d.punctures then bitOf y (k + N - d.e) else bitOf y k
  if d.iBil then
    let T := ((List.range (d.e + 1)).find? fun t => d.e ≤ t * (t + 1) / 2).getD 0
    let start (i : Nat) : Nat := i * T - i * (i - 1) / 2
    (List.range T).flatMap fun j => (List.range (T - j)).filterMap fun i =>
      if start i + j < d.e then some (sel (start i + j)) else none
  else (List.range d.e).map sel

/-- The output of an encode (R144): LDPC or polar. -/
def FecDesc.encode (d : FecDesc) (info : List Bool) : List Bool := if d.op = 3 then d.polarEncode info else d.ldpcEncode info

end Sys2Proof
end

