-- ==== Sys2Proof/Machine/Slots.lean ====
section
/-!
DEFINITION. Slots and drumbeat times (12.5), in whole nanoseconds of the time counter. Slot numbers are integers, since
the counter may stand before the GPS epoch.
-/
namespace Sys2Proof

/-- The GPS epoch in TAI nanoseconds (12.5). -/
def gpsEpoch : Int := 315964819 * 10 ^ 9

/-- Slot duration P in nanoseconds of numerology mu (R376). -/
def slotNs (mu : Nat) : Int := match mu with | 0 => 1000000 | 1 => 500000 | _ => 125000

/-- Slots of each numerology in one subframe. -/
def slotsPerMs (mu : Nat) : Nat := match mu with | 0 => 1 | 1 => 2 | _ => 8

/-- Bits [31:0] of a slot number. -/
def slotLow (m : Int) : Nat := (m % 2 ^ 32).toNat

/-- Insertion into a sorted list. -/
def insertBy {α : Type} (lt : α → α → Bool) (x : α) : List α → List α
  | [] => [x]
  | y :: r => if lt x y then x :: y :: r else y :: insertBy lt x r

/-- A list sorted so that equal elements keep their order. -/
def sortBy {α : Type} (lt : α → α → Bool) (l : List α) : List α := l.foldl (fun acc x => insertBy (fun a b => lt a b) x acc) []

/-- Lexicographic order of equally long lists. -/
def lexLt : List Int → List Int → Bool
  | a :: r, b :: t => a < b || (a = b && lexLt r t)
  | _, _ => false

namespace Machine

/-- FRAME_OFFSET_NS. -/
def State.frameOffset (s : State) : Int := s.rd R.RAD_CTRL.FRAME_OFFSET_NS

/-- The slot of a numerology at a TAI time (12.5). -/
def State.slotAt (s : State) (mu : Nat) (t : Int) : Int := Int.fdiv (t - gpsEpoch - s.frameOffset) (slotNs mu)

/-- The drumbeat time t_m of a slot in TAI nanoseconds (12.5). -/
def State.beatTime (s : State) (mu : Nat) (m : Int) : Int := m * slotNs mu + s.frameOffset + gpsEpoch

/-- The use intervals of a lendable shape around a time: those of the slot before, of this one and of the next. -/
def State.usesAround (s : State) (mu : Nat) (uses : List (Nat × Nat)) (t : Int) : List (Int × Int) :=
  let m := s.slotAt mu t
  [m - 1, m, m + 1].flatMap fun k => uses.map fun u => (s.beatTime mu k + u.1, s.beatTime mu k + u.2)

/-- Whether a time lies in a use interval of a shape. -/
def State.inUse (s : State) (mu : Nat) (uses : List (Nat × Nat)) (t : Int) : Bool :=
  (s.usesAround mu uses t).any fun u => decide (u.1 ≤ t) && decide (t < u.2)

/-- The start of the next use interval after a time, if there is one. -/
def State.nextUse (s : State) (mu : Nat) (uses : List (Nat × Nat)) (t : Int) : Option Int :=
  match (s.usesAround mu uses t).filterMap fun u => if t < u.1 then some u.1 else none with
  | [] => none
  | a :: r => some (r.foldl min a)

end Machine
end Sys2Proof
end

