-- ==== Sys2Proof/Machine/Fec.lean ====
section
/-!
DEFINITION. FEC blocks (4.7 to 4.9): descriptors, queues by deadline, the LDPC decoder, encodes, results in arrival
order.
-/
namespace Sys2Proof

/-- The lifting sizes of TS 38.212 Table 5.3.2-1: a * 2^j up to 384 (log entry 35). -/
def liftingSize (z : Nat) : Bool :=
  z ≤ 384 && [2, 3, 5, 7, 9, 11, 13, 15].any fun a => (List.range 8).any fun j => a * 2 ^ j = z

/-- Whether a descriptor is processed (R155). DESIGN CHOICE (log entry 111): the checks of the lifting size and of K' apply
to the LDPC operations, those of MAX_ITER and ROWS to decodes, whose fields these are. -/
def FecDesc.legal (d : FecDesc) : Bool :=
  let ldpc := d.op = 1 ∨ d.op = 2
  decide (1 ≤ d.op) && decide (d.op ≤ 3) && !d.odd && decide (d.inAddr % 64 = 0) && decide (d.outAddr % 64 = 0)
    && (!decide ldpc || (liftingSize d.zc && decide (d.kp ≤ (if d.bg2 then 3840 else 8448))))
    && (!decide (d.op = 1) || (decide (1 ≤ d.maxIter) && decide (4 ≤ d.rows)
      && decide (d.rows ≤ (if d.bg2 then 42 else 46))))

/-- Columns of the lifted graph a decode uses (R145). -/
def FecDesc.cols (d : FecDesc) : Nat := (if d.bg2 then 10 else 22) + d.rows

/-- The bits each check of rows 0 to L - 1 covers, lane by lane. -/
def FecDesc.checks (d : FecDesc) : List (List Nat) :=
  (List.range d.rows).flatMap fun r => (List.range d.zc).map fun lane =>
    (Config.ldpcRow d.bg2 d.zc r).map fun cs => cs.1 * d.zc + (lane + cs.2) % d.zc

/-- Non-zero entries of the used rows (R149). -/
def FecDesc.entries (d : FecDesc) : Nat :=
  (List.range d.rows).foldl (fun n r => n + (Config.ldpcRow d.bg2 d.zc r).length) 0

/-- sat of R146. -/
def sat511 (v : Int) : Int := max (-511) (min 511 v)

/-- One check's update (R146): the values of its bits and of its messages. -/
def checkUpdate (offset : Nat) (app : List Int) (vars : List Nat) (c2v : List Int) : List Int × List Int :=
  let ts := List.zipWith (fun v c => sat511 ((app[v]?).getD 0 - c)) vars c2v
  let msg (k : Nat) : Int :=
    let others := ts.eraseIdx k
    let m := others.foldl (fun a t => min a t.natAbs) (511 : Nat)
    let neg := (others.filter fun t => t < 0).length % 2 = 1
    let v : Int := (min 127 (m - offset) : Nat)
    if neg then -v else v
  let new := (List.range vars.length).map msg
  let app := (vars.zip (List.zipWith (fun t c => sat511 (t + c)) ts new)).foldl (fun a x => a.set x.1 x.2) app
  (app, new)

/-- One iteration over every check, in row order. -/
def decodeIter (offset : Nat) (checks : List (List Nat)) (app : List Int) (c2v : List (List Int)) :
    List Int × List (List Int) :=
  (checks.zip c2v).foldl (fun st x =>
    let r := checkUpdate offset st.1 x.1 x.2
    (r.1, st.2 ++ [r.2])) (app, [])

/-- Whether every check holds on the hard decisions (R146, R147). -/
def checksHold (checks : List (List Nat)) (app : List Int) : Bool :=
  checks.all fun vs => (vs.filter fun v => (app[v]?).getD 0 < 0).length % 2 = 0

/-- Iterations until the checks hold or the limit: values, iterations run, and whether the checks hold (R147). -/
def decodeRun (offset : Nat) (checks : List (List Nat)) (fuel done : Nat) (app : List Int) (c2v : List (List Int)) :
    List Int × Nat × Bool :=
  match fuel with
  | 0 => (app, done, false)
  | k + 1 =>
    let r := decodeIter offset checks app c2v
    if checksHold checks r.1 then (r.1, done + 1, true) else decodeRun offset checks k (done + 1) r.1 r.2

/-- The LLRs of a decode (R145). DESIGN CHOICE (log entry 135): a filler position in columns 0 and 1 has +127, as every other filler. -/
def FecDesc.llrs (d : FecDesc) (input : List Byte) : List Int :=
  (List.range (d.cols * d.zc)).map fun b =>
    if d.kp ≤ b ∧ b < d.infoCols * d.zc then 127
    else if b < 2 * d.zc then 0
    else
      let v := ((input[b - 2 * d.zc]?).getD 0).toNat
      if v < 128 then (v : Int) else max (-127) ((v : Int) - 256)

/-- The decode of a descriptor's input: hard decisions of bits 0 to K' - 1, iterations, syndrome. -/
def FecDesc.decode (d : FecDesc) (input : List Byte) : List Bool × Nat × Bool :=
  let checks := d.checks
  let r := decodeRun d.offset checks d.maxIter 0 (d.llrs input) (checks.map fun vs => vs.map fun _ => 0)
  ((List.range d.kp).map fun k => (r.1[k]?).getD 0 < 0, r.2.1, r.2.2)

/-- Bits packed from bit 0 of the first byte. -/
def packBits (bits : List Bool) : List Byte :=
  (List.range ((bits.length + 7) / 8)).map fun k =>
    BitVec.ofNat 8 ((List.range 8).foldl (fun a i => if (bits[8 * k + i]?).getD false then a + 2 ^ i else a) 0)

/-- Bits of bytes, from bit 0 of the first. -/
def unpackBits (bs : List Byte) (n : Nat) : List Bool :=
  (List.range n).map fun k => ((bs[k / 8]?).getD 0).toNat.testBit (k % 8)

/-- Cycles an encode occupies the encoder (R150). -/
def FecDesc.encodeCycles (d : FecDesc) : Nat :=
  if d.op = 3 then 32 + (max d.polarN d.e + 63) / 64 else 96 + (d.e + 63) / 64

/-- A result word (Table 4.7). -/
def fecWord (synd : Bool) (iter : Nat) (expired descErr eccErr : Bool) : Nat :=
  let b (x : Bool) (k : Nat) : Nat := if x then 2 ^ k else 0
  b synd 0 + iter % 32 * 2 + b expired 6 + b descErr 7 + b eccErr 8

/-- The waiting descriptor with the earliest deadline, ties in arrival order (R151); `t` gives deadlines. -/
def earliest (t : FecEntry → Option Nat) (q : List FecEntry) : Option FecEntry :=
  q.foldl (fun best e =>
    match best with
    | none => some e
    | some b => match t e, t b with
      | some x, some y => if x < y then some e else some b
      | some _, none => some e
      | none, _ => some b) none

/-- Whether the reorder buffer has a place for the result of a descriptor (R153): it holds 256 results that are ready before
their turn, those of the code blocks in process among them. A result whose turn has come waits for no other. -/
def FecBlock.room (b : FecBlock) (e : FecEntry) : Bool :=
  let early := (b.reorder.filter fun r => r.order ≠ b.emitted.findD r.stream 0).length
    + b.dec0.toList.length + b.dec1.toList.length + b.enc.toList.length
  decide (e.order = b.emitted.findD e.stream 0) || decide (early < 256)

namespace Machine

/-- A FEC block's state. -/
def State.fecBlock (s : State) (c : Nat) : FecBlock := s.eng.fec.findD c {}

/-- A FEC block changed, with the activity FEC_STATE shows. -/
def State.setFec (s : State) (c : Nat) (b : FecBlock) : State :=
  let n (x : Bool) : Nat := if x then 1 else 0
  let s := { s with eng := { s.eng with fec := s.eng.fec.put c b } }
  ((((s.wr R.FEC_STATE.DEC0_BUSY (n b.dec0.isSome) c).wr R.FEC_STATE.DEC1_BUSY (n b.dec1.isSome) c).wr
    R.FEC_STATE.ENC_BUSY (n b.enc.isSome) c).wr R.FEC_STATE.DEC_QUEUE b.decQ.length c).wr
    R.FEC_STATE.ENC_QUEUE b.encQ.length c

/-- The deadline of a waiting descriptor in nanoseconds of the time counter; none where word 1 is zero (Table 4.6). -/
def State.fecDeadline (s : State) (e : FecEntry) : Option Nat :=
  let w := (e.words[1]?).getD 0
  if w = 0 then none else some (s.complete (w / 2 ^ 32) (w % 2 ^ 32))

/-- A result waits for its turn in the reorder buffer (R153); its tag is the descriptor's, with EOI. -/
def State.fecResult (s : State) (c : Nat) (e : FecEntry) (status : TagStatus) (word : Nat) : State :=
  let b := s.fecBlock c
  let tag := { e.tag with status := e.tag.status.join status, eoi := true }
  s.setFec c { b with reorder := b.reorder ++ [⟨e.stream, e.order, tag, word⟩] }

/-- FEC_DESCRIPTOR (R151, R155): the two flits of a descriptor are taken from an input stream of the block; an illegal
one gives its result at once. The item is the one whose sequence the tag's SEQ stands for (R170). DESIGN CHOICE (log
entry 113): an illegal descriptor for whose result the reorder buffer has no place waits in the input FIFO, and a legal one
in its queue, until it has. -/
def execFecDescriptor (c : Cluster) (k : Nat) (item : Option ItemRef) (s : State) : Out :=
  let p : PortId := .fecIn c k
  match s.port p with
  | some v =>
    match v.fifo with
    | f0 :: f1 :: _ =>
      let b := s.fecBlock c
      let ws := f0.words ++ f1.words
      let d := FecDesc.ofWords ws
      let full := if d.op = 1 then 256 ≤ b.decQ.length else 128 ≤ b.encQ.length
      let n := b.arrived.findD v.stream 0
      let item := s.itemAt item f0.tag.seq
      let e : FecEntry := { words := ws, tag := { f0.tag with status := f0.tag.status.join f1.tag.status },
                            stream := v.stream, order := n, item := item }
      if v.stopped ∨ !s.flag R.FEC_CTRL.IN_SERVICE c ∨ (d.legal ∧ full) ∨ (!d.legal ∧ !b.room e) then .next s
      else
        let s := ((s.readPort p).1.readPort p).1
        let b := { b with arrived := b.arrived.put v.stream (n + 1) }
        if d.legal then
          .next (s.setFec c (if d.op = 1 then { b with decQ := b.decQ ++ [e] } else { b with encQ := b.encQ ++ [e] }))
        else
          let s := (s.setFec c b).set1 R.FEC_ERR.DESC_FORMAT c
          let s := s.fecResult c e .failed (fecWord false 0 false true false)
          .next (s.failWith { cls := .program, sub := 5, die := c / 2, unit := 6, owner := some e.tag.owner, item := item })
    | _ => .next s
  | none => .next s

/-- A descriptor whose deadline has passed gives an Expired result (R152). -/
def State.fecExpire (s : State) (c : Nat) (e : FecEntry) : State :=
  (s.bump R.FEC_EXPIRED.COUNT c).fecResult c e .late (fecWord false 0 true false false)

/-- DECODE_START (R151, R152). -/
def execDecodeStart (c : Cluster) (i : Fin 2) (s : State) : Out :=
  let b := s.fecBlock c
  let busy := if i = 0 then b.dec0.isSome else b.dec1.isSome
  if busy ∨ !s.flag R.FEC_CTRL.IN_SERVICE c then .next s
  else
    match earliest s.fecDeadline b.decQ with
    | none => .next s
    | some e =>
      let r := b.room e
      let b := { b with decQ := b.decQ.erase e }
      if !r then .next s
      else if (s.fecDeadline e).any s.passed then .next ((s.setFec c b).fecExpire c e)
      else .next (s.setFec c (if i = 0 then { b with dec0 := some e } else { b with dec1 := some e }))

/-- ENCODE_START (R151, R152). -/
def execEncodeStart (c : Cluster) (s : State) : Out :=
  let b := s.fecBlock c
  if b.enc.isSome ∨ !s.flag R.FEC_CTRL.IN_SERVICE c then .next s
  else
    match earliest s.fecDeadline b.encQ with
    | none => .next s
    | some e =>
      let r := b.room e
      let b := { b with encQ := b.encQ.erase e }
      if !r then .next s
      else if (s.fecDeadline e).any s.passed then .next ((s.setFec c b).fecExpire c e)
      else .next (s.setFec c { b with enc := some e })

/-- Nanoseconds since frame time began, and the window of R394 that runs: 500 µs, aligned to FRAME_OFFSET_NS. -/
def State.frameNs (s : State) : Int := (s.tai : Int) - gpsEpoch - s.frameOffset
def State.fecWindow (s : State) : Int := Int.fdiv s.frameNs 500000

/-- Cycles of a FEC block added to what an owner has used in a window. -/
def State.addUse (s : State) (w : Int) (owner c : Nat) (enc : Bool) (n : Nat) : State :=
  let k := (w, owner, c, enc)
  let v := s.eng.fecUse.findD k (0, false)
  if n = 0 then s else { s with eng := { s.eng with fecUse := s.eng.fecUse.put k (v.1 + n, v.2) } }

/-- Occupancy of a FEC block by an owner (R149, R150, R394): the `n` cycles of a code block that ends now, at 1.8 GHz, in the windows
in which they ran. -/
def State.useFec (s : State) (owner c : Nat) (enc : Bool) (n : Nat) : State :=
  let here := min n ((s.frameNs - s.fecWindow * 500000).toNat * 9 / 5)
  (s.addUse s.fecWindow owner c enc here).addUse (s.fecWindow - 1) owner c enc (n - here)

/-- An uncorrectable error in a FEC block's memories fails the code block in progress; the second within one second
takes the block out of service (R158, R485). -/
def State.fecUncorr (s : State) (c : Nat) (e : FecEntry) : State :=
  let s := s.set1 R.FEC_ERR.ECC_UNCORR c
  let s := s.fecResult c e .failed (fecWord false 0 false false true)
  let s := s.failWith { cls := .dataUncorr, sub := 1, die := c / 2, unit := 6, owner := some e.tag.owner, item := e.item }
  let recent := (s.err.fecTimes.findD c []).filter fun t => s.elapsed ≤ t + seconds 1
  let s := { s with err := { s.err with fecTimes := s.err.fecTimes.put c (s.elapsed :: recent) } }
  if recent.isEmpty then s
  else (s.detect { cls := .fec, die := c / 2, unit := 6, recUnit := some (.fec c) }).1

/-- A FEC block reads a code block from cluster store (R156): a bad word of its own makes the data Failed, with a record (R200). `ecc` is
what the code of the store found in the first word. -/
def State.fecInput (s : State) (c : Nat) (e : FecEntry) (off n : Nat) (ecc : Ecc) : State × List Byte × Bool :=
  let (s, input, bad) := (s.cluWord c off e.tag.owner ecc).cluRead c off n e.tag.owner
  let i : ErrInfo := { cls := .dataUncorr, sub := 3, die := c / 2, unit := 6, owner := some e.tag.owner, item := e.item }
  (if bad then s.failWith i else s, input, bad)

/-- DECODE_DONE (R146, R147, R156, R158, R200). DESIGN CHOICE (log entry 112): the input is read from cluster store when the
decode completes. DESIGN CHOICE (log entry 145): a decode that fails in the block's memories has occupied it for MAX_ITER iterations. -/
def execDecodeDone (c : Cluster) (i : Fin 2) (ecc store : Ecc) (s : State) : Out :=
  let b := s.fecBlock c
  match (if i = 0 then b.dec0 else b.dec1) with
  | none => .next s
  | some e =>
    let s := s.setFec c (if i = 0 then { b with dec0 := none } else { b with dec1 := none })
    let d := FecDesc.ofWords e.words
    if ecc = .uncorrectable then
      .next ((s.useFec e.tag.owner c false (40 + d.maxIter * (d.entries + 6 * d.rows))).fecUncorr c e)
    else
      let s := if ecc = .corrected then s.bump R.FEC_ECC_CORR.COUNT c else s
      let (s, input, bad) := s.fecInput c e d.inAddr ((d.cols - 2) * d.zc) store
      let (bits, iters, ok) := d.decode input
      let s := s.cluWrite c [(d.outAddr, packBits bits)] e.tag.owner
      let s := (s.bump R.FEC_DEC_BLOCKS.COUNT c i).bump R.FEC_DEC_ITERS.COUNT c 0 iters
      let s := if ok then s else s.bump R.FEC_DEC_FAIL.COUNT c
      let s := s.useFec e.tag.owner c false (40 + iters * (d.entries + 6 * d.rows))
      .next (s.fecResult c e (if bad then .failed else .good) (fecWord ok iters false false false))

/-- ENCODE_DONE (R144, R150, R156, R158); the input is read as a decode's is (log entry 112). -/
def execEncodeDone (c : Cluster) (ecc store : Ecc) (s : State) : Out :=
  let b := s.fecBlock c
  match b.enc with
  | none => .next s
  | some e =>
    let s := s.setFec c { b with enc := none }
    let d := FecDesc.ofWords e.words
    if ecc = .uncorrectable then .next ((s.useFec e.tag.owner c true d.encodeCycles).fecUncorr c e)
    else
      let s := if ecc = .corrected then s.bump R.FEC_ECC_CORR.COUNT c else s
      let k := if d.op = 3 then d.kPolar else d.kp
      let (s, input, bad) := s.fecInput c e d.inAddr ((k + 7) / 8) store
      let info := unpackBits input k
      let s := s.cluWrite c [(d.outAddr, packBits (d.encode info))] e.tag.owner
      let s := (s.bump R.FEC_ENC_BLOCKS.COUNT c).useFec e.tag.owner c true d.encodeCycles
      .next (s.fecResult c e (if bad then .failed else .good) (fecWord false 0 false false false))

/-- FEC_RESULT_EMIT (R153, R157): the next result of an input stream leaves for the stage the image names. -/
def execFecResultEmit (c : Cluster) (stream : Nat) (s : State) : Out :=
  let b := s.fecBlock c
  let n := b.emitted.findD stream 0
  match b.reorder.find? fun r => r.stream = stream && r.order = n, b.resultPort.find stream with
  | some r, some p =>
    match s.port p with
    | none => .next s
    | some v =>
      if 2 ^ v.depthLog2 ≤ v.fifo.length then .next s
      else
        let s := s.setFec c { b with reorder := b.reorder.filter (fun x => !(x.stream = stream && x.order = n)),
                                     emitted := b.emitted.put stream (n + 1) }
        .next (s.setPort p { v with fifo := v.fifo ++ [{ tag := r.tag, words := [r.word, 0, 0, 0] }] })
  | _, _ => .next s

end Machine
end Sys2Proof
end

