-- ==== Sys2Proof/Machine/Signal.lean ====
section
/-!
DEFINITION. The signal engine (4.4 to 4.6). Each command is one instruction of the engine's program, given decoded:
the encodings are not published (R123). An instruction on an engine that does not run, or that waits for a drumbeat,
does not come about.
-/
namespace Sys2Proof

/-- The generator an operand names: 0 to 7 for X, 8 to 15 for Y (R160). -/
def SigOpnd.gen : SigOpnd → Option Nat
  | .x g _ => some g
  | .y g _ => some (8 + g)
  | .reg _ => none

/-- The generators that a list of operands post-updates, each once (R143). -/
def updatedGens (os : List SigOpnd) : List Nat :=
  os.foldl (fun acc o =>
    match o with
    | .x g true => if acc.contains g.val then acc else acc ++ [g.val]
    | .y g true => if acc.contains (8 + g.val) then acc else acc ++ [8 + g.val]
    | _ => acc) []

/-- A 16-bit word as a signed number. -/
def signed16 (v : Nat) : Int := if v % 65536 < 32768 then (v % 65536 : Nat) else (v % 65536 : Nat) - 65536

/-- A signed number as a 16-bit word. -/
def word16 (v : Int) : Nat := (v % 65536).toNat

/-- A 40-bit register value as a signed number. -/
def signed40 (v : Nat) : Int := if v % 2 ^ 40 < 2 ^ 39 then (v % 2 ^ 40 : Nat) else ((v % 2 ^ 40 : Nat) : Int) - 2 ^ 40

/-- ACC divided by 2^p, rounded in the mode of Table 4.4 (R136). -/
def accRound (mode p : Nat) (acc : Int) : Int :=
  match mode with
  | 0 => acc.fdiv (2 ^ p)
  | 1 => (2 * acc + 2 ^ p).fdiv (2 ^ (p + 1))
  | 2 =>
    let q := acc.fdiv (2 ^ p)
    let r := 2 * acc.fmod (2 ^ p)
    if r < 2 ^ p then q else if 2 ^ p < r then q + 1 else if q.fmod 2 = 0 then q else q + 1
  | _ => acc.tdiv (2 ^ p)

/-- 16-bit words packed four to a payload word, low word first, and padded with zero words to a flit (R172). -/
def packWords (ws : List Nat) : List Nat :=
  (List.range 4).map fun k => (List.range 4).foldl (fun a i => a + (ws[4 * k + i]?).getD 0 * 2 ^ (16 * i)) 0

/-- The packed words of an output port leave as one flit; with EOI its item has ended on the stream (R171). -/
def Port.flush (v : Port) : Port :=
  { v with fifo := v.fifo ++ [{ tag := v.packTag, words := packWords v.packed, err := v.packErr }], packed := []
           ended := if v.packTag.eoi then endItem v.ended v.packTag.seq else v.ended }

namespace Machine

/-- Whether an engine takes its next instruction. -/
def State.sigReady (s : State) (e : Nat) : Bool := s.flag R.SIG_STATE.RUNNING e && s.rd R.SIG_STATE.WAIT e != 3

/-- ACC as a signed number (R135). -/
def State.acc (s : State) (e : Nat) : Int := signed40 (s.rd R.SIG_ACC.ACC e)

/-- ACC set from a signed number of 40 bits, with the copies of bit 39. -/
def State.setAcc (s : State) (e : Nat) (v : Int) : State :=
  (s.wr R.SIG_ACC.ACC (v % 2 ^ 40).toNat e).wr R.SIG_ACC.ACC_SX (if v < 0 then 2 ^ 24 - 1 else 0) e

/-- General register n. -/
def State.greg (s : State) (e n : Nat) : Nat := s.eng.gregs.findD (e, n) 0

/-- General register n set. -/
def State.setGreg (s : State) (e n v : Nat) : State :=
  { s with eng := { s.eng with gregs := s.eng.gregs.put (e, n) (v % 65536) } }

/-- A word of X or Y. -/
def State.sigWord (s : State) (e : Nat) (m : SigMem) (a : Nat) : Nat := s.eng.sigMem.findD (e, m, a) 0

/-- A word of X or Y set. -/
def State.setSigWord (s : State) (e : Nat) (m : SigMem) (a v : Nat) : State :=
  { s with eng := { s.eng with sigMem := s.eng.sigMem.put (e, m, a) (v % 65536) } }

/-- The word address of an access through generator g (R142). -/
def State.genAddr (s : State) (e g : Nat) : Nat := (s.rd R.SIG_BASE.BASE e g + s.rd R.SIG_INDEX.INDEX e g) % 32768

/-- The modulus of generator g (R142). -/
def State.genLen (s : State) (e g : Nat) : Nat := if s.rd R.SIG_LEN.LEN e g = 0 then 32768 else s.rd R.SIG_LEN.LEN e g

/-- The post-update of generator g: INDEX steps modulo LEN, taking the non-negative remainder (R142). -/
def State.genStep (s : State) (e g : Nat) : State :=
  let v := ((s.rd R.SIG_INDEX.INDEX e g : Int) + signed16 (s.rd R.SIG_STEP.STEP e g)) % (s.genLen e g : Int)
  s.wr R.SIG_INDEX.INDEX v.toNat e g

/-- The word an operand reads. -/
def State.sigRead (s : State) (e : Nat) (o : SigOpnd) : Nat :=
  match o with
  | .x g _ => s.sigWord e .x (s.genAddr e g)
  | .y g _ => s.sigWord e .y (s.genAddr e (8 + g))
  | .reg n => s.greg e n

/-- A word written to an operand; the address is that of `s0`, the state the instruction started in (R138, R143). -/
def State.sigWrite (s s0 : State) (e : Nat) (o : SigOpnd) (v : Nat) : State :=
  match o with
  | .x g _ => s.setSigWord e .x (s0.genAddr e g) v
  | .y g _ => s.setSigWord e .y (s0.genAddr e (8 + g)) v
  | .reg n => s.setGreg e n v

/-- The post-updates of an instruction's operands (R142, R143). -/
def State.genUpdates (s : State) (e : Nat) (os : List SigOpnd) : State :=
  (updatedGens os).foldl (fun s g => s.genStep e g) s

/-- The program counter moves on, or stays for the next repetition; no wait is left (R137). DESIGN CHOICE (log entry 134): after index 4,095
it is 0. -/
def State.advance (s : State) (e : Nat) : State :=
  let s := (s.wr R.SIG_STATE.WAIT 0 e).wr (R.STR_STATE.SIG_OUT_WAIT (e % 2)) 0 (e / 2)
  match s.eng.sigRepeat.findD e 0 with
  | 0 => s.wr R.SIG_STATE.PC (s.rd R.SIG_STATE.PC e + 1) e
  | k + 1 => { s with eng := { s.eng with sigRepeat := if k = 0 then s.eng.sigRepeat.del e else s.eng.sigRepeat.put e k } }

/-- A branch takes the program counter to its target and ends a repetition (log entry 27). -/
def State.jump (s : State) (e target : Nat) : State :=
  let s := { s with eng := { s.eng with sigRepeat := s.eng.sigRepeat.del e } }
  (s.wr R.SIG_STATE.WAIT 0 e).wr R.SIG_STATE.PC target e

/-- What an engine knows of the item it works on: the sequence and status its input flits carried. -/
def State.sigItem (s : State) (e : Nat) : Entry := s.eng.sigItem.findD e { tag := {}, words := [] }

/-- The item an engine works on (R170): of the queue the command names, the one whose sequence its input carried. -/
def State.engineItem (s : State) (e : Nat) (item : Option ItemRef) : Option ItemRef :=
  match s.eng.sigItem.find e with
  | some x => s.itemAt item x.tag.seq
  | none => item

/-- An instruction under the codes of the memories it reads, instruction memory among them (R141): clean, corrected and
counted, or uncorrectable, which stops the engine, fails the item and is contained at level 1. -/
def sigOp (e : SigEngine) (ecc : Ecc) (item : Option ItemRef) (s : State) (run : State → State) : Out :=
  if !s.sigReady e then .next s
  else
    match ecc with
    | .clean => .next (run s)
    | .corrected => .next (run ((s.bump R.SIG_ECC_CORR.COUNT e).countCe (e / 2)))
    | .uncorrectable =>
      let s := s.set1 R.SIG_STATUS.ECC_UNCORR e
      let s := (s.wr R.SIG_STATE.RUNNING 0 e).wr R.SIG_STATE.STOPPED 1 e
      .next (s.failWith (s.atSite .coreUncorr 3 (e / 2) (3 + e % 2) (s.engineItem e item)))

/-- The product of two operands, doubled in fractional mode (R134). -/
def State.product (s : State) (e : Nat) (a b : SigOpnd) : Int :=
  let p := signed16 (s.sigRead e a) * signed16 (s.sigRead e b)
  if s.flag R.SIG_MODE.FRAC e then 2 * p else p

/-- A result brought into ACC: outside its range it saturates or wraps, and sets ACC_OVF (R135). -/
def State.toAcc (s : State) (e : Nat) (v : Int) : State :=
  if -(2 ^ 39) ≤ v ∧ v < 2 ^ 39 then s.setAcc e v
  else
    let s := s.set1 R.SIG_STATUS.ACC_OVF e
    if s.flag R.SIG_MODE.SAT_ACC e then s.setAcc e (if v < 0 then -(2 ^ 39) else 2 ^ 39 - 1)
    else s.setAcc e (signed40 (v % 2 ^ 40).toNat)

/-- A multiply: the new ACC from the old one and the product, then the post-updates. -/
def mulOp (e : SigEngine) (a b : SigOpnd) (ecc : Ecc) (item : Option ItemRef) (f : Int → Int → Int) (s : State) : Out :=
  sigOp e ecc item s fun s => ((s.toAcc e (f (s.acc e) (s.product e a b))).genUpdates e [a, b]).advance e

/-- MAC (R135). -/
def execMac (e : SigEngine) (a b : SigOpnd) (ecc : Ecc) (item : Option ItemRef) (s : State) : Out :=
  mulOp e a b ecc item (fun acc p => acc + p) s
/-- MSU (R135). -/
def execMsu (e : SigEngine) (a b : SigOpnd) (ecc : Ecc) (item : Option ItemRef) (s : State) : Out :=
  mulOp e a b ecc item (fun acc p => acc - p) s
/-- MACZ (R135). -/
def execMacz (e : SigEngine) (a b : SigOpnd) (ecc : Ecc) (item : Option ItemRef) (s : State) : Out :=
  mulOp e a b ecc item (fun _ p => p) s
/-- MSUZ (R135). -/
def execMsuz (e : SigEngine) (a b : SigOpnd) (ecc : Ecc) (item : Option ItemRef) (s : State) : Out :=
  mulOp e a b ecc item (fun _ p => -p) s

/-- The stored ACC: the word, and whether the rounded value lay outside 16 bits (R136). -/
def State.storedAcc (s : State) (e : Nat) : Nat × Bool :=
  let v := accRound (s.rd R.SIG_MODE.ROUND e) (s.rd R.SIG_MODE.SHIFT e) (s.acc e)
  if -32768 ≤ v ∧ v ≤ 32767 then (word16 v, false)
  else if s.flag R.SIG_MODE.SAT_STORE e then (word16 (if v < 0 then -32768 else 32767), true)
  else (word16 v, false)

/-- STORE_SAT follows a saturated store (R136). -/
def State.noteStore (s : State) (e : Nat) (sat : Bool) : State := if sat then s.set1 R.SIG_STATUS.STORE_SAT e else s

/-- STACC (R136). -/
def execStacc (e : SigEngine) (dst : SigOpnd) (ecc : Ecc) (item : Option ItemRef) (s : State) : Out :=
  sigOp e ecc item s fun s0 =>
    let (v, sat) := s0.storedAcc e
    (((s0.sigWrite s0 e dst v).noteStore e sat).genUpdates e [dst]).advance e

/-- MOVE between X, Y and the general registers (R137, R138). -/
def execMove (e : SigEngine) (dst src : SigOpnd) (ecc : Ecc) (item : Option ItemRef) (s : State) : Out :=
  sigOp e ecc item s fun s0 =>
    ((s0.sigWrite s0 e dst (s0.sigRead e src)).genUpdates e [src, dst]).advance e

/-- An operation on general registers with a wrapping result. -/
def regOp (e : SigEngine) (d : Fin 16) (ecc : Ecc) (item : Option ItemRef) (f : State → Nat) (s : State) : Out :=
  sigOp e ecc item s fun s => (s.setGreg e d (f s)).advance e

/-- SIG_ADD (R137). -/
def execSigAdd (e : SigEngine) (d a b : Fin 16) (ecc : Ecc) (item : Option ItemRef) (s : State) : Out :=
  regOp e d ecc item (fun s => s.greg e a + s.greg e b) s
/-- SIG_SUB (R137). -/
def execSigSub (e : SigEngine) (d a b : Fin 16) (ecc : Ecc) (item : Option ItemRef) (s : State) : Out :=
  regOp e d ecc item (fun s => s.greg e a + 65536 - s.greg e b) s
/-- SIG_ARITHMETIC_SHIFT by `n` places, left or right (R137). -/
def execSigArithmeticShift (e : SigEngine) (d a : Fin 16) (left : Bool) (n : Nat) (ecc : Ecc) (item : Option ItemRef) (s : State) : Out :=
  regOp e d ecc item (fun s => if left then s.greg e a * 2 ^ n else word16 ((signed16 (s.greg e a)).fdiv (2 ^ n))) s
/-- SIG_LOGICAL_SHIFT by `n` places, left or right (R137). -/
def execSigLogicalShift (e : SigEngine) (d a : Fin 16) (left : Bool) (n : Nat) (ecc : Ecc) (item : Option ItemRef) (s : State) : Out :=
  regOp e d ecc item (fun s => if left then s.greg e a * 2 ^ n else s.greg e a / 2 ^ n) s
/-- SIG_AND (R137). -/
def execSigAnd (e : SigEngine) (d a b : Fin 16) (ecc : Ecc) (item : Option ItemRef) (s : State) : Out :=
  regOp e d ecc item (fun s => s.greg e a &&& s.greg e b) s
/-- SIG_OR (R137). -/
def execSigOr (e : SigEngine) (d a b : Fin 16) (ecc : Ecc) (item : Option ItemRef) (s : State) : Out :=
  regOp e d ecc item (fun s => s.greg e a ||| s.greg e b) s
/-- SIG_XOR (R137). -/
def execSigXor (e : SigEngine) (d a b : Fin 16) (ecc : Ecc) (item : Option ItemRef) (s : State) : Out :=
  regOp e d ecc item (fun s => s.greg e a ^^^ s.greg e b) s

/-- A field of a generator written by SETAG; INDEX stays below the modulus (R143, SIG_INDEX). -/
def State.setGen (s : State) (e g : Nat) (f : AgField) (v : Nat) : State :=
  match f with
  | .base => s.wr R.SIG_BASE.BASE v e g
  | .step => s.wr R.SIG_STEP.STEP v e g
  | .index => s.wr R.SIG_INDEX.INDEX (v % 65536 % s.genLen e g) e g
  | .len =>
    let v := v % 65536
    let v := if v ≤ 32768 then v else Config.lenBeyond v % 32769
    let s := s.wr R.SIG_LEN.LEN v e g
    s.wr R.SIG_INDEX.INDEX (s.rd R.SIG_INDEX.INDEX e g % s.genLen e g) e g

/-- SETAG (R143): an access of the same instruction uses the old generator, and the written value stands over its
update. -/
def execSetag (e : SigEngine) (g : Fin 16) (f : AgField) (v : SigVal) (ecc : Ecc) (item : Option ItemRef) (s : State) : Out :=
  sigOp e ecc item s fun s =>
    match v with
    | .imm n => (s.setGen e g f n).advance e
    | .opnd o =>
      let w := s.sigRead e o
      let s' := s.genUpdates e [o]
      let s' := if f = .index ∧ o.gen = some g.val then s'.wr R.SIG_INDEX.INDEX (s.rd R.SIG_INDEX.INDEX e g) e g else s'
      (s'.setGen e g f w).advance e

/-- The engine waits, for the cause shown in SIG_STATE (R139). -/
def State.sigWait (s : State) (e cause : Nat) : State := s.wr R.SIG_STATE.WAIT cause e

/-- IN (R139): the next word of the input port goes to an operand; while the port is empty the engine waits. `last`
says that the program takes no further word of the head flit, so that the rest of it is padding (R172). The flit's
sequence and status are those of the engine's item from then on (R168). -/
def execIn (e : SigEngine) (dst : SigOpnd) (last : Bool) (ecc : Ecc) (item : Option ItemRef) (s : State) : Out :=
  sigOp e ecc item s fun s =>
    match s.port (.sigIn e) with
    | none => s.sigWait e 1
    | some v =>
      match (if v.stopped then [] else v.fifo) with
      | [] => (s.setInWait (.sigIn e) true).sigWait e 1
      | fl :: _ =>
        let w := (fl.words[v.taken / 4]?).getD 0 / 2 ^ (16 * (v.taken % 4)) % 65536
        let s : State := { s with eng := { s.eng with sigItem := s.eng.sigItem.put e ((s.sigItem e).after fl) } }
        let s' := if last ∨ v.taken = 15 then (s.readPort (.sigIn e)).1
          else s.setPort (.sigIn e) { v with taken := v.taken + 1 }
        ((s'.sigWrite s e dst w).genUpdates e [dst]).advance e

/-- OUT (R139, R171, R172): a word, or the stored ACC, goes to the output port, or nothing but the end of an item. A flit is
sent when its 16 words are filled or the program ends an item, whose last flit has EOI; an item with no word has one flit
of zeros. The tag copies the sequence of the engine's item and its status (R165, R168). While the port has no room for the
flit the engine waits. After the last flit of the engine's item nothing follows on the stream: an OUT for that item gives no flit, and
the engine goes on (log entry 117). -/
def execOut (e : SigEngine) (src : OutSrc) (endItem : Bool) (ecc : Ecc) (item : Option ItemRef) (s : State) : Out :=
  sigOp e ecc item s fun s =>
    match s.port (.sigOut e) with
    | none => s.sigWait e 2
    | some v =>
      let full := 2 ^ v.depthLog2 ≤ v.fifo.length
      if (endItem ∨ (15 ≤ v.packed.length ∧ src ≠ .nothing)) ∧ full then (s.setOutWait (.sigOut e) true).sigWait e 2
      else
        let (ws, sat) := match src with
          | .word o => ([s.sigRead e o], false)
          | .acc => ([s.storedAcc e |>.1], (s.storedAcc e).2)
          | .nothing => ([], false)
        let os := match src with | .word o => [o] | _ => []
        let x := s.sigItem e
        let past := (s.eng.sigItem.find e).isSome && v.ended.contains x.tag.seq
        if past then ((s.noteStore e sat).genUpdates e os).advance e else
        let v := { v with packed := v.packed ++ ws, packTag := { seq := x.tag.seq, status := x.tag.status, eoi := endItem }
                          packErr := x.err }
        let v := if endItem ∨ 16 ≤ v.packed.length then v.flush else v
        (((s.setPort (.sigOut e) v).noteStore e sat).genUpdates e os).advance e

/-- BR (R137). -/
def execBr (e : SigEngine) (target : Fin 4096) (ecc : Ecc) (item : Option ItemRef) (s : State) : Out := sigOp e ecc item s fun s => s.jump e target
/-- BRZ (R137). -/
def execBrz (e : SigEngine) (n : Fin 16) (target : Fin 4096) (ecc : Ecc) (item : Option ItemRef) (s : State) : Out :=
  sigOp e ecc item s fun s => if s.greg e n = 0 then s.jump e target else s.advance e
/-- BRNZ (R137). -/
def execBrnz (e : SigEngine) (n : Fin 16) (target : Fin 4096) (ecc : Ecc) (item : Option ItemRef) (s : State) : Out :=
  sigOp e ecc item s fun s => if s.greg e n ≠ 0 then s.jump e target else s.advance e

/-- REPEAT n of the next instruction (R137). -/
def execRepeat (e : SigEngine) (n : Nat) (ecc : Ecc) (item : Option ItemRef) (s : State) : Out :=
  sigOp e ecc item s fun s =>
    let s := s.advance e
    { s with eng := { s.eng with sigRepeat := if n ≤ 1 then s.eng.sigRepeat.del e else s.eng.sigRepeat.put e (n - 1) } }

/-- WAITBEAT (R139, R172): words waiting in the output port leave as a flit, and the engine waits for the next
drumbeat of its glade. -/
def execWaitbeat (e : SigEngine) (ecc : Ecc) (item : Option ItemRef) (s : State) : Out :=
  sigOp e ecc item s fun s =>
    match s.port (.sigOut e) with
    | none => s.sigWait e 3
    | some v =>
      if v.packed.isEmpty then s.sigWait e 3
      else if 2 ^ v.depthLog2 ≤ v.fifo.length then (s.setOutWait (.sigOut e) true).sigWait e 2
      else (s.setPort (.sigOut e) v.flush).sigWait e 3

end Machine
end Sys2Proof
end

