-- ==== Sys2Proof/Machine/Contexts.lean ====
section
/-!
DEFINITION. Contexts (11.1): where they lie, what a site holds of the one resident on it (R580), stopping, saving and
restoring one (R358 to R363), and the charges of engine time (R349 to R351).
-/
namespace Sys2Proof

/-- The register fields that belong to the context on a site (R580); flags and counters stay with the site. -/
def ctxRegs : List RegName :=
  [.TNS_CFG, .TNS_ROWMASK, .TNS_COLMASK, .TNS_PASSREC, .COR_NUMCFG, .COR_SR_SEED, .VEC_COMB_CFG, .VEC_STATE, .STR_STATE]

/-- The same, of a signal engine. -/
def ctxSigRegs : List RegName := [.SIG_MODE, .SIG_STATE, .SIG_ACC, .SIG_BASE, .SIG_LEN, .SIG_INDEX, .SIG_STEP]

/-- The stream ports of a site by number: 0 to 7 ingress, 8 to 15 egress, 16 and 17 signal inputs, 18 and 19 signal
outputs. -/
def sitePort (site k : Nat) : PortId :=
  let s : Site := Fin.ofNat 1152 site
  let e (n : Nat) : SigEngine := Fin.ofNat 2304 (2 * site + n)
  if k < 8 then .ingress s (Fin.ofNat 8 k)
  else if k < 16 then .egress s (Fin.ofNat 8 (k - 8))
  else if k < 18 then .sigIn (e (k - 16)) else .sigOut (e (k - 18))

/-- The keys of a site's fields made relative to it. -/
def relKey (site : Nat) (k : FKey) : Option FKey :=
  if ctxRegs.contains k.reg ∧ k.unit = site then some { k with unit := 0 }
  else if ctxSigRegs.contains k.reg ∧ k.unit / 2 = site then some { k with unit := k.unit % 2 }
  else none

/-- The key of a field at a site, from its relative key. -/
def absKey (site : Nat) (k : FKey) : FKey :=
  if ctxSigRegs.contains k.reg then { k with unit := 2 * site + k.unit } else { k with unit := site }

/-- The mover with its outstanding requests made pending entries, and its parked requests back in their lists (R358). -/
def Mover.stop (m : Mover) : Mover :=
  let m := m.resp.foldl Mover.takeAnswer m
  let back (d : MovDesc) : MovDesc :=
    let rs := m.parked.filter fun r => r.desc = d.serial
    { d with todo := rs ++ d.todo, waiting := d.waiting.filter fun k => rs.all fun r => r.id ≠ k || m.late.any fun q => q.id = k }
  { m with resp := [], active := m.active.map back, parked := [], late := m.late ++ m.slots ++ m.fabric ++ m.host,
           slots := [], fabric := [], host := [], halt := true }

/-- The mover of a restored context: every pending read that has not ended is issued again, once, and its pending entry stands until
its own answer comes (R359, R360). -/
def Mover.resume (m : Mover) : Mover :=
  let again (d : MovDesc) : MovDesc :=
    let rs := m.late.filter fun r => r.desc = d.serial && r.write.isNone && d.waiting.contains r.id && d.todo.all fun q => q.id ≠ r.id
    { d with todo := rs.foldl (fun l r => if l.any fun q => q.id = r.id then l else l ++ [r]) [] ++ d.todo }
  { m with active := m.active.map again, halt := false, dead := false }

/-- The site that takes the place of another. -/
def moved (old new : List Nat) (site : Nat) : Nat :=
  match indexIn old site with
  | some i => (new[i]?).getD site
  | none => site

/-- A field whose engines lie at other sites. -/
def FieldSt.relocate (f : FieldSt) (old new : List Nat) : FieldSt :=
  { f with sites := f.sites.map (moved old new)
           west := f.west.mapVal fun _ l => l.map fun g => { g with site := moved old new g.site } }

/-- The mover of a core whose context lies at other sites. -/
def Mover.relocate (m : Mover) (old new : List Nat) : Mover :=
  { m with active := m.active.map fun d => { d with load := d.load.map fun x => (moved old new x.1, x.2) } }

/-- Whether a context counts for V(c): ready or resident, and no glade's. -/
def Ctx.counts (c : Ctx) : Bool := c.kind ≠ .glade && (c.onCores || (c.ready && c.rests))

namespace Machine

/-! ### Engine time, tags and virtual time (R349 to R351) -/

/-- Share weight of an owner. -/
def State.weight (s : State) (owner : Nat) : Nat := max 1 (s.rd R.SCH_TEN_SHARE.WEIGHT 0 owner)

/-- Start tag S(o, c). -/
def State.tag (s : State) (owner cluster : Nat) : Nat := s.sched.tags.findD (owner, cluster) 0

/-- A start tag set; SCH_GEN counts a change of it. -/
def State.setTag (s : State) (owner cluster t : Nat) : State :=
  let same := s.tag owner cluster = t
  let s : State := { s with sched := { s.sched with tags := s.sched.tags.put (owner, cluster) t } }
  if same then s else s.schedGen

/-- V(c) brought up to the least tag among owners that count; it never falls (R351). -/
def State.refreshV (s : State) (cluster : Nat) : State :=
  let tags := (s.ctxsOf cluster).filterMap fun e => if Ctx.counts e.2 then some (s.tag e.1.1 cluster) else none
  match tags with
  | [] => s
  | t :: r =>
    let v := max (s.sched.vtime.findD cluster 0) (r.foldl min t)
    { s with sched := { s.sched with vtime := s.sched.vtime.put cluster v } }

/-- Core nanoseconds a context has run since its last charge, in whole steps of 2 ns on each core (R349), and the
elapsed time they reach to. -/
def State.dueCharge (s : State) (c : Ctx) : Nat × Nat :=
  let n := (s.elapsed - c.since) / 10
  (c.size * 2 * n, c.since + 10 * n)

/-- A charge applied to an owner's engine time, and for an inference context to its tag where `tagged` (R349, R350). -/
def State.charge (s : State) (k : Nat × Nat) (tagged : Bool) : State :=
  match s.ctx k with
  | none => s
  | some c =>
    let (e, upTo) := s.dueCharge c
    let s := s.wr R.SCH_TEN_ENGINE.CORE_NS (s.rd R.SCH_TEN_ENGINE.CORE_NS 0 k.1 + e) 0 k.1
    let s := s.setCtx k { c with since := upTo }
    if tagged ∧ c.kind ≠ .glade then
      (s.setTag k.1 c.cluster ((s.tag k.1 c.cluster + e * 65536 / s.weight k.1) % 2 ^ 64)).refreshV c.cluster
    else s

/-- A context becomes ready (R351, R355): an owner that had none counting in the cluster starts at its virtual time. -/
def State.makeReady (s : State) (k : Nat × Nat) : State :=
  match s.ctx k with
  | none => s
  | some c =>
    if c.ready ∨ c.kind = .glade then s
    else
      let others := (s.ctxsOf c.cluster).any fun e => e.1.1 = k.1 && e.1 ≠ k && Ctx.counts e.2
      let s := s.refreshV c.cluster
      let s := if others then s
        else s.setTag k.1 c.cluster (max (s.tag k.1 c.cluster) (s.sched.vtime.findD c.cluster 0))
      let s := s.setCtx k { c with ready := true, readySince := s.elapsed }
      (s.refreshV c.cluster).decide_ c.cluster

/-! ### What a site holds -/

/-- What the site holds of the context resident on it, its core store up to `claim` bytes included. -/
def State.capture (s : State) (site claim : Nat) : SavedCore :=
  let base := coreAddr site 0
  { store := (s.coreStore.filter fun c => base ≤ c.1 && c.1 < base + claim).map fun c => (c.1 - base, c.2)
    regs := s.regs.filterMap fun e => (relKey site e.1).map fun k => (k, e.2)
    vregs := s.eng.vregs.filterMap fun e => if e.1.1 = site then some (e.1.2, e.2) else none
    gregs := s.eng.gregs.filterMap fun e => if e.1.1 / 2 = site then some ((e.1.1 % 2, e.1.2), e.2) else none
    sigMem := s.eng.sigMem.filterMap fun e => if e.1.1 / 2 = site then some ((e.1.1 % 2, e.1.2), e.2) else none
    sigProg := s.eng.sigProg.filterMap fun e => if e.1 / 2 = site then some (e.1 % 2, e.2) else none
    sigRepeat := s.eng.sigRepeat.filterMap fun e => if e.1 / 2 = site then some (e.1 % 2, e.2) else none
    sigItem := s.eng.sigItem.filterMap fun e => if e.1 / 2 = site then some (e.1 % 2, e.2) else none
    vecProg := s.eng.vecProg.findD site []
    ports := (List.range 20).filterMap fun k => (s.port (sitePort site k)).map fun v => (k, v)
    mover := s.mem.movers.find site
    comb := s.comb.find site }

/-- The fields of the field map of a core (R85). -/
def State.setFieldMap (s : State) (cluster row col : Nat) (shape : Option Nat) : State :=
  let s := s.wr (R.TNS_FIELDMAP.SHAPE col) (shape.getD 0) cluster row
  s.wr (R.TNS_FIELDMAP.USED col) (if shape.isSome then 1 else 0) cluster row

/-- A site that no context is resident on: its context fields at reset, its engines stopped, its ports unbound, its
core store at 0 (R199, R580). -/
def State.clearSite (s : State) (site : Nat) : State :=
  let s := if s.mem.movers.has site then s.setMover site {} else s
  { s with
    regs := Tab.del (s.regs.filter fun e => (relKey site e.1).isNone) ⟨.STR_SITE, 0, site, 0⟩
    coreStore := s.coreStore.zero (coreAddr site 0) coreStoreSize
    eng := { s.eng with
      vregs := s.eng.vregs.filter fun e => e.1.1 ≠ site
      gregs := s.eng.gregs.filter fun e => e.1.1 / 2 ≠ site
      sigMem := s.eng.sigMem.filter fun e => e.1.1 / 2 ≠ site
      sigProg := s.eng.sigProg.filter fun e => e.1 / 2 ≠ site
      sigRepeat := s.eng.sigRepeat.filter fun e => e.1 / 2 ≠ site
      sigItem := s.eng.sigItem.filter fun e => e.1 / 2 ≠ site
      vecProg := s.eng.vecProg.del site }
    str := { s.str with ports := (List.range 20).foldl (fun t k => t.del (sitePort site k)) s.str.ports }
    mem := { s.mem with movers := s.mem.movers.del site }
    comb := s.comb.del site }

/-- The saved state of one core put onto a site. -/
def State.install (s : State) (site owner : Nat) (v : SavedCore) : State :=
  let s := s.clearSite site
  let s : State := { s with
    regs := v.regs.foldl (fun t e => t.put (absKey site e.1) e.2) s.regs
    coreStore := v.store.foldl (fun m c => m.write (coreAddr site c.1) c.2) s.coreStore
    eng := { s.eng with
      vregs := s.eng.vregs ++ v.vregs.map fun e => ((site, e.1), e.2)
      gregs := s.eng.gregs ++ v.gregs.map fun e => ((2 * site + e.1.1, e.1.2), e.2)
      sigMem := s.eng.sigMem ++ v.sigMem.map fun e => ((2 * site + e.1.1, e.1.2), e.2)
      sigProg := s.eng.sigProg ++ v.sigProg.map fun e => (2 * site + e.1, e.2)
      sigRepeat := s.eng.sigRepeat ++ v.sigRepeat.map fun e => (2 * site + e.1, e.2)
      sigItem := s.eng.sigItem ++ v.sigItem.map fun e => (2 * site + e.1, e.2)
      vecProg := if v.vecProg.isEmpty then s.eng.vecProg else s.eng.vecProg.put site v.vecProg }
    str := { s.str with ports := v.ports.foldl (fun t e => t.put (sitePort site e.1) e.2) s.str.ports }
    comb := match v.comb with | some c => s.comb.put site c | none => s.comb }
  let s := match v.mover with | some m => s.setMover site m | none => s
  s.wr R.STR_SITE.OWNER owner site

/-- TNS_CFG and TNS_FIELDMAP of core `i` of a context on its site (Tables 2.7, 2.9). The engine of a loose core is a field
of shape 64 x 64 (2.2). -/
def State.showCore (s : State) (c : Ctx) (i site : Nat) (rc : Nat × Nat) : State :=
  let s := s.wr R.TNS_CFG.SHAPE c.code site
  let s := s.wr R.TNS_CFG.ENG_ROW (i / c.dims.2) site
  let s := s.wr R.TNS_CFG.ENG_COL (i % c.dims.2) site
  let s := s.wr R.TNS_CFG.ANCHOR (c.row * 8 + c.col) site
  (s.wr R.TNS_CFG.IN_FIELD 1 site).setFieldMap c.cluster rc.1 rc.2 (some c.code)

/-! ### Streams of a context -/

/-- Entries of a stream in the routers of its cluster. -/
def State.inRouters (s : State) (cluster n : Nat) : Nat :=
  s.str.bufs.foldl (fun k b => if Unit.clusterOf b.1.site = cluster then
    k + (b.2.filter fun e => e.tag.stream = n).length else k) 0

/-- The credits of a stream's producer port as its consumer stands (R177, R358): what its FIFO has room for, and none
while the consumer's context is not resident or is being stopped. A producer that waited for a credit goes on (R188). -/
def State.recredit (s : State) (cn : Nat × Nat) : State :=
  match s.stream cn.1 cn.2 with
  | none => s
  | some r =>
    match s.endPort r.producer cn.2 with
    | none => s
    | some v =>
      let saving := !r.consumer.isFec && (s.ctx (r.owner, r.consCtx)).any fun c => c.res = .saving
      let k := match s.endPort r.consumer cn.2 with
        | some w => if saving then 0 else 2 ^ w.depthLog2 - (w.fifo.length + s.inRouters cn.1 cn.2)
        | none => 0
      let s := s.setPort r.producer { v with credits := k }
      if k = 0 then s
      else
        let s := match r.producer with | .egress .. => s.setOutWait r.producer false | _ => s
        s.unblockPort r.producer

/-- The streams that join a context of an owner (by shape index). -/
def State.streamsOf (s : State) (k : Nat × Nat) (c : Ctx) : List (Nat × Nat) :=
  s.str.streams.filterMap fun e =>
    if e.1.1 = c.cluster && e.2.owner = k.1 && (e.2.prodCtx = k.2 || e.2.consCtx = k.2) then some e.1 else none

/-- The streams that feed a context. -/
def State.feedsOf (s : State) (k : Nat × Nat) (c : Ctx) : List (Nat × Nat) :=
  s.str.streams.filterMap fun e =>
    if e.1.1 = c.cluster && e.2.owner = k.1 && e.2.consCtx = k.2 then some e.1 else none

/-! ### Stopping, saving and restoring -/

/-- A stop begins (R358): fields stop at the next pass boundary, engines and movers stop, and the producers that feed
the context lose their credits. -/
def State.stopCtx (s : State) (k : Nat × Nat) (c : Ctx) : State :=
  let sites := s.ctxSites c
  let run := (sites.zipIdx.flatMap fun x => [0, 1].filterMap fun e =>
    if s.flag R.SIG_STATE.RUNNING (2 * x.1 + e) then some (2 * x.2 + e) else none)
  let s := sites.foldl (fun s site =>
    let s := s.stopSite site
    match s.mem.movers.find site with
    | some m => s.setMover site m.stop
    | none => s) s
  let s := match sites with
    | a :: _ => match s.fields.find a with
      | some f =>
        let quiet := f.stopped && !f.passOpen && f.inArray.isEmpty && f.taken.all fun e => e.2 = 0
        s.setField a { f with stopping := !quiet, stopped := quiet }
      | none => s
    | [] => s
  let s := (s.feedsOf k c).foldl (fun s cn => match s.stream cn.1 cn.2 with
    | some r => match s.endPort r.producer cn.2 with
      | some v => s.setPort r.producer { v with credits := 0 }
      | none => s
    | none => s) s
  s.setCtx k { c with res := .saving, running := c.running ++ run }

/-- An armed barrier holds a resident context (R271): its engines and movers start nothing. -/
def State.holdCtx (s : State) (k : Nat × Nat) : State :=
  match s.ctx k with
  | none => s
  | some c =>
    if c.res ≠ .resident ∨ c.held then s
    else
      let sites := s.ctxSites c
      let run := (sites.zipIdx.flatMap fun x => [0, 1].filterMap fun e =>
        if s.flag R.SIG_STATE.RUNNING (2 * x.1 + e) then some (2 * x.2 + e) else none)
      let s := sites.foldl (fun s site =>
        let s := s.stopSite site
        s.setMover site { s.mover site with halt := true }) s
      let s := { s with fields := sites.foldl (fun t a => t.modify a fun f => { f with stopped := true }) s.fields }
      s.setCtx k { c with held := true, running := run }

/-- A held context starts its units (R272). A standby, and a context whose standby is about to take its place, stay stopped (R489,
R490); one that is being saved goes on with its stop. -/
def State.unholdCtx (s : State) (k : Nat × Nat) : State :=
  match s.ctx k with
  | none => s
  | some c =>
    if !c.held ∨ c.standby ∨ s.err.standby.any (fun x => x.1 = k.1 && x.2.1 = c.group) then s
    else if c.res ≠ .resident then s.setCtx k { c with held := false }
    else
      let sites := s.ctxSites c
      let s := sites.foldl (fun s site =>
        (s.setMover site { s.mover site with halt := false }).wr R.VEC_STATE.STOPPED 0 site) s
      let s := c.running.foldl (fun s n =>
        let e := 2 * (sites[n / 2]?).getD 0 + n % 2
        (s.wr R.SIG_STATE.RUNNING 1 e).wr R.SIG_STATE.STOPPED 0 e) s
      let s := { s with fields := sites.foldl (fun t a => t.modify a fun f => { f with stopped := false }) s.fields }
      s.setCtx k { c with held := false, running := [] }

/-- Whether a stop has ended: the field has stopped and no flit for the context is in a router (R363). -/
def State.stopEnded (s : State) (k : Nat × Nat) (c : Ctx) : Bool :=
  let field := match s.ctxSites c with
    | a :: _ => match s.fields.find a with | some f => f.stopped | none => true
    | [] => true
  field && (s.feedsOf k c).all fun cn => s.inRouters cn.1 cn.2 = 0

/-- The bytes of core store an image claims for image core `i` of a context, in whole 64 KiB units (R362). -/
def State.claimOf (s : State) (k : Nat × Nat) (i : Nat) : Nat :=
  match s.ten.images.find k.1 with
  | none => coreStoreSize
  | some l =>
    let core := ((l.placed[k.2]?).bind fun p => p.shape.cores[i]?).bind fun n => l.img.cores[n]?
    match core with
    | some v => min coreStoreSize ((v.storeKiB + v.combKiB + 63) / 64 * 65536)
    | none => coreStoreSize

/-- The sites of a context give up what they hold of it. -/
def State.vacate (s : State) (k : Nat × Nat) (c : Ctx) : State :=
  let sites := s.ctxSites c
  let s := sites.foldl State.clearSite s
  let s := c.cores.foldl (fun s rc => s.setFieldMap c.cluster rc.1 rc.2 none) s
  let s := { s with fields := sites.foldl (fun t a => t.del a) s.fields }
  (s.streamsOf k c).foldl State.recredit s

/-- The state of a stopped context goes to its save place (R362), and its sites read as without a context (R580). -/
def State.saveCtx (s : State) (k : Nat × Nat) (c : Ctx) (goesTo : CtxRes) : State :=
  let sites := s.ctxSites c
  let saved := sites.zipIdx.map fun x => s.capture x.1 (s.claimOf k x.2)
  let field := match sites with | a :: _ => s.fields.find a | [] => none
  let c' := { c with res := goesTo, saved := saved, field := field, oldSites := sites, blocked := none, stall := none, quantumEnd := none,
                     urgent := none, held := false }
  (s.vacate k c).setCtx k c'

/-- The ports of a site stand stopped where their streams do (R180, R187). -/
def State.matchStops (s : State) (site : Nat) : State :=
  let match_ (v : Port) : Port := match s.stream (Unit.clusterOf site) v.stream with
    | some r => { v with stopped := r.stopped }
    | none => v
  { s with str := { s.str with ports := (List.range 20).foldl (fun t i => t.modify (sitePort site i) match_) s.str.ports } }

/-- A saved context goes back onto its sites and runs (R360, R362). -/
def State.restoreCtx (s : State) (k : Nat × Nat) (c : Ctx) : State :=
  let sites := s.ctxSites c
  let s := (sites.zip c.saved).foldl (fun s x => (s.install x.1 k.1 x.2).matchStops x.1) s
  let s := (sites.zip c.cores).zipIdx.foldl (fun s x => s.showCore c x.2 x.1.1 x.1.2) s
  let s := sites.foldl (fun s site =>
    let s := match s.mem.movers.find site with
      | some m => s.setMover site (m.relocate c.oldSites sites).resume
      | none => s
    s.wr R.VEC_STATE.STOPPED 0 site) s
  let s := c.running.foldl (fun s n =>
    let e := 2 * (sites[n / 2]?).getD 0 + n % 2
    (s.wr R.SIG_STATE.RUNNING 1 e).wr R.SIG_STATE.STOPPED 0 e) s
  let s := match c.field, sites with
    | some f, a :: _ =>
      let f := f.relocate c.oldSites sites
      s.setField a { f with stopping := false, stopped := false, fresh := true, started := false, t := 0, hold := false
                            had := (f.banks.map fun (b : (Bool × Nat) × ColBank) => b.1.1).eraseDups }
    | _, _ => s
  let s := s.setCtx k { c with res := .resident, saved := [], field := none, ready := false, running := [], stall := none }
  (s.streamsOf k c).foldl State.recredit s

/-- A context leaves for good: what its sites hold of it, and its save slots, are freed (R364). -/
def State.dropCtx (s : State) (k : Nat × Nat) : State :=
  match s.ctx k with
  | none => s
  | some c =>
    let s := if c.onCores ∧ c.kind ≠ .glade then s.charge k false else s
    let s := s.refreshV c.cluster
    let s := if c.onCores ∧ c.res ≠ .restoring then s.vacate k c else s
    let t : State := { s with sched := { s.sched with ctxs := s.sched.ctxs.del k } }
    ((t.schedGen.markGroup k.1 c.group).refreshV c.cluster).decide_ c.cluster

end Machine
end Sys2Proof
end

