-- ==== Sys2Proof/Machine/Agent.lean ====
section
/-!
DEFINITION. Memory as the device's own agents reach it (queue agents, radio service, fabric homes): lines of HBM kept
coherent with their home line cache, clearing HBM through extents, host memory and fabric windows.
-/
namespace Sys2Proof.Machine

/-- A write of one of the device's agents to an HBM line arrives at its home line cache, behind what has arrived there for the line
(R220). -/
def State.coherentWrite (s : State) (n : Nat) (b : LineBytes) : State :=
  let d := n / 2 ^ 29
  let c := s.cache d
  s.setCache d { c with inq := c.inq ++ [{ key := .hbm n, write := some b }] }

/-- The bytes of a byte range, line by line: line number and offsets within it, with where they lie in the range. -/
def spans (a n : Nat) : List (Nat × List (Nat × Nat)) :=
  (linesOf a n).map fun l => (l, (List.range n).filterMap fun k =>
    if (a + k) / 256 = l then some ((a + k) % 256, k) else none)

/-- A write of a byte range of device memory. -/
def State.deviceWrite (s : State) (a : Nat) (bs : List Byte) : State :=
  (spans a bs.length).foldl (fun s l => s.coherentWrite l.1 (l.2.map fun o => (o.1, bs.getD o.2 0))) s

/-- A read of a byte range of device memory. -/
def State.deviceRead (s : State) (a n : Nat) : List Byte :=
  (List.range n).map fun k => (s.seenLine ((a + k) / 256)).getD ((a + k) % 256) 0

/-- A read of a byte range of an owner's clearing HBM; bytes that no extent covers read 0 and count (R206). -/
def State.clearingRead (s : State) (owner a n : Nat) : State × List Byte :=
  let ls := linesOf a n
  let bad := (ls.filter fun l => (s.deviceLine owner l false).isNone).length
  let bs := (List.range n).map fun k => match s.deviceLine owner ((a + k) / 256) false with
    | some l => (s.seenLine l).getD ((a + k) % 256) 0
    | none => 0
  (s.violate R.SCH_TEN_VIOL.MEM owner bad, bs)

/-- A write of a byte range of an owner's clearing HBM; lines that no writable extent covers stay and count. -/
def State.clearingWrite (s : State) (owner a : Nat) (bs : List Byte) : State :=
  (spans a bs.length).foldl (fun s l => match s.deviceLine owner l.1 true with
    | some n => s.coherentWrite n (l.2.map fun o => (o.1, bs.getD o.2 0))
    | none => s.violate R.SCH_TEN_VIOL.MEM owner) s

/-- A number as `n` bytes, lowest first (R5). -/
def leBytes (n v : Nat) : List Byte :=
  match n with
  | 0 => []
  | n + 1 => BitVec.ofNat 8 v :: leBytes n (v / 256)

/-- Words of 64 bits as bytes. -/
def wordBytes (ws : List Nat) : List Byte := ws.flatMap (leBytes 8)

/-- Bytes as words of 64 bits. -/
def bytesWords (n : Nat) (bs : List Byte) : List Nat := (List.range n).map fun k => leNat ((bs.drop (8 * k)).take 8)

/-- Whether a read of a queue space in host memory or behind the fabric is not sent, and so reads zeros (R206, R432, R514). -/
def State.spaceClosed (s : State) (owner space a n : Nat) : Bool :=
  if space = 4 then (s.hostFn owner).isNone
  else !s.wor.imports.any fun e => e.1.1 = owner && e.2.read && e.2.covers a n

/-- A write into a queue space: clearing HBM, host memory through CXL.cache, or a fabric window (10.1). -/
def State.spaceWrite (s : State) (owner space a : Nat) (bs : List Byte) : State :=
  match space with
  | 2 => s.clearingWrite owner a bs
  | 4 => s.hostWrite owner a bs
  | _ =>
    if s.wor.imports.any fun e => e.1.1 = owner && e.2.write && e.2.covers a bs.length then
      let q := a / 64 * 64
      let m := (List.range bs.length).foldl (fun m k => m ||| 2 ^ ((a + k) % 256)) 0
      let data := (List.range 64).map fun k => if a ≤ q + k then bs.getD (q + k - a) 0 else 0
      let p : Packet := { typ := .write, cls := .request, src := 0, dst := a / 2 ^ 44 % 4096, addr := q, len := 64,
                          mask := m, data := data }
      s.askFabric p .agent
    else s.violate R.SCH_TEN_VIOL.MEM owner

end Sys2Proof.Machine
end

