-- ==== Sys2Proof/Machine/Ziura.lean ====
section
/-!
DEFINITION. The Ziura mesh (1.5): delivery in order, retries, ports going down and up, route orders, and the radio
reservation.
-/
namespace Sys2Proof

/-- The code of an order in ZIU_ROUTE (Table 1.8). -/
def ZOrder.code : ZOrder → Nat
  | .horizontalFirst => 0
  | .verticalFirst => 1
  | .detour => 2

/-- The port of die `d` that leads to die `e`, when they are neighbours. -/
def ziuPortTo (d e : Nat) : Option Nat := (List.range 3).find? fun p => ziuPartner d p = some e

/-- The dies from row `a` to row `b` along a column, the first left out; `n` bounds the walk. -/
def verticalRun (col a b n : Nat) : List Nat :=
  match n with
  | 0 => []
  | n + 1 =>
    if a = b then []
    else
      let a' := if a < b then a + 1 else a - 1
      (2 * a' + col) :: verticalRun col a' b n

/-- The dies that an order visits from `s` to `e`, both included; R33 defines no detour but within a column. -/
def ziuPath (o : ZOrder) (s e : Nat) : Option (List Nat) :=
  match o with
  | .horizontalFirst =>
    some ((if s % 2 = e % 2 then [s] else [s, 2 * (s / 2) + e % 2]) ++ verticalRun (e % 2) (s / 2) (e / 2) 4)
  | .verticalFirst =>
    some (s :: verticalRun (s % 2) (s / 2) (e / 2) 4 ++ (if s % 2 = e % 2 then [] else [e]))
  | .detour =>
    if s % 2 = e % 2 ∧ s / 2 ≠ e / 2 then
      let c := 1 - s % 2
      some ([s, 2 * (s / 2) + c] ++ verticalRun c (s / 2) (e / 2) 4 ++ [e])
    else none

namespace Machine

/-- Whether a die is in service. -/
def State.dieUp (s : State) (d : Nat) : Bool := s.rd (R.GLB_DIE_STATE.DIE d) = 1

/-- Whether the ports at both ends of every link of a path are up, and every die of it is in service (R37). -/
def State.pathClear (s : State) : List Nat → Bool
  | a :: b :: r =>
    s.dieUp a && s.dieUp b
      && ((ziuPortTo a b).any fun p => s.rd R.ZIU_PORT_STATE.STATE a p = 1)
      && ((ziuPortTo b a).any fun p => s.rd R.ZIU_PORT_STATE.STATE b p = 1)
      && s.pathClear (b :: r)
  | _ => true

/-- The order that R37 chooses for a pair of dies, if one joins them. -/
def State.chooseOrder (s : State) (a b : Nat) : Option ZOrder :=
  [ZOrder.horizontalFirst, .verticalFirst, .detour].find? fun o =>
    match ziuPath o a b with
    | some l => s.pathClear l
    | none => false

/-- Puts an early flit among those held, in sequence order. -/
def holdFlit (f : ZFlit) (l : List ZFlit) : List ZFlit :=
  match l with
  | [] => [f]
  | g :: r => if f.seq < g.seq then f :: g :: r else g :: holdFlit f r

/-- The held flits that continue the sequence without a gap, the next sequence, and those still held. -/
def releaseRun (next : Nat) (held : List ZFlit) : List ZFlit × Nat × List ZFlit :=
  match held with
  | [] => ([], next, [])
  | f :: r =>
    if f.seq = next then
      let (out, n, h) := releaseRun (next + 1) r
      (f :: out, n, h)
    else ([], next, f :: r)

/-- The order a source's ZIU_ROUTE shows for a destination (Table 1.8). -/
def State.orderShown (s : State) (a b : Nat) : ZOrder :=
  match s.rd (R.ZIU_ROUTE.ORDER b) a with
  | 0 => .horizontalFirst
  | 1 => .verticalFirst
  | _ => .detour

/-- Whether a flit can have been sent as it is (R33): a die has sent it again on new orders, or its order is defined for its pair of dies
and is one that its source gives the destination now or gave it before. -/
def State.sent (s : State) (f : ZFlit) : Bool :=
  s.ziu.onward.contains f
    || ((ziuPath f.order f.src f.dst).isSome
        && (f.order = s.orderShown f.src f.dst || (s.ziu.given.findD (f.src.val, f.dst.val) []).contains f.order))

/-- What the code of a crossing of a die to or from the Ziura island found in a flit (R163, R186, R187): a corrected bit counts for the
cluster `c` that holds the crossing; an uncorrectable payload word is zeroed and recorded, and its item fails; an uncorrectable header
word takes the flit's words (log entry 118), and is contained at level 1 on the core that was to take them. -/
def State.ziuraEcc (s : State) (f : ZFlit) (c : Nat) (ecc : EntryEcc) : State × ZFlit :=
  match ecc with
  | .clean => (s, f)
  | .corrected => (s.bump R.STR_CL_ECC_CORR.COUNT c, f)
  | .payload w => (s.failWith { cls := .dataUncorr, sub := 2, die := c / 2, unit := 7, item := f.item }, { f with words := f.words.set w 0 })
  | .tagWord =>
    (match f.core with
      | some k => (s.set1 R.STR_ERR.TAG_UNCORR k).failWith (s.atSite .coreUncorr 4 k 7 f.item)
      | none => s.failWith { cls := .dataUncorr, sub := 2, die := c / 2, unit := 7, item := f.item }, { f with words := [] })

/-- ZIURA_FLIT_ARRIVE (R33, R35): a flit reaches its destination die by the order it records. `srcEcc` and `ecc` are what the codes of
the crossings found at the cluster that sent it and at the one that takes it. A flit whose header a crossing's code
cannot correct keeps its place in its triple and loses its words (log entry 118). -/
def execZiuraFlitArrive (f : ZFlit) (half : Fin 2) (ecc : EntryEcc) (srcHalf : Fin 2) (srcEcc : EntryEcc) (s : State) : Out :=
  if !s.sent f then .next s else
  let sent := f
  let (s, f) := s.ziuraEcc f (2 * f.src.val + srcHalf) srcEcc
  let (s, f) := s.ziuraEcc f (2 * f.dst.val + half) ecc
  let key := (f.src.val, f.dst.val, f.vc.val)
  let t := s.ziu.triples.findD key {}
  let z := { s.ziu with onward := s.ziu.onward.erase sent }
  if f.seq < t.next ∨ t.held.any fun g => g.seq = f.seq then .next { s with ziu := z }
  else
    let (out, n, h) := releaseRun t.next (holdFlit f t.held)
    .next { s with ziu := { z with
      triples := z.triples.put key ⟨n, h⟩
      released := z.released.put f.dst.val (z.released.findD f.dst.val [] ++ out) } }

/-- ZIURA_LINK_RETRY (R36): a flit fails its CRC at a port that is up. -/
def execZiuraLinkRetry (d : Die) (p : Fin 3) (s : State) : Out :=
  if s.rd R.ZIU_PORT_STATE.STATE d p = 1 then
    let recent := (s.ziu.retries.findD (d.val, p.val) []).filter fun t => s.elapsed < t + millis 1
    .next { s.bump R.ZIU_PORT_RETRY.COUNT d p with
      ziu := { s.ziu with retries := s.ziu.retries.put (d.val, p.val) (s.elapsed :: recent) } }
  else .next s

/-- The end of a link opposite to port `p` of die `d`. -/
def ziuFarEnd (d p : Nat) : Option (Nat × Nat) := (ziuPartner d p).bind fun e => (ziuPortTo e d).map fun q => (e, q)

/-- Sets the STATE of both ends of a link. -/
def State.setLink (s : State) (d p v : Nat) : State :=
  match ziuFarEnd d p with
  | some (e, q) => (s.wr R.ZIU_PORT_STATE.STATE v d p).wr R.ZIU_PORT_STATE.STATE v e q
  | none => s

/-- A link goes down (R36): both ends read down and owe their clear and set where PORT_EN is set, new orders are due,
and the report leaves a LINK record (class 0x10, SUB 0x01). -/
def State.linkDown (s : State) (d p : Nat) : State :=
  let s := s.setLink d p 2
  let ends := (d, p) :: (ziuFarEnd d p).toList
  let owed := (ends.filter fun e => s.flag (R.ZIU_CTRL.PORT_EN e.2) e.1) ++ s.ziu.owed.filter fun e => !ends.contains e
  let s := { s with ziu := { s.ziu with owed := owed, due := true,
                                        retries := ends.foldl (fun t e => t.del e) s.ziu.retries } }
  (s.detect { cls := .link, sub := 1, die := d }).1

/-- Flits that wait at a die for new orders (R36), which are due from then on: where they have been set already, they are the present
ones. -/
def State.waitFlits (s : State) (d : Nat) (fs : List ZFlit) : State :=
  if fs = [] then s
  else { s with ziu := { s.ziu with waiting := s.ziu.waiting.put d (s.ziu.waiting.findD d [] ++ fs), due := true } }

/-- ZIURA_PORT_DOWN (R36): sixteen retries within 1 ms take an up port down. The flits that were unacknowledged on it,
or that reach it while it is down or trains again, wait at the dies of its two ends. -/
def execZiuraPortDown (d : Die) (p : Fin 3) (near far : List ZFlit) (s : State) : Out :=
  let st := s.rd R.ZIU_PORT_STATE.STATE d p
  let recent := (s.ziu.retries.findD (d.val, p.val) []).filter fun t => s.elapsed < t + millis 1
  if st = 1 ∧ recent.length < 16 ∨ st = 0 then .next s
  else
    let s := if st = 1 then s.linkDown d p else s
    let s := s.waitFlits d near
    .next (match ziuFarEnd d p with
      | some (e, _) => s.waitFlits e far
      | none => s)

/-- The ZIU_ROUTE fields of one source die, with its change count. -/
def State.routeDie (s : State) (d : Nat) : State :=
  let t := (List.range 8).foldl (fun t e =>
    let reach := s.dieUp e && (e = d || (s.chooseOrder d e).isSome)
    let ord := if reach && e ≠ d then ((s.chooseOrder d e).map ZOrder.code).getD 0 else 0
    (t.wr (R.ZIU_ROUTE.ORDER e) ord d).wr (R.ZIU_ROUTE.REACH e) (if reach then 1 else 0) d) s
  if (List.range 8).all fun e =>
      s.rd (R.ZIU_ROUTE.ORDER e) d = t.rd (R.ZIU_ROUTE.ORDER e) d
        && s.rd (R.ZIU_ROUTE.REACH e) d = t.rd (R.ZIU_ROUTE.REACH e) d
  then t
  else
    let g := (List.range 8).foldl (fun (g : Tab (Nat × Nat) (List ZOrder)) e =>
      let o := s.orderShown d e
      if o = t.orderShown d e ∨ (g.findD (d, e) []).contains o then g else g.put (d, e) (o :: g.findD (d, e) [])) t.ziu.given
    { t.tick R.ZIU_ROUTE_GEN.GEN d with ziu := { t.ziu with given := g } }

/-- Whether two dies in service are joined by no order (R37). -/
def State.partitioned (s : State) : Bool :=
  (List.range 8).any fun a => (List.range 8).any fun b =>
    s.dieUp a && s.dieUp b && a ≠ b && (s.chooseOrder a b).isNone

/-- The order a source now gives a flit for its destination, if it is reachable. -/
def State.orderNow (s : State) (f : ZFlit) (at_ : Nat) : Option ZOrder :=
  if s.dieUp f.dst then (if at_ = f.dst.val then some f.order else s.chooseOrder at_ f.dst) else none

/-- ZIURA_REROUTE (R36 to R38): after a change of a port or a die, new orders in every die, those out of service included (R37), once
the package has dies in service; waiting flits go on from the die they wait at. Two dies in service that no order joins are a partition: level 5. -/
def execZiuraReroute (s : State) : Out :=
  if !s.ziu.due then .next s
  else
    let split := s.partitioned
    let t := if (List.range 8).any s.dieUp then (List.range 8).foldl (fun t d => t.routeDie d) s else s
    let moved := t.ziu.waiting.flatMap fun e => e.2.filterMap fun f => (t.orderNow f e.1).map fun o => { f with order := o }
    let left := t.ziu.waiting.mapVal fun d l => l.filter fun f => (t.orderNow f d).isNone
    let t := { t with ziu := { t.ziu with due := false, waiting := left.keep fun _ l => l ≠ []
                                          onward := t.ziu.onward ++ moved } }
    .next (if split then (t.detect { cls := .package, sub := 1, recUnit := some .package }).1 else t)

/-- Whether both ends of a link may train (R38): PORT_EN set, and cleared before that since the link went down, both
dies in service, the rails in range. -/
def State.mayTrain (s : State) (d p : Nat) : Bool :=
  match ziuFarEnd d p with
  | some (e, q) =>
    s.flag (R.ZIU_CTRL.PORT_EN p) d && s.flag (R.ZIU_CTRL.PORT_EN q) e && s.dieUp d && s.dieUp e
      && !s.ziu.owed.contains (d, p) && !s.ziu.owed.contains (e, q)
      && !s.ziu.railOut.contains (d, p) && !s.ziu.railOut.contains (e, q)
  | none => false

/-- One bit of PORT_EN written (R38). -/
def State.portEnBit (s : State) (d p : Nat) (v : Bool) : State :=
  if (ziuPartner d p).isNone then s
  else
    let old := s.flag (R.ZIU_CTRL.PORT_EN p) d
    let t := s.wr (R.ZIU_CTRL.PORT_EN p) (if v then 1 else 0) d
    if !v then
      let t := { t with ziu := { t.ziu with owed := t.ziu.owed.filter fun e => e ≠ (d, p) } }
      if old ∧ s.rd R.ZIU_PORT_STATE.STATE d p ≠ 2 then t.linkDown d p else t
    else if !old ∧ t.rd R.ZIU_PORT_STATE.STATE d p = 2 ∧ t.mayTrain d p then t.setLink d p 3
    else t

/-- PORT_EN_WRITE (R38): a write of ZIU_CTRL. -/
def execPortEnWrite (d : Die) (v : Word) (s : State) : Out :=
  if !s.managed then .next s else
  .next ((List.range 3).foldl (fun s p => s.portEnBit d p (v.toNat.testBit p)) s)

/-- ZIURA_TRAINING_END (R38): training of a link ends with the port up, or with training failed. A port whose training fails before the
package is ready owes no clear and set of PORT_EN: BRING_UP trains it again (R571). -/
def execZiuraTrainingEnd (d : Die) (p : Fin 3) (ok : Bool) (s : State) : Out :=
  if s.rd R.ZIU_PORT_STATE.STATE d p = 3 then
    if ok then
      let t := s.setLink d p 1
      .next { t with ziu := { t.ziu with due := true } }
    else
      let t := s.linkDown d p
      if s.rd R.MGT_STATUS.STAGE = 7 then .next t
      else .next { t with ziu := { t.ziu with owed := t.ziu.owed.filter fun e => e ≠ (d.val, p.val) ∧ ziuFarEnd d p ≠ some e } }
  else .next s

/-- ZIU_VC1_RESERVE_WRITE (R40, R41): ignored while any glade holds an image; clamped to 0x80; absent ports read 0. -/
def execZiuVc1ReserveWrite (d : Die) (v : Word) (s : State) : Out :=
  if !s.managed then .next s else
  if s.gladeHeld then .next s
  else
    .next ((List.range 3).foldl (fun s p =>
      if (ziuPartner d p).isSome then
        s.wr (R.ZIU_VC1_RESERVE.RES p) (min 0x80 (v.toNat / 2 ^ (8 * p) % 256)) d
      else s) s)

end Machine
end Sys2Proof
end

