-- ==== Sys2Proof/Machine/Queues.lean ====
section
/-!
DEFINITION. Queues (10.1 to 10.3): homes and mirrors, doorbells, acceptance, release, finishing and commit, and what a
change of home does (10.5).
-/
namespace Sys2Proof

/-- Where image core `n` of a loaded image lies: the index of its context, and its place in the shape. A group whose
standby has been released lies at its standby (R490). -/
def Loaded.coreAt (l : Loaded) (n : Nat) : Option (Nat × Nat) :=
  l.placed.zipIdx.findSome? fun x =>
    if x.1.standby = l.gone.contains x.1.group then (indexIn x.1.shape.cores n).map fun j => (x.2, j) else none

/-- The image core of a site's port, with the port's number on its site (0 to 7 ingress, 8 to 15 egress, 16 and 17
signal inputs, 18 and 19 signal outputs). -/
def ImgPort.core? : ImgPort → Option (Nat × Nat)
  | .ingress c p => some (c, p)
  | .egress c p => some (c, 8 + p)
  | .sigIn c e => some (c, 16 + e)
  | .sigOut c e => some (c, 18 + e)
  | _ => none

/-- The dies of the sequence of R308, from die `h`. -/
def mirrorSeq (h : Nat) : List Nat := [1, 2, 3, 4, 5, 6, 7].map fun k => h ^^^ k

/-- The emitted position: the first effect sent and not acknowledged, or the first not sent (R326). -/
def QueueSt.emitPos (q : QueueSt) : Nat × Nat :=
  match q.sent ++ q.again with
  | p :: _ => p
  | [] => (q.nextItem, q.nextIndex)

/-- The effect that is sent next, and the queue with it sent: one in doubt goes first (R326, R333). -/
def QueueSt.nextEffect (q : QueueSt) : (Nat × Nat) × QueueSt :=
  match q.again with
  | p :: rest => (p, { q with again := rest, sent := q.sent ++ [p] })
  | [] => ((q.nextItem, q.nextIndex), { q with nextIndex := q.nextIndex + 1, sent := q.sent ++ [(q.nextItem, q.nextIndex)] })

/-- The queue's first unsent effect moved past items without effects left to send. -/
def QueueSt.skip (q : QueueSt) (n : Nat) : QueueSt :=
  match n with
  | 0 => q
  | n + 1 =>
    if q.nextItem ≤ q.committed then
      let k := match q.items.find q.nextItem with | some r => r.effects.length | none => 0
      if k ≤ q.nextIndex then { q with nextItem := q.nextItem + 1, nextIndex := 0 }.skip n else q
    else q

/-- Records of items whose effects are all acknowledged are freed (R326). -/
def QueueSt.free (q : QueueSt) : QueueSt :=
  let q := q.skip (q.committed + 1 - q.nextItem)
  { q with items := q.items.keep fun s r => !(r.committed && s < q.emitPos.1) }

/-- CONSUMED as the agent next uses it (R310). -/
def QueueSt.readConsumed (v : QueueSt) (raw : Nat) : QueueSt :=
  { v with consumed := max v.consumed (min (raw % 2 ^ 48) v.committed) }

/-- The completion record of an item (Table 10.2). -/
def QueueSt.completion (v : QueueSt) (n : Nat) (r : AccRec) (f : Finish) : List Nat :=
  [n % 2 ^ 48 + f.status % 16 * 2 ^ 48, r.epoch % 2 ^ 32 + v.loc % 2 ^ 16 * 2 ^ 32,
   if f.status = 3 then f.errSeq % 2 ^ 48 else 0, if f.status = 0 ∨ f.status = 4 then f.result % 2 ^ 64 else 0]

/-- Whether a mover has a store of an item still to make or to see performed (R324). -/
def Mover.storesFor (m : Mover) (it : ItemRef) : Bool :=
  let own (r : MovReq) : Bool := r.item = some it && r.write.isSome
  m.queue.any (fun d => d.item = some it && decide ((Desc.ofWords d.words).op ≠ 2 ∧ (Desc.ofWords d.words).op ≠ 3))
    || m.active.any (fun d => (d.item = some it && !d.moved && decide ((Desc.ofWords d.words).op ≠ 2 ∧ (Desc.ofWords d.words).op ≠ 3))
        || d.todo.any own)
    || (m.slots ++ m.parked ++ m.fabric ++ m.host ++ m.late).any own

namespace Machine

/-- STATE of an owner's clearing (Table 9.1). -/
def State.tenState (s : State) (o : Nat) : Nat := s.rd R.SCH_TEN_CFG.STATE 0 o

/-- Whether an owner's clearing holds an image. -/
def State.holdsImage (s : State) (o : Nat) : Bool := s.flag R.SCH_TEN_CFG.IMAGE 0 o

/-- The image a clearing holds. -/
def State.loaded (s : State) (o : Nat) : Option Loaded := s.ten.images.find o

/-- The record of a mapped queue. -/
def State.queue (s : State) (q : Nat) : Option QueueSt := s.que.queues.find q

/-- A mapped queue changed. -/
def State.setQueue (s : State) (q : Nat) (v : QueueSt) : State := { s with que := { s.que with queues := s.que.queues.put q v } }

/-- The queue of an owner's local index. -/
def State.localQueue (s : State) (o loc : Nat) : Option (Nat × QueueSt) :=
  s.que.queues.find? fun e => e.2.owner = o && e.2.loc = loc && !e.2.leaving

/-! ### Homes and mirrors (R307, R308) -/

/-- Whether a stack is in service. -/
def State.stackIn (s : State) (k : Nat) : Bool := s.flag R.HBM_STATE.IN_SERVICE k

/-- Whether die `h` can hold the home of a queue of parity `b`. -/
def State.canHome (s : State) (h b : Nat) : Bool := s.dieUp h && s.stackIn (2 * h + b)

/-- The home die R307 gives a queue, if any can hold it. -/
def State.homeFor (s : State) (q : Nat) : Option Nat :=
  (q / 2 ^ 17 :: mirrorSeq (q / 2 ^ 17)).find? fun h => s.canHome h (q % 2)

/-- The mirror die R308 gives a home die, if one qualifies. -/
def State.mirrorFor (s : State) (h : Nat) : Option Nat :=
  (mirrorSeq h).find? fun m => s.dieUp m && s.stackIn (2 * m) && s.stackIn (2 * m + 1)

/-- The mirror die in force for a home die. -/
def State.mirrorOf (s : State) (h : Nat) : Option Nat :=
  if s.que.noMirror.contains h then none else some (s.rd R.QUE_JNL.MIRROR 0 h)

/-- Gives a home die a mirror, or none. -/
def State.setMirror (s : State) (h : Nat) (m : Option Nat) : State :=
  match m with
  | some m => { s.wr R.QUE_JNL.MIRROR m 0 h with que := { s.que with noMirror := s.que.noMirror.filter fun x => x ≠ h } }
  | none => { s.wr R.QUE_JNL.MIRROR 0 0 h with
      que := { s.que with noMirror := h :: s.que.noMirror.filter fun x => x ≠ h } }

/-- Live acceptance records on a home die, of one parity or both. -/
def State.records (s : State) (h : Nat) (b : Option Nat) : Nat :=
  s.que.queues.foldl (fun n e =>
    if e.2.home = h ∧ (b.isNone ∨ b = some (e.1 % 2)) then n + e.2.items.length + e.2.writing.length else n) 0

/-- Effect entries of the queues of a home die, of one parity. The log of a stack takes 524,288 of its homes' and 1,048,576 mirrored
ones (R340): 64 MiB and 128 MiB. -/
def State.effectEntries (s : State) (h b : Nat) : Nat :=
  s.que.queues.foldl (fun n e =>
    if e.2.home = h ∧ e.1 % 2 = b then e.2.items.foldl (fun n r => n + r.2.effects.length) n else n) 0

/-- Whether the effect log of a queue, or the log of its mirror, takes no further entry (R340). -/
def State.effectsFull (s : State) (h b : Nat) : Bool :=
  decide (524288 ≤ s.effectEntries h b) || match s.mirrorOf h with
    | some m => decide (1048576 ≤ ((List.range 8).filter fun d => s.mirrorOf d = some m).foldl
        (fun n d => n + s.effectEntries d b) 0)
    | none => false

/-- Whether the home journal and the mirror space of a queue have no room for a record (R313, R340): 1,048,576 records
fit the 128 MiB of a stack's home journal, 2,097,152 its mirror space. -/
def State.journalFull (s : State) (h b : Nat) : Bool :=
  decide (1048576 ≤ s.records h (some b)) || match s.mirrorOf h with
    | some m => decide (2097152 ≤ ((List.range 8).filter fun d => s.mirrorOf d = some m).foldl
        (fun n d => n + s.records d (some b)) 0)
    | none => false

/-! ### Conditions of acceptance (10.2) -/

/-- The binding of a queue in the image its clearing holds. -/
def State.binding (s : State) (v : QueueSt) : Option ImgQueue :=
  (s.loaded v.owner).bind fun l => l.img.queues.find? fun b => b.loc = v.loc

/-- Whether the load in progress stops acceptance for an owner: it is in DRAIN or past it (R249). -/
def State.draining (s : State) (o : Nat) : Bool :=
  match s.ten.load with
  | some l => l.owner = o && l.replace && decide (5 ≤ s.rd R.GLB_IMG_STATUS.PHASE)
  | none => false

/-- HOLD of a queue for its next item (Table 10.6): 7 when its journal is lost, otherwise the lowest cause. -/
def State.hold (s : State) (q : Nat) (v : QueueSt) : Nat :=
  if v.lost then 7
  else if v.leaving ∨ s.tenState v.owner ≠ 1 ∨ !s.holdsImage v.owner ∨ ((s.binding v).bind ImgQueue.entry).isNone then 1
  else if s.draining v.owner then 2
  else if v.consumed + 2 ^ v.cqLog < v.accepted + v.writing.length + 1 then 3
  else if s.journalFull v.home (q % 2) then 4
  else if s.flag R.QUE_JNL.REBUILD 0 v.home ∨ (s.mirrorOf v.home).isNone then 5
  else if 2 ^ 48 - 1 ≤ v.accepted + v.writing.length then 6
  else 0

/-- Records being written become void (R315): a ring slot is read again, a message or radio item waits at its sender. -/
def State.voidWriting (s : State) (q : Nat) : State :=
  match s.queue q with
  | none => s
  | some v =>
    let srcs := v.writing.filterMap fun w => match w.2 with | .message a b c => some (a, b, c) | _ => none
    let back := v.writing.filterMap fun w => match w.2, w.1.deadline, w.1.cell with
      | .radio, some d, some c =>
        some { owner := v.owner, cell := c, loc := v.loc, words := w.1.words.drop 1, deadline := d, ruAbsent := w.1.ruAbsent : RadItem }
      | _, _, _ => none
    let s := s.setQueue q { v with writing := [], reading := none }
    let s := { s with rad := { s.rad with waiting := back ++ s.rad.waiting } }
    let upd (m : Msg) : Msg := if srcs.contains (m.src, m.item, m.index) then { m with phase := .waiting } else m
    { s with que := { s.que with msgs := s.que.msgs.map upd } }

/-- Voids the writes of every queue of an owner. -/
def State.voidOwner (s : State) (o : Nat) : State :=
  (s.que.queues.filter fun e => e.2.owner = o).foldl (fun s e => s.voidWriting e.1) s

/-! ### Doorbells and acceptance -/

/-- The owner bound to a virtual function (R292). -/
def State.vfOwner (s : State) (n : Nat) : Option Nat :=
  (List.range 1024).find? fun o => s.tenState o ≠ 0 && s.rd R.SCH_TEN_CFG.REACH 0 o = 1 && s.rd R.SCH_TEN_CFG.VF 0 o = n

/-- A doorbell of an owner's layout (R312): it raises DB of the queue of its local index, or counts a QUEUE violation. -/
def State.ring (s : State) (o : Nat) (v : Word) : State :=
  if s.tenState o ≠ 1 then s
  else match s.localQueue o (v.toNat % 65536) with
    | none => s.violate R.SCH_TEN_VIOL.QUEUE o
    | some (q, x) => s.setQueue q { x with db := max x.db (v.toNat / 65536), stuck := false }

/-- DOORBELL (R312, R293, R296, R502, R570): raises DB, or counts a QUEUE violation; ignored while the clearing is Resetting or
Removing. A VF must be enabled; until the package is ready a bound VF is as an unbound one. Any doorbell of a queue lets the agent
read again the slot it stopped at (R314). -/
def execDoorbell (src : Reach) (v : Word) (s : State) : Out :=
  match src with
  | .vf n =>
    if !(s.answers && s.vfOn n) then .next s
    else match (if s.managed then s.vfOwner n else none) with
      | none => .next (s.bump R.SCH_VIOL_UNBOUND.COUNT)
      | some o => .next (s.ring o v)
  | .node n o =>
    if s.tenState o ≠ 0 ∧ s.rd R.SCH_TEN_CFG.REACH 0 o = 2 ∧ s.rd R.SCH_TEN_CFG.NODE 0 o = n then .next (s.ring o v)
    else .next (s.violate R.SCH_TEN_VIOL.QUEUE o)

/-- ACCEPT_ATTEMPT (R313): the agent reads the control block (its word as it came from host memory or the fabric, or
from clearing HBM), and where every condition holds begins to read the slot of the next item. Host memory is read only while the link is
open (R501, R521). -/
def execAcceptAttempt (q : Nat) (ctrlWord : Nat) (s : State) : Out :=
  match s.queue q with
  | none => .next s
  | some v =>
    if v.lost ∨ (v.space = 4 ∧ !s.hostOpen) then .next s
    else
      let (s, raw) := if v.space = 2 then
          let (s, bs) := s.clearingRead v.owner v.ctrl 8
          (s, leNat bs)
        else if s.spaceClosed v.owner v.space v.ctrl 8 then (s.violate R.SCH_TEN_VIOL.MEM v.owner, 0)
        else (s, ctrlWord)
      let v := v.readConsumed raw
      let s := s.setQueue q v
      let n := v.accepted + v.writing.length + 1
      if !v.msgFed ∧ v.reading.isNone ∧ !v.stuck ∧ n ≤ v.db ∧ s.hold q v = 0 then
        .next (s.setQueue q { v with reading := some n })
      else .next s

/-- A new acceptance record of an owner's item (R315). -/
def State.newRecord (s : State) (o : Nat) (words : List Nat) : AccRec :=
  { epoch := s.rd R.QUE_EPOCH.EPOCH, owner := o, sec := s.sec, ns := s.ns, words := words
    digest := ((s.loaded o).map fun l => l.img.digest).getD 0 }

/-- SUBMISSION_ENTRY_READ (R314, R315): the slot's eight words come, from host memory or the fabric as given, or from
clearing HBM. Poisoned words are not accepted; words of another sequence stop the agent until the next doorbell;
otherwise both journal copies of the item's record are being written. Host memory is read only while the link is open (R501, R521). -/
def execSubmissionEntryRead (q : Nat) (words : Vector Word 8) (poison : Bool) (s : State) : Out :=
  match s.queue q with
  | none => .next s
  | some v =>
    match v.reading with
    | none => .next s
    | some n =>
      if v.space = 4 ∧ !s.hostOpen then .next s else
      let (s, ws) := if v.space = 2 then
          let (s, bs) := s.clearingRead v.owner (v.sqBase + n % 2 ^ v.sqLog * 64) 64
          (s, bytesWords 8 bs)
        else if s.spaceClosed v.owner v.space (v.sqBase + n % 2 ^ v.sqLog * 64) 64 then (s.violate R.SCH_TEN_VIOL.MEM v.owner, List.replicate 8 0)
        else (s, words.toList.map BitVec.toNat)
      let stop := { v with reading := none, stuck := true }
      if poison ∧ v.space = 4 then
        let s := (s.setQueue q stop).bump R.QUE_POISON.COUNT
        .next (s.detect { cls := .poison, sub := 1, die := v.home, unit := 7, owner := some v.owner, item := some ⟨q, n⟩ }).1
      else if s.hold q v ≠ 0 then .next (s.setQueue q { v with reading := none })
      else if ws.headD 0 % 2 ^ 48 ≠ n then .next (s.setQueue q stop)
      else .next (s.setQueue q { v with reading := none, writing := v.writing ++ [(s.newRecord v.owner ws, .ring)] })

/-- The contexts of an owner by index that hold the ingress port a queue's items enter by. -/
def State.entryOf (s : State) (v : QueueSt) : Option ((Nat × Nat) × Nat × Nat) :=
  match (s.binding v).bind ImgQueue.entry, s.loaded v.owner with
  | some p, some l => p.core?.bind fun cp => (l.coreAt cp.1).map fun x => ((v.owner, x.1), x.2, cp.2)
  | _, _ => none

/-- A context that waits for what has now come (R355): it becomes ready, or stops being blocked. -/
def State.wake (s : State) (k : Nat × Nat) (cls : Nat) : State :=
  match s.ctx k with
  | none => s
  | some c =>
    if c.waitClass ≠ cls then s
    else if c.rests then (if c.wasBlocked ∧ !c.ready then s.makeReady k else s)
    else if c.blocked.isSome then (s.setCtx k { c with blocked := none, stall := none }).decide_ c.cluster
    else s

/-- Whether the stacks that hold the two copies of a queue's journal can acknowledge a write (R315). -/
def State.copiesUp (s : State) (q : Nat) (v : QueueSt) : Bool :=
  s.canHome v.home (q % 2) && (s.mirrorOf v.home).any fun m => s.canHome m (q % 2)

/-- ACCEPTANCE_RECORD_ACK (R315): both copies of the oldest record being written are acknowledged; the item is accepted
from this moment, unless a hold has come in the meantime, which makes the writes void. -/
def execAcceptanceRecordAck (q : Nat) (s : State) : Out :=
  match s.queue q with
  | none => .next s
  | some v =>
    match v.writing with
    | [] => .next s
    | (r, origin) :: rest =>
      if (s.setQueue q { v with writing := rest }).hold q { v with writing := [] } ≠ 0 then .next (s.voidWriting q)
      else if !s.copiesUp q v then .next s
      else
        let n := v.accepted + 1
        let s := s.setQueue q { v with accepted := n, writing := rest, items := v.items.put n r }
        let s := match origin with
          | .message src item index =>
            let is (m : Msg) : Bool := m.src = src && m.item = item && m.index = index
            let gen := ((s.que.msgs.find? is).map Msg.gen).getD 0
            let ms := s.que.msgs.map fun (m : Msg) => if is m then { m with phase := .acked } else m
            let ds := s.que.dedup.put (v.journal, src) (gen, item, index)
            { s with que := { s.que with dedup := ds, msgs := ms } }
          | _ => s
        .next (match s.entryOf v with
          | some (k, _, _) => s.wake k 2
          | none => s)

/-! ### Release, finish, commit (10.3) -/

/-- Whether a context runs: it is resident, and no armed barrier holds it (R271). -/
def State.runs (s : State) (k : Nat × Nat) : Bool :=
  match s.ctx k with
  | some c => c.res = .resident && !c.standby && !c.held
  | none => false

/-- ITEM_RELEASE (R319): the next accepted item enters by the ingress port the image binds, as two flits of its seven
words, while the context with that port is resident. A released item is always of the image it was accepted under. -/
def execItemRelease (q : Nat) (s : State) : Out :=
  match s.queue q with
  | none => .next s
  | some v =>
    if v.lost then .next s
    else
      match ((List.range (v.accepted - v.committed)).map fun k => v.committed + 1 + k).find? fun n =>
          (v.items.find n).any fun r => !r.released && r.finish.isNone with
      | none => .next s
      | some n =>
        match v.items.find n, s.entryOf v with
        | some r, some (k, j, p) =>
          match (s.ctx k).bind fun c => (c.cores[j]?).bind (s.coreSite c) with
          | none => .next s
          | some site =>
            match s.port (sitePort site p) with
            | none => .next s
            | some w =>
              let same := (s.loaded v.owner).any fun l => l.img.digest = r.digest
              if s.runs k && same && decide (w.fifo.length + 2 ≤ 2 ^ w.depthLog2) then
                let t : Tag := { owner := v.owner, seq := n % 2 ^ 20 }
                let a := r.words.drop 1
                let s := s.setPort (sitePort site p) { w with fifo := w.fifo ++
                  [{ tag := t, words := a.take 4 }, { tag := { t with eoi := true }, words := a.drop 4 ++ [0] }] }
                let s := (s.setInWait (sitePort site p) false).unblockPort (sitePort site p)
                .next (s.setQueue q { v with items := v.items.put n { r with released := true } })
              else .next s
        | _, _ => .next s

/-- The exit flits of item `n` at the head of an egress port of a site, taken into what the item's exits have shown, with the status
each has for its owner (R169). -/
def State.takeExits (s : State) (owner site n i : Nat) (fifo : List Entry) (x : ExitSt) : State × List Entry × ExitSt :=
  match fifo with
  | [] => (s, [], x)
  | e :: r =>
    if e.tag.seq = n % 2 ^ 20 ∧ !x.done.contains i then
      let (s, st, q) := s.servedStatus (s.isGlade owner) owner site e.tag.status
      let x := { x with status := x.status.join st, err := minErr x.err (minErr e.err q) }
      if e.tag.eoi then (s, r, { x with done := x.done ++ [i], result := if i = 0 then e.words.headD 0 else x.result })
      else State.takeExits s owner site n i r x
    else (s, e :: r, x)

/-- How an item whose exits are complete finishes (R320, R388): Expired when its deadline has passed; otherwise by its
status, RU absent for an uplink radio item that missed data or its RU. -/
def State.finishOf (s : State) (q n : Nat) (r : AccRec) : Finish :=
  let late := r.deadline.any s.passed
  let failed := s.failed.find ⟨q, n⟩
  let st := if failed.isSome then TagStatus.failed else r.exits.status
  let code := if late then 1 else if st = .good ∧ r.ruAbsent then 4 else st.completion
  let err := if code = 3 then (minErr r.exits.err failed).getD 0 else 0
  { status := code, result := if code = 0 ∨ code = 4 then r.exits.result else 0, errSeq := err }

/-- ITEM_FINISH (R320): the exit flits that have come are taken from the egress ports the image binds; with EOI on each
of them the item is finished. -/
def execItemFinish (q n : Nat) (s : State) : Out :=
  match s.queue q with
  | none => .next s
  | some v =>
    match v.items.find n, s.binding v, s.loaded v.owner with
    | some r, some b, some l =>
      if v.lost ∨ !r.released ∨ r.finish.isSome then .next s
      else
        let (s, x) := b.exits.zipIdx.foldl (fun (st : State × ExitSt) e =>
          let (s, x) := st
          let port := e.1.core?.bind fun cp => (l.coreAt cp.1).bind fun y =>
            (s.ctx (v.owner, y.1)).bind fun c => (c.cores[y.2]?).bind fun rc =>
              (s.coreSite c rc).map fun site => (site, sitePort site cp.2)
          match port with
          | none => st
          | some (site, p) => match s.port p with
            | none => st
            | some w =>
              let (s, f, x) := s.takeExits v.owner site n e.2 w.fifo x
              (s.setPort p { w with fifo := f }, x)) (s, r.exits)
        let r := { r with exits := x }
        let all := (List.range b.exits.length).all fun i => x.done.contains i
        let r := if all then { r with finish := some (s.finishOf q n r) } else r
        .next (s.setQueue q { v with items := v.items.put n r })
    | _, _, _ => .next s

/-- The item after COMMITTED, once finished, is committed (R321): its completion record is written, its effects become
eligible or, where it did not end Done or RU absent, are discarded (Table 10.3). -/
def State.commitNext (s : State) (q : Nat) : State :=
  match s.queue q with
  | none => s
  | some v =>
    match v.items.find (v.committed + 1) with
    | none => s
    | some r =>
      match r.finish with
      | none => s
      | some f =>
        let n := v.committed + 1
        let s := s.spaceWrite v.owner v.space (v.cqBase + n % 2 ^ v.cqLog * 32) (wordBytes (v.completion n r f))
        let keep := f.status = 0 ∨ f.status = 4
        let r := { r with committed := true, effects := if keep then r.effects else [] }
        let v := { v with committed := n, items := v.items.put n r }
        let s := { s with failed := s.failed.del ⟨q, n⟩ }
        let s := if f.status = 4 then match r.cell with
          | some c => s.bump R.RAD_CELL_CNT.ABSENT_ITEMS 0 c
          | none => s else s
        (s.setQueue q v.free).vfCommit v.owner v.loc

/-- Whether an item's stores are not all performed. -/
def State.storesOpen (s : State) (it : ItemRef) : Bool :=
  s.mem.movers.any (fun e => e.2.storesFor it) || s.sched.ctxs.any fun e => e.2.saved.any fun v => v.mover.any fun m => m.storesFor it

/-- COMMIT (R321): not before an item that ends Done or RU absent has stored its bytes (R324), and not past step 3 of a reset (R298). -/
def execCommit (q : Nat) (s : State) : Out :=
  match s.queue q with
  | some v =>
    let stores := (v.items.find (v.committed + 1)).any fun r => r.finish.any fun f =>
      (f.status = 0 || f.status = 4) && s.storesOpen ⟨q, v.committed + 1⟩
    let reset := (s.ten.resets.find v.owner).any fun r => r.step = .drain
    if v.lost ∨ stores ∨ reset then .next s else .next (s.commitNext q)
  | none => .next s

/-- Every accepted item of an owner without a completion record completes Cancelled, in acceptance order per queue (R298
step 5); how many did. -/
def State.cancelItems (s : State) (o : Nat) : State × Nat :=
  (s.que.queues.filter fun e => e.2.owner = o && !e.2.lost).foldl (fun (st : State × Nat) e =>
    let q := e.1
    let v := e.2
    let ns := (List.range (v.accepted - v.committed)).map fun k => v.committed + 1 + k
    ns.foldl (fun (st : State × Nat) n =>
      let (s, cnt) := st
      match (s.queue q).bind fun v => (v.items.find n).map fun r => (v, r) with
      | none => st
      | some (v, r) =>
        let s := s.setQueue q { v with items := v.items.put n { r with finish := some { status := 2 }, effects := [] } }
        (s.commitNext q, cnt + 1)) st) (s, 0)

/-- Whether an owner has an accepted item without a completion record. -/
def State.incomplete (s : State) (o : Nat) : Bool :=
  s.que.queues.any fun e => e.2.owner = o && !e.2.lost && e.2.committed < e.2.accepted

/-! ### Effects acknowledged, homes moved -/

/-- A mapped queue is unbound (R328): its binding and every die's dedup entry for it go. -/
def State.unmapQueue (s : State) (q : Nat) : State :=
  { s with
    que := { s.que with
      queues := s.que.queues.del q
      dedup := s.que.dedup.keep fun k _ => k.2 ≠ q
      msgs := s.que.msgs.filter fun m => m.src ≠ q
      sweep := s.que.sweep.filter fun x => x ≠ q }
    failed := s.failed.keep fun it _ => it.queue ≠ q }

/-- A queue whose clearing has been removed is unbound, and goes back to the queues that no clearing holds (R298, R306). -/
def State.endLeaving (s : State) (q : Nat) : State := (s.unmapQueue q).wr R.SCH_POOL.FREE_QUEUES (s.rd R.SCH_POOL.FREE_QUEUES + 1)

/-- A queue changed; one whose clearing has been removed goes with the last of its effects (R298). -/
def State.keepQueue (s : State) (q : Nat) (v : QueueSt) : State :=
  if v.leaving ∧ v.items.isEmpty then s.endLeaving q else s.setQueue q v

/-- An effect of a queue is acknowledged (R326): the emitted position moves past it. -/
def State.ackEffect (s : State) (q item index : Nat) : State :=
  match s.queue q with
  | none => s
  | some v =>
    s.keepQueue q { v with sent := v.sent.filter fun p => p ≠ (item, index), again := v.again.filter fun p => p ≠ (item, index) }.free

/-- A frame that is never sent (R333): counted, and its emission goes on. -/
def State.loseFrame (s : State) (q item index : Nat) : State := (s.bump R.QUE_FRAMES_LOST.COUNT).ackEffect q item index

/-- In-doubt effects of a queue after a change of home or a warm reset (R333): messages and atomics are sent again, before any other;
frames are not, and count in QUE_FRAMES_LOST. -/
def State.resendEffects (s : State) (q : Nat) : State :=
  match s.queue q with
  | none => s
  | some v =>
    let frame (p : Nat × Nat) : Bool := match (v.items.find p.1).bind fun r => r.effects[p.2]? with
      | some (.frame _) => true
      | _ => false
    let frames := (v.sent.filter frame).length
    let v := { v with sent := [], again := (v.sent.filter fun p => !frame p) ++ v.again }
    let s := { s with que := { s.que with msgs := s.que.msgs.filter fun m => m.src ≠ q || m.phase = MsgPhase.writing } }
    (s.keepQueue q v.free).bump R.QUE_FRAMES_LOST.COUNT 0 0 frames

/-- The accepted, uncommitted items of a queue start over (10.5, R476, R477): outputs, effects and marks are discarded.
`counts` says that this ends a run under R330; an item whose third run a fault has ended is Failed by record `rec`, and stays so. -/
def State.rerunQueue (s : State) (q : Nat) (counts : Bool) (rec : Nat) : State :=
  match s.queue q with
  | none => s
  | some v =>
    let upd (r : AccRec) : AccRec :=
      if r.committed ∨ (!r.released ∧ r.finish.isSome) then r
      else
        let ran := r.released && counts
        let r' := { r with released := false, exits := {}, finish := none, effects := [], runs := r.runs + (if ran then 1 else 0) }
        if ran ∧ 3 ≤ r.runs + 1 then { r' with finish := some { status := 3, errSeq := rec } } else r'
    let limit := (v.items.filter fun e => !e.2.committed && e.2.released && counts && decide (3 ≤ e.2.runs + 1)).map (·.1)
    let s := { s with failed := s.failed.keep fun it _ => it.queue ≠ q }
    let s := s.setQueue q { v with items := v.items.mapVal fun _ r => upd r }
    limit.foldl (fun s n => (s.detect { cls := .rerunLimit, die := v.home, unit := 7, owner := some v.owner,
                                        item := some ⟨q, n⟩, causeSeq := rec }).1) s

/-- MIRROR_REBUILD_END (R331): the rebuild of a home die's mirror ends and acceptance resumes. -/
def execMirrorRebuildEnd (d : Die) (s : State) : Out :=
  if s.flag R.QUE_JNL.REBUILD 0 d then .next (s.wr R.QUE_JNL.REBUILD 0 0 d) else .next s

/-- SWEEP (R332): DB becomes ACCEPTED + 2^SQ_LOG2, so that every filled slot is read. -/
def execSweep (q : Nat) (s : State) : Out :=
  match s.queue q with
  | none => .next s
  | some v =>
    if v.msgFed ∨ !s.que.sweep.contains q then .next s
    else
      let s := { s with que := { s.que with sweep := s.que.sweep.filter fun x => x ≠ q } }
      .next (s.setQueue q { v with db := v.accepted + 2 ^ v.sqLog, stuck := false })

/-! ### Map commands (10.7) -/

/-- Local indices an owner has mapped. -/
def State.mappedOf (s : State) (o : Nat) : Nat := (s.que.queues.filter fun e => e.2.owner = o && !e.2.leaving).length

/-- The first cause of Table 10.7 that refuses a command, or 0. -/
def State.mapCause (s : State) (op o loc : Nat) : Nat :=
  let a0 := s.rd R.QUE_ARG.ARG 0 0
  let a (k : Nat) : Nat := s.rd R.QUE_ARG.ARG 0 k
  let f (lo w : Nat) : Nat := bitsAt a0 lo w
  let isMap := op = 1
  let known := op = 1 ∨ op = 2
  let badArg : Bool := isMap && (
    (f 20 3 ≠ 2 && f 20 3 ≠ 3 && f 20 3 ≠ 4)
    || (if f 23 1 = 1 then decide (f 24 5 ≠ 0) else decide (f 24 5 < 4 ∨ 16 < f 24 5))
    || decide (f 29 5 < 4 ∨ 16 < f 29 5)
    || decide (0x400 ≤ f 34 11 ∧ f 34 11 ≤ 0x7FE)
    || decide (2 ^ 45 ≤ a0)
    || decide (2 ^ 56 ≤ a 1 ∨ 2 ^ 56 ≤ a 2 ∨ 2 ^ 56 ≤ a 3)
    || decide (a 1 % 4096 ≠ 0 ∨ a 2 % 64 ≠ 0 ∨ a 3 % 64 ≠ 0))
  let mine := s.localQueue o loc
  if 1023 < o then 0x01
  else if known ∧ s.tenState o = 0 then 0x03
  else if !known ∨ badArg then 0x04
  else if s.tenState o = 2 ∨ s.tenState o = 3 then 0x05
  else if s.ten.load.any fun l => l.owner = o then 0x06
  else if isMap = mine.isSome then 0x10
  else if isMap ∧ ((s.queue (f 0 20)).isSome ∨ (s.homeFor (f 0 20)).isNone) then 0x11
  else if isMap ∧ s.rd R.SCH_TEN_BUDGET.QUEUES 0 o ≤ s.mappedOf o then 0x12
  else match mine with
    | some (_, v) =>
      if !isMap ∧ !v.lost ∧ (v.committed < v.accepted ∨ !v.items.isEmpty) then 0x13 else 0
    | none => 0

/-- The end of a QUE_CMD command (R339, 10.7): its status, and the command event. -/
def State.endQueCmd (s : State) (op o cause : Nat) : State :=
  let s := (s.wr R.QUE_CMD_STATUS.OP op).wr R.QUE_CMD_STATUS.OWNER o
  let s := (s.wr R.QUE_CMD_STATUS.STATUS (if cause = 0 then 0 else 5)).wr R.QUE_CMD_STATUS.CAUSE cause
  (s.tick R.QUE_CMD_STATUS.CMD_SEQ).eventCmdDone

/-- QUEUE_MAP (R307, R325, R338, R339): QUE_CMD written with MAP. -/
def execQueueMap (owner : Fin 2048) (loc : Fin 65536) (s : State) : Out :=
  if !s.managed then .next s else
  let cause := s.mapCause 1 owner loc
  if cause ≠ 0 then .next (s.endQueCmd 1 owner cause)
  else
    let a0 := s.rd R.QUE_ARG.ARG 0 0
    let q := bitsAt a0 0 20
    let home := (s.homeFor q).getD 0
    let v : QueueSt :=
      { owner := owner, loc := loc, space := bitsAt a0 20 3, msgFed := bitsAt a0 23 1 = 1, sqLog := bitsAt a0 24 5
        cqLog := bitsAt a0 29 5, msgFrom := bitsAt a0 34 11, sqBase := s.rd R.QUE_ARG.ARG 0 1
        cqBase := s.rd R.QUE_ARG.ARG 0 2, ctrl := s.rd R.QUE_ARG.ARG 0 3, home := home, journal := home }
    let s := s.setQueue q v
    let s := { s with que := { s.que with mapGen := s.que.mapGen.put q ((s.que.mapGen.findD q 0 + 1) % 65536) } }
    .next ((s.tick R.QUE_GEN.GEN).endQueCmd 1 owner 0)

/-- QUEUE_UNMAP (R328, R339): QUE_CMD written with UNMAP. -/
def execQueueUnmap (owner : Fin 2048) (loc : Fin 65536) (s : State) : Out :=
  if !s.managed then .next s else
  let cause := s.mapCause 2 owner loc
  match s.localQueue owner loc with
  | some (q, _) =>
    if cause ≠ 0 then .next (s.endQueCmd 2 owner cause)
    else .next ((((s.voidWriting q).unmapQueue q).tick R.QUE_GEN.GEN).endQueCmd 2 owner 0)
  | none => .next (s.endQueCmd 2 owner cause)

end Machine
end Sys2Proof
end

