-- ==== Sys2Proof/Machine/Port.lean ====
section
/-!
DEFINITION. Egress ports (12.8): queued frames, gates and shapers.
-/
namespace Sys2Proof

/-- One bit, and one byte, of the CRC-32 of IEEE 802.3, least significant bit first. -/
def crcBit (c : BitVec 32) : BitVec 32 := if c.getLsbD 0 then (c >>> 1) ^^^ 0xEDB88320 else c >>> 1
def crcByte (c : BitVec 32) (b : Byte) : BitVec 32 :=
  crcBit (crcBit (crcBit (crcBit (crcBit (crcBit (crcBit (crcBit (c ^^^ b.setWidth 32))))))))

/-- The FCS the port appends to a frame (R380, R417): the CRC-32 of IEEE 802.3, lowest byte first. -/
def frameCheck (bs : List Byte) : List Byte :=
  let c := ~~~(bs.foldl crcByte 0xFFFFFFFF)
  (List.range 4).map fun k => (c >>> (8 * k)).setWidth 8

/-- Wire bytes of a frame: FCS, preamble, start delimiter and gap included (12.2). -/
def TxFrame.wire (f : TxFrame) : Nat := f.bytes.length + 24

/-- The gates of the entry in force at an offset in the cycle: the last entry runs to the cycle's end (R399). -/
def gateWalk : List (Nat × Nat) → Nat → Nat
  | [], _ => 0xFF
  | [(g, _)], _ => g
  | (g, i) :: r, off => if off < i then g else gateWalk r (off - i)

/-- What is left of the entry in force at an offset in a cycle of `c` ns. -/
def gateLeft : List (Nat × Nat) → Nat → Nat → Nat
  | [], off, c => c - off
  | [_], off, c => c - off
  | (_, i) :: r, off, c => if off < i then min (i - off) (c - off) else gateLeft r (off - i) (c - i)

/-- Whether gate `k` stays open for `need` fiftieths of a nanosecond from an offset in the cycle. -/
def gateOpen (l : List (Nat × Nat)) (c k : Nat) : Nat → Nat → Nat → Bool
  | 0, _, _ => false
  | fuel + 1, off, need =>
    if !(gateWalk l off).testBit k then false
    else
      let left := gateLeft l off c
      need ≤ 50 * left || gateOpen l c k fuel ((off + left) % c) (need - 50 * left)

namespace Machine

/-- Whether a quad is in Ethernet mode. -/
def State.ethernet (s : State) (q : Nat) : Bool := s.rd R.RAD_Q_MODE.MODE q = 1

/-- Whether a quad's link is up. -/
def State.quadUp (s : State) (q : Nat) : Bool := s.rd R.RAD_Q_LINK.STATE q = 1

/-- A port's queued egress state. -/
def State.txPort (s : State) (q : Nat) : TxPort := s.rad.ports.findD q {}

/-- The same changed. -/
def State.setTxPort (s : State) (q : Nat) (p : TxPort) : State := { s with rad := { s.rad with ports := s.rad.ports.put q p } }

/-- Wire bytes queued at a port. -/
def State.queuedBytes (s : State) (q : Nat) : Nat :=
  (s.txPort q).queues.foldl (fun n e => n + e.2.foldl (fun n f => n + f.wire) 0) 0

/-- Whether a port of 8 MiB has no room for a frame (R398). -/
def State.portFull (s : State) (q : Nat) (f : TxFrame) : Bool := decide (8388608 < s.queuedBytes q + f.wire)

/-- The gate list of a port as R399 uses it. -/
def State.gateList (s : State) (q : Nat) : List (Nat × Nat) :=
  (List.range (min 256 (s.rd R.RAD_Q_GATE_CTRL.LEN q))).map fun i => (s.rd R.RAD_Q_GCL.GATES q i, s.rd R.RAD_Q_GCL.INTERVAL_NS q i)

/-- CYCLE_NS, which is never below the least value a write leaves. -/
def State.gateCycle (s : State) (q : Nat) : Nat := max 1000 (s.rd R.RAD_Q_GATE_CYCLE.CYCLE_NS q)

/-- BASE of a port's gate list in TAI nanoseconds. -/
def State.gateBase (s : State) (q : Nat) : Nat :=
  s.complete (s.rd R.RAD_Q_GATE_BASE.SEC_LO q) (s.rd R.RAD_Q_GATE_BASE.NS q)

/-- The offset in the gate cycle, while the list is in effect. -/
def State.gateOffset (s : State) (q : Nat) : Option Nat :=
  match (s.txPort q).gateFrom with
  | some t => if s.flag R.RAD_Q_GATE_CTRL.EN q ∧ t ≤ s.tai then
      some (((s.tai : Int) - s.gateBase q) % (s.gateCycle q : Int)).toNat else none
  | none => none

/-- The gates open now: all of them while no list is in effect. -/
def State.gatesNow (s : State) (q : Nat) : Nat :=
  match s.gateOffset q with
  | some off => gateWalk (s.gateList q) off
  | none => 0xFF

/-- The gate list takes effect at BASE, or at the first cycle start after a write that finds BASE in the past (R399). -/
def State.startGates (s : State) (q : Nat) : State :=
  let base := s.gateBase q
  let c := s.gateCycle q
  let from_ := if s.tai < base then base else base + ((s.tai - base) / c + 1) * c
  s.setTxPort q { s.txPort q with gateFrom := some from_ }

/-- One class's credit after `d` elapsed units (R400). -/
def State.creditStep (s : State) (q k : Nat) (p : TxPort) (d : Nat) : Int :=
  let idle : Int := s.rd R.RAD_Q_CBS.IDLE_MBPS q k
  let old := p.credit.findD k 0
  let waits := !(p.queues.findD k []).isEmpty
  let sends := p.sending.any fun x => x.1 = k
  let v := if sends then old + 5 * (idle - 400000) * d
    else if waits ∧ p.gates.testBit k then old + 5 * idle * d
    else if !waits ∧ 0 < old then 0
    else old
  max (-4618 * (400000 - idle)) (min v (s.rd R.RAD_Q_CBS.HI_BYTES q k * 200000))

/-- The credits of a port brought up to now, under the gates in force since they were last, and the gates of now. -/
def State.creditTo (s : State) (q : Nat) : State :=
  let p := s.txPort q
  let credit := (List.range 7).foldl (fun t k =>
    if s.flag R.RAD_Q_CBS.EN q k then t.put k (s.creditStep q k p (s.elapsed - p.creditAt)) else t) p.credit
  s.setTxPort q { p with credit := credit, creditAt := s.elapsed, gates := s.gatesNow q }

/-- A frame queued on a class (R398). -/
def State.enqueue (s : State) (q cls : Nat) (f : TxFrame) : State :=
  let s := s.creditTo q
  let p := s.txPort q
  s.setTxPort q { p with queues := p.queues.put cls (p.queues.findD cls [] ++ [f]) }

end Machine
end Sys2Proof
end

