-- ==== Sys2Proof/Machine/Flash.lean ====
section
/-!
DEFINITION. The persistent state in flash (R528, R529): its two copies, and what a copy holds of the running state.
-/
namespace Sys2Proof

/-- The valid copy with the highest generation, and whether it is copy A (R529). -/
def Flash.newest (f : Flash) : Option (Persist × Bool) :=
  match f.a, f.b with
  | some a, some b => if b.gen ≤ a.gen then some (a, true) else some (b, false)
  | some a, none => some (a, true)
  | none, some b => some (b, false)
  | none, none => none

/-- The copy a change goes to: the one that is not the newest. -/
def Flash.put (f : Flash) (p : Option Persist) : Flash :=
  match f.newest with
  | some (_, true) => { f with b := p }
  | _ => { f with a := p }

namespace Machine

/-- The persistent state as it runs, under the next generation. -/
def State.persistNow (s : State) : Persist :=
  { gen := ((s.mgt.flash.newest).map fun x => x.1.gen + 1).getD 1
    epoch := s.rd R.QUE_EPOCH.EPOCH
    fwFloor := s.rd R.SEC_STATE.FW_FLOOR
    slots := s.mgt.slots.filter fun e => e.1 ≠ 0
    anchors := s.mgt.anchors
    retired := (s.err.sites.filter fun e => e.2.state = .retired).map fun e => e.1 }

/-- Mewait writes the persistent state into the other copy (R529). -/
def State.writePersist (s : State) : State :=
  { s with mgt := { s.mgt with flash := s.mgt.flash.put (some s.persistNow) } }

end Machine
end Sys2Proof
end

