-- ==== Sys2Proof/Machine/Health.lean ====
section
/-!
DEFINITION. The health of core sites (15.8): probation and retirement.
-/
namespace Sys2Proof.Machine

/-- A core is contained at level 1 as wrong (R278, R495), and retired, which Mewait records in flash. -/
def State.retire (s : State) (site sub : Nat) : State :=
  let s := (s.setSite site { s.siteRec site with state := .retired }).writePersist
  (s.detect { s.atSite .coreWrong sub site 0 none with }).1

/-- A cause of R493 meets a site: it enters probation, or is retired where it is on probation already (R493, R495).
The record of the entry has class SUSPECT and ACTION 0x0B (log entry 41). -/
def State.probation (s : State) (site : Nat) : State :=
  let r := s.siteRec site
  match r.state with
  | .good | .suspect =>
    let s := s.setSite site { r with state := .probation, probStart := s.elapsed, samples := 0 }
    let s := (s.detect { s.atSite .suspect 0 site 0 none with action := some 0x0B, recUnit := none }).1
    s.refreshHealth
  | .probation => s.retire site 2
  | _ => s

/-- A site compared a sample without a mismatch (R494). -/
def State.countSample (s : State) (site : Nat) : State :=
  let r := s.siteRec site
  if r.state = .probation then s.setSite site { r with samples := r.samples + 1 } else s

end Sys2Proof.Machine
end

