-- ==== Sys2Proof/Machine/Determinism.lean ====
section
/-!
DEFINITION. Barriers (8.4) and sentinel re-runs (8.5).
-/
namespace Sys2Proof

/-- The granule partials of an engine-pass (Table 3.3): position by position, column by column, item by item (R274, R275, R91). -/
def EnginePass.partials (v : EnginePass) : List GranPartial :=
  v.ops.flatMap fun o => (v.bank.zipIdx.filter fun b => v.colMask.testBit b.2).flatMap fun b =>
    let L := v.format.laneL v.digit b.1.digit (o.2.1.getD 0) (((v.exps[b.2]?).getD none).getD 0)
    let w := (v.scales[b.2]?).getD (127, 127)
    o.1.zipIdx.map fun it =>
      let a := (o.2.2[it.2]?).getD (127, 127)
      let lane := (it.1.zipIdx.filter fun x => v.rowMask.testBit x.2).foldl (fun ln x =>
        laneProduct v.format L x.2 v.digit b.1.digit ln x.1 ((b.1.els[x.2]?).getD 0)) ({} : Lane)
      lane.granPartial v.format L (a.1, w.1) (a.2, w.2)

namespace Machine

/-! ### Barriers -/

/-- Contexts of an owner, by index. -/
def State.ctxIxs (s : State) (o : Nat) : List Nat := s.sched.ctxs.filterMap fun e => if e.1.1 = o then some e.1.2 else none

/-- The barrier's time T (R270): the upper 32 bits of its seconds are the counter's. -/
def State.barTime (s : State) : Nat :=
  (s.sec / 2 ^ 32 * 2 ^ 32 + s.rd R.GLB_DET_BAR_TIME.SEC_LO) * 10 ^ 9 + s.rd R.GLB_DET_BAR_TIME.NS

/-- The cause that refuses an ARM, or 0 (R270). -/
def State.armCause (s : State) : Nat :=
  let o := s.rd R.GLB_DET_BAR_TARGET.OWNER
  if 1023 < o ∨ s.tenState o ≠ 1 ∨ s.flag R.SCH_TEN_CFG.CLASS 0 o ∨ !s.holdsImage o then 1
  else if s.incomplete o then 2
  else if s.barTime * nsUnit < s.count + 20000 * nsUnit then 3
  else if 999999999 < s.rd R.GLB_DET_BAR_TIME.NS then 4
  else if s.det.bar.isSome then 5
  else 0

/-- The status of a barrier (Table 8.5). -/
def State.barStatus (s : State) (st o cause late : Nat) : State :=
  let s := (s.wr R.GLB_DET_BAR_STATUS.STATE st).wr R.GLB_DET_BAR_STATUS.OWNER o
  (s.wr R.GLB_DET_BAR_STATUS.CAUSE cause).wr R.GLB_DET_BAR_STATUS.LATE_NS (min late 0xFFFFFFFF)

/-- ARM (R270, R271). -/
def execArm (s : State) : Out :=
  if !s.managed then .next s else
  let o := s.rd R.GLB_DET_BAR_TARGET.OWNER
  let c := s.armCause
  if c = 5 then .next (s.set1 R.GLB_DET_BAR_STATUS.ARM_REFUSED)
  else if c ≠ 0 then .next (s.barStatus 3 o c (s.rd R.GLB_DET_BAR_STATUS.LATE_NS))
  else
    let ix := s.ctxIxs o
    let s := { s with det := { s.det with bar := some { owner := o, t := s.barTime, left := ix } } }
    .next ((ix.foldl (fun s i => s.holdCtx (o, i)) s).barStatus 1 o 0 0)

/-- The contexts that the barrier still holds are released, and it ends in a state (R273). -/
def State.endBarrier (s : State) (st late : Nat) : State :=
  match s.det.bar with
  | none => s
  | some b =>
    let s := (s.ctxIxs b.owner).foldl (fun s i => s.unholdCtx (b.owner, i)) s
    { s with det := { s.det with bar := none } }.barStatus st b.owner 0 late

/-- An image load into a clearing, or its reset or removal, releases its barrier (Table 8.2). -/
def State.dropBarrier (s : State) (o : Nat) : State :=
  match s.det.bar with
  | some b => if b.owner = o then s.endBarrier 4 0 else s
  | none => s

/-- CANCEL (R273). -/
def execCancel (s : State) : Out :=
  if !s.managed then .next s else
  .next (s.endBarrier 4 0)

/-- The counter has reached T: the units of each resident context of the clearing start, and the barrier is released when no context
is left, late by the larger of a step's overshoot and the delay of the last context (R272, R273). -/
def State.reachBarrier (s : State) (b : BarSt) : State :=
  let here := b.left.filter fun i => (s.ctx (b.owner, i)).any fun c => c.res = .resident
  let s := here.foldl (fun s i => s.unholdCtx (b.owner, i)) s
  let left := b.left.filter fun i => !here.contains i
  let s : State := { s with det := { s.det with bar := some { b with reached := true, left := left } } }
  if left = [] then s.endBarrier (if b.late = 0 && !b.stepped then 2 else 5) b.late else s

/-- BARRIER_RELEASE (R272): once the counter has reached T. -/
def execBarrierRelease (s : State) : Out :=
  match s.det.bar with
  | none => .next s
  | some b => if s.tai < b.t ∨ b.reached then .next s else .next (s.reachBarrier b)

/-- A context has become resident while a barrier of its clearing is armed: it is held before T, and from T on released late (R272,
R345, Table 8.2). -/
def State.barrierResident (s : State) (k : Nat × Nat) : State :=
  match s.det.bar with
  | none => s
  | some b =>
    if b.owner ≠ k.1 then s
    else if !b.reached ∧ s.count ≤ b.t * nsUnit then s.holdCtx k
    else
      let b := { b with left := b.left.filter fun i => i ≠ k.2, late := max b.late (s.tai - b.t) }
      let s := { s with det := { s.det with bar := some b } }
      if b.left = [] then s.endBarrier 5 b.late else s

/-- The counter steps forward past T, in its own units: resident contexts are released at the step, and its overshoot, in whole
nanoseconds, counts as lateness (Table 8.2). -/
def State.barrierStep (s : State) (before : Nat) : State :=
  match s.det.bar with
  | some b =>
    if before < b.t * nsUnit ∧ b.t * nsUnit < s.count ∧ !b.reached then
      s.reachBarrier { b with late := max b.late ((s.count - b.t * nsUnit) / nsUnit), stepped := true }
    else s
  | none => s

/-! ### Sentinels -/

/-- The sites that a placed image is on. -/
def State.placedSites (s : State) (l : Loaded) : List Nat :=
  l.placed.flatMap fun p => (coresAt p.shape (p.row, p.col)).filterMap fun rc => s.logicalSite (p.cluster * 8 + rc.1) rc.2

/-- Whether a clearing holds a site, or it is lent: some context lies on it, or the load that runs has placed one there (R248). -/
def State.siteHeld (s : State) (site : Nat) : Bool :=
  (s.sched.ctxs.any fun e => (s.ctxSites e.2).contains site) || (s.ten.load.bind LoadSt.result).any fun l => (s.placedSites l).contains site

/-- The active sites of the package in scan order: by die, cluster, logical row and logical column (R346). -/
def State.scanSites (s : State) : List Nat :=
  (List.range 128).flatMap fun row => (List.range 8).filterMap fun j =>
    (s.logicalSite row j).bind fun k => if s.isOut (.row row) then none else some k

/-- Sites that check or arbitrate now. -/
def State.checking (s : State) : List Nat :=
  s.det.samples.flatMap fun e => e.2.flatMap fun (v : Sample) => v.checker.toList ++ v.arbiter.toList

/-- Whether a site may serve as checker or arbiter (R275, R494). -/
def State.mayCheck (s : State) (site : Nat) : Bool :=
  !s.siteHeld site && (s.siteRec site).state ≠ .probation && !s.checking.contains site

/-- The first checker away from the sites given: off their dies where that is preferred, or else off their quadrants. -/
def State.findChecker (s : State) (away : List Nat) (preferDie : Bool) : Option Nat :=
  let ok := s.scanSites.filter s.mayCheck
  let offDie := ok.find? fun k => away.all fun a => Unit.dieOf a ≠ Unit.dieOf k
  let offQuad := ok.find? fun k => away.all fun a => Unit.quadrantOf a ≠ Unit.quadrantOf k
  if preferDie ∧ offDie.isSome then offDie else offQuad

/-- The samples of a die. -/
def State.samplesOf (s : State) (d : Nat) : List Sample := s.det.samples.findD d []

/-- The samples of a die changed. -/
def State.setSamples (s : State) (d : Nat) (l : List Sample) : State :=
  { s with det := { s.det with samples := s.det.samples.put d l } }

/-- log2 of the passes from which a site's engine samples one (R274, R494), where it samples. -/
def State.sampleRate (s : State) (site : Nat) : Option Nat :=
  if (s.siteRec site).state = .probation then some 8
  else if s.rd R.GLB_SENT_CTRL.RATE_LOG2 = 0 then none else some (s.rd R.GLB_SENT_CTRL.RATE_LOG2)

/-- Whether engine-pass number `n` of a site is selected: one in 2^r, at the phase the free-running generator gives (R274). -/
def State.selected (s : State) (site n : Nat) : Bool :=
  match s.sampleRate site with
  | some r => n % 2 ^ r = Config.samplePhase site (n / 2 ^ r) % 2 ^ r
  | none => false

/-- What an engine works on in a pass of its field, from the pass's first positions. -/
def State.enginePass (s : State) (f : FieldSt) (b c : Nat) (h : PassHead) : EnginePass :=
  let site := f.engine b c
  let cols := (h.bank.drop (64 * c)).take 64
  { format := f.format, digit := h.digit, rowMask := s.rd R.TNS_ROWMASK.ROWS site h.record, colMask := s.rd R.TNS_COLMASK.COLS site h.record
    bank := cols.map fun k => { k with els := (k.els.drop (64 * b)).take 64 }
    exps := cols.map fun k => (k.exps[b]?).getD none
    scales := cols.map fun k => (k.scales[b]?).getD (127, 127)
    ops := h.pos.map fun x => (x.1.map fun els => (els.drop (64 * b)).take 64, (x.2.1[b]?).getD none, (x.2.2.drop (b * x.1.length)).take x.1.length) }

/-- The step K of a core's clock, 2.1 GHz x K / 16 (R559, R560): a core that a glade holds has the glade's. A core lent by its glade is
not one of these until it returns. -/
def State.coreK (s : State) (site : Nat) : Nat :=
  let q := site / 36
  s.rd (if s.isGlade (s.rd R.STR_SITE.OWNER site) then R.DIE_THERM.GLADE_K else R.DIE_THERM.K) (q / 4) (q % 4)

/-- The up to eight physical neighbours of a site. DESIGN CHOICE (log entry 139): those next to it in the grid of its cluster (R12). -/
def neighbours (site : Nat) : List Nat :=
  let r := Unit.rowOf site
  let c := Unit.colOf site
  (List.range 8).flatMap fun i => (List.range 9).filterMap fun j =>
    if i ≤ r + 1 ∧ r ≤ i + 1 ∧ j ≤ c + 1 ∧ c ≤ j + 1 ∧ !(i = r && j = c) then some (Unit.siteAt (Unit.clusterOf site) i j) else none

/-- What the device records of a core that has run an engine-pass since a time (R277): its core clock in MHz, and how many of its
neighbours' tensor engines ran since then, for a field or for a sentinel re-run. -/
def State.coreRun (s : State) (site since : Nat) (e : CoreEnv) : CoreRun :=
  { env := e, mhz := 2100 * s.coreK site / 16
    neigh := ((neighbours site).filter fun k => s.checking.contains k || (s.det.ran.find k).any fun t => decide (since ≤ t)).length }

/-- The oldest pass of a field whose first 64 positions, or all, have been released, which lies in the field still, and which the
engine selects and has not captured. -/
def State.sampled (s : State) (f : FieldSt) (site : Nat) : Option (Nat × PassHead) :=
  f.heads.find? fun e =>
    let open_ := f.passOpen && e.1 = f.passes
    (open_ || f.inArray.any fun p => p.no = e.1) && (!open_ || decide (64 ≤ e.2.pos.length)) && !e.2.captured.contains site
      && s.selected site (s.det.passes.findD site 0 - 1 - (f.passes - e.1))

/-- SENTINEL_SAMPLE (R274): a selected engine-pass is captured into the reserve of its die, which holds 64 records of
64 KiB, or skipped where it is full or the capture path is busy. Glade passes are sampled only while GLADES is 1. The partials are
those the engine formed: what its operands give, or, where the hardware erred, what the command says it formed (log entry 101). -/
def execSentinelSample (site : Site) (upset : Option (List GranPartial)) (env : CoreEnv) (busy : Bool) (s : State) : Out :=
  match s.fieldOf site with
  | none => .next s
  | some (a, f, b, c) =>
    let d := Unit.dieOf site
    match s.sampled f site with
    | none => .next s
    | some (n, h) =>
      if f.glade ∧ !s.flag R.GLB_SENT_CTRL.GLADES then .next s
      else
        let s := s.setField a { f with heads := f.heads.put n { h with captured := site.val :: h.captured } }
        if busy ∨ 64 ≤ (s.samplesOf d).length then .next (s.bump R.GLB_SENT_SKIPPED.COUNT)
        else
          let v := s.enginePass f b c h
          .next (s.setSamples d (s.samplesOf d ++ [{ site := site, owner := f.owner, item := h.item, pass := v,
                                                     partials := upset.getD v.partials, env := s.coreRun site h.since env,
                                                     since := s.elapsed }]))

/-- SENTINEL_CHECK_START (R275, R277): record `i` of a die starts on a free checker, or, in arbitration, on a free
arbiter. -/
def execSentinelCheckStart (d : Die) (i : Nat) (s : State) : Out :=
  let l := s.samplesOf d
  match l[i]? with
  | none => .next s
  | some v =>
    match v.mismatch with
    | none =>
      if v.checker.isSome then .next s
      else .next (s.setSamples d (l.set i { v with checker := s.findChecker [v.site] (s.flag R.GLB_SENT_CTRL.PREFER_DIE), runSince := s.elapsed }))
    | some _ =>
      if v.arbiter.isSome then .next s
      else .next (s.setSamples d (l.set i { v with arbiter := s.findChecker (v.site :: v.checker.toList) true, runSince := s.elapsed }))

/-- Fills GLB_SENT_ENV_u. -/
def State.setEnv (s : State) (u site : Nat) (e : CoreRun) : State :=
  let s := ((s.wr R.GLB_SENT_ENV.DIE (Unit.dieOf site) 0 u).wr R.GLB_SENT_ENV.CLUSTER (Unit.clusterOf site % 2) 0 u).wr
    R.GLB_SENT_ENV.SITE (Unit.siteIx site) 0 u
  let s := ((s.wr R.GLB_SENT_ENV.TEMP e.env.temp 0 u).wr R.GLB_SENT_ENV.MV e.env.mv 0 u).wr R.GLB_SENT_ENV.MHZ e.mhz 0 u
  (s.wr R.GLB_SENT_ENV.NEIGH e.neigh 0 u).wr R.GLB_SENT_ENV.WRONG 0 0 u

/-- Marks a site suspect while arbitration runs, with its record (R277). A mismatch retires a site on probation
(R495). -/
def State.markSuspect (s : State) (site : Nat) (v : Sample) : State × Nat :=
  let (s, q) := s.detect { s.atSite .suspect 0 site 1 v.item with owner := some v.owner, action := some 0x0A, recUnit := none }
  let r := s.siteRec site
  (match r.state with
    | .good => s.setSite site { r with state := .suspect }
    | .probation => s.retire site 2
    | _ => s, q)

/-- SENTINEL_CHECK_DONE (R275, R277): the checker recomputes the partials of the record, which are compared bit by bit; `upset` is what
a checker got that erred (log entry 101). -/
def execSentinelCheckDone (d : Die) (i : Nat) (upset : Option (List GranPartial)) (env : CoreEnv) (s : State) : Out :=
  let l := s.samplesOf d
  match l[i]? with
  | none => .next s
  | some v =>
    let partials := upset.getD v.pass.partials
    match v.checker, v.mismatch with
    | some ck, none =>
      if partials = v.partials then
        .next ((s.setSamples d (l.eraseIdx i)).bump R.GLB_SENT_RUNS.COUNT |>.countSample v.site)
      else
        let run := s.coreRun ck v.runSince env
        let (s, q) := s.markSuspect v.site v
        let (s, _) := s.markSuspect ck v
        let s := s.bump R.GLB_SENT_MISMATCH.COUNT
        let show_ := !s.flag R.GLB_SENT_LAST.PENDING
        let s := if show_ then
            let s := ((s.wr R.GLB_SENT_LAST.SEQ q).wr R.GLB_SENT_LAST.VERDICT 0).set1 R.GLB_SENT_LAST.PENDING
            (s.setEnv 0 v.site v.env).setEnv 1 ck run
          else s
        let v := { v with mismatch := some partials, seq := q, shown := show_, since := s.elapsed, runSince := s.elapsed }
        let v := { v with arbiter := s.findChecker [v.site, ck] true }
        .next (s.setSamples d ((s.samplesOf d).set i v)).refreshHealth
    | _, _ => .next s

/-- A suspect site is cleared. -/
def State.clearSuspect (s : State) (site : Nat) : State :=
  let r := s.siteRec site
  if r.state = .suspect then s.setSite site { r with state := .good } else s

/-- The verdict of a sample (R278): 1 the original is wrong, 2 the checker, 3 undecided, which puts every core that took
part on probation (R493). -/
def State.verdict (s : State) (v : Sample) (code : Nat) : State :=
  let s := if v.shown then s.wr R.GLB_SENT_LAST.VERDICT code else s
  let ck := v.checker.getD 0
  let s := match code with
    | 1 =>
      let s := if v.shown then s.wr R.GLB_SENT_ENV.WRONG 1 0 0 else s
      (s.clearSuspect ck).retire v.site 1
    | 2 =>
      let s := if v.shown then s.wr R.GLB_SENT_ENV.WRONG 1 0 1 else s
      (s.clearSuspect v.site).retire ck 1
    | _ => (v.site :: ck :: v.arbiter.toList).foldl State.probation s
  s.refreshHealth

/-- SENTINEL_ARBITER_DONE (R278): the arbiter recomputes the partials as the checker did. -/
def execSentinelArbiterDone (d : Die) (i : Nat) (upset : Option (List GranPartial)) (env : CoreEnv) (s : State) : Out :=
  let l := s.samplesOf d
  match l[i]? with
  | none => .next s
  | some v =>
    let partials := upset.getD v.pass.partials
    match v.arbiter, v.mismatch with
    | some ar, some got =>
      let s := s.setSamples d (l.eraseIdx i)
      let s := if v.shown then s.setEnv 2 ar (s.coreRun ar v.runSince env) else s
      .next (s.verdict v (if partials = got then 1 else if partials = v.partials then 2 else 3))
    | _, _ => .next s

/-- SENTINEL_TIMEOUT (R276, R278): a record without a checker for 100 ms is dropped; one without an arbiter is
undecided. -/
def execSentinelTimeout (d : Die) (i : Nat) (s : State) : Out :=
  let l := s.samplesOf d
  match l[i]? with
  | none => .next s
  | some v =>
    if s.elapsed < v.since + millis 100 then .next s
    else match v.mismatch with
      | none => if v.checker.isSome then .next s
          else .next ((s.setSamples d (l.eraseIdx i)).bump R.GLB_SENT_SKIPPED.COUNT)
      | some _ => if v.arbiter.isSome then .next s else .next ((s.setSamples d (l.eraseIdx i)).verdict v 3)

/-- A clearing placed on a checker takes it at once: its record returns to the reserve (R276). -/
def State.yieldCheckers (s : State) (sites : List Nat) : State :=
  let upd (v : Sample) : Sample :=
    let v := if v.mismatch.isNone && v.checker.any (sites.contains ·)
      then { v with checker := none, since := s.elapsed } else v
    if v.arbiter.any (sites.contains ·) then { v with arbiter := none, since := s.elapsed } else v
  { s with det := { s.det with samples := s.det.samples.mapVal fun _ l => l.map upd } }

/-- PENDING_CLEAR (R279): GLB_SENT_LAST written with PENDING 1. A sample that is still in arbitration gives up the registers, which a
later mismatch may take. -/
def execPendingClear (s : State) : Out :=
  if !s.managed then .next s else
  let samples := s.det.samples.mapVal fun _ l => l.map fun v => { v with shown := false }
  .next ({ s with det := { s.det with samples := samples } }.wr R.GLB_SENT_LAST.PENDING 0)

end Machine
end Sys2Proof
end

