-- ==== Sys2Proof/Machine/Scheduling.lean ====
section
/-!
DEFINITION. Decisions, quanta, blocking and urgency (11.4), saves and restores (11.5), and the lending of glade shapes
(11.6).
-/
namespace Sys2Proof

/-- Whether two contexts have a core in common. -/
def Ctx.overlaps (a b : Ctx) : Bool := a.cluster = b.cluster && a.cores.any fun rc => b.cores.contains rc

/-- Pending entries of a context that is not on its cores (R358). -/
def Ctx.pendingSaved (c : Ctx) : Nat := c.saved.foldl (fun n v => n + ((v.mover.map fun m => m.late.length).getD 0)) 0

namespace Machine

/-! ### Blocks and readiness (R354, R355) -/

/-- Pending entries of a context (R358). -/
def State.pendingOf (s : State) (c : Ctx) : Nat :=
  if c.rests then c.pendingSaved else (s.ctxSites c).foldl (fun n a => n + (s.mover a).late.length) 0

/-- Whether a queue's entry port lies on a context and the queue agent holds an accepted item to release to it. -/
def State.hasItem (s : State) (k : Nat × Nat) : Bool :=
  s.que.queues.any fun e => e.2.owner = k.1 && ((s.entryOf e.2).any fun x => x.1 = k) &&
    e.2.items.any fun r => !r.2.released && r.2.finish.isNone

/-- Whether a queue's empty entry port lies on a context that no accepted item waits for. -/
def State.lacksItem (s : State) (k : Nat × Nat) (c : Ctx) : Bool :=
  !s.hasItem k && s.que.queues.any fun e => e.2.owner = k.1 && (s.entryOf e.2).any fun x =>
    x.1 = k && match (c.cores[x.2.1]?).bind (s.coreSite c) with
      | some site => ((s.port (sitePort site x.2.2)).map fun v => v.fifo.isEmpty).getD true
      | none => true

/-- Whether every context that a stream joins to this one is resident. -/
def State.partnersIn (s : State) (k : Nat × Nat) (c : Ctx) : Bool :=
  (s.streamsOf k c).all fun cn => match s.stream cn.1 cn.2 with
    | some r => [r.prodCtx, r.consCtx].all fun i => i = k.2 || match s.ctx (k.1, i) with
      | some d => decide (d.res = .resident)
      | none => true
    | none => true

/-- The class of a block (Table 11.2). -/
def State.blockClass (s : State) (k : Nat × Nat) (c : Ctx) : Nat :=
  let far (r : MovReq) : Bool := r.space = .host || match r.key with | .wor _ => true | .hbm _ => false
  if (s.ctxSites c).any fun a => !(s.mover a).fabric.isEmpty || !(s.mover a).host.isEmpty || (s.mover a).late.any far then 3
  else if s.lacksItem k c then 2
  else if !s.partnersIn k c then 1
  else 0

/-- Whether a context that has just been saved is ready (R355). -/
def State.readyAfter (s : State) (k : Nat × Nat) (c : Ctx) : Bool :=
  if !c.wasBlocked then true
  else match c.waitClass with
    | 3 => decide (s.pendingOf c = 0)
    | 2 => s.hasItem k
    | 1 => s.partnersIn k c
    | _ => true

/-! ### Decisions (R352 to R356) -/

/-- Whether the quantum of a residency runs. -/
def State.inQuantum (s : State) (c : Ctx) : Bool := c.quantumEnd.any fun q => s.elapsed < q

/-- Whether `x`, resident, is displaceable by `y` (R356). -/
def State.displaceable (s : State) (cluster : Nat) (kx : Nat × Nat) (x : Ctx) (ky : Nat × Nat) (y : Ctx) : Bool :=
  !(x.urgent.isSome && s.inQuantum x) &&
    (y.urgent.isSome || x.blocked.isSome || (!s.inQuantum x && decide (s.tag ky.1 cluster < s.tag kx.1 cluster)))

/-- The other contexts on the cores of a context. -/
def State.occupants (s : State) (k : Nat × Nat) (c : Ctx) : List ((Nat × Nat) × Ctx) :=
  (s.ctxsOf c.cluster).filter fun e => e.1 ≠ k && e.2.onCores && e.2.overlaps c

/-- The order of candidates (R356): urgent ones first, by the time they became so; then those on cores that are idle or hold blocked
contexts alone, idle cores before those that displace blocked contexts; then by tag, owner and shape index. -/
def State.candKey (s : State) (k : Nat × Nat) (c : Ctx) : List Int :=
  let urgent : List Int := match c.urgent with | some t => [0, t] | none => [1, 0]
  let xs := s.occupants k c
  let cores : List Int :=
    if xs.all fun e => e.2.res = .resident && e.2.blocked.isSome then
      let cls : Nat := if xs.isEmpty then 4 else xs.foldl (fun n e => max n e.2.waitClass) 0
      let dur : Nat := xs.foldl (fun n e => max n (s.elapsed - (e.2.blocked.getD s.elapsed))) 0
      [0, -(cls : Int), -(dur : Int)]
    else [1, 0, 0]
  urgent ++ cores ++ [(s.tag k.1 c.cluster : Int), k.1, k.2]

/-- A stop that a save follows begins; SCH_PREEMPTS counts saves of home contexts, and of blocked ones under R356 (`evict`). -/
def State.beginSave (s : State) (k : Nat × Nat) (evict : Bool := false) : State :=
  match s.ctx k with
  | none => s
  | some c =>
    let s := if c.kind = .home then s.bump R.SCH_PREEMPTS.PREEMPT else s
    let s := if evict ∧ c.blocked.isSome then s.bump R.SCH_PREEMPTS.EVICT else s
    s.stopCtx k c

/-- A context begins its restore; it is charged from when its cores are free (R349). -/
def State.beginRestore (s : State) (k : Nat × Nat) : State :=
  match s.ctx k with
  | none => s
  | some c => s.setCtx k { c with res := .restoring, since := s.elapsed, ready := true }

/-- One candidate of a decision. -/
def State.consider (s : State) (k : Nat × Nat) : State :=
  match s.ctx k with
  | none => s
  | some y =>
    let xs := s.occupants k y
    let whole := (s.ctxSites y).length = y.size
    if whole ∧ y.rests ∧ (xs.all fun e => e.2.res = .resident && s.displaceable y.cluster e.1 e.2 k y) then
      (xs.foldl (fun s e => s.beginSave e.1 true) s).beginRestore k
    else s

/-- A context whose quantum has expired is charged and no longer protected (R353); an urgent one stops being urgent. -/
def State.expire (s : State) (k : Nat × Nat) : State :=
  match s.ctx k with
  | none => s
  | some c =>
    if c.res = .resident ∧ (c.quantumEnd.any fun q => q ≤ s.elapsed) then
      let s := s.charge k true
      match s.ctx k with
      | some c => s.setCtx k { c with quantumEnd := none, urgent := none }
      | none => s
    else s

/-- A resident context without a quantum starts one (R353). -/
def State.newQuantum (s : State) (k : Nat × Nat) : State :=
  match s.ctx k with
  | none => s
  | some c =>
    if c.res = .resident ∧ c.kind ≠ .glade ∧ c.quantumEnd.isNone then
      s.setCtx k { c with quantumEnd := some (s.elapsed + micros (s.rd R.SCH_CTRL.QUANTUM_US)) }
    else s

/-- The borrow contexts placed on a glade shape that are ready and parked, best first (R356). -/
def State.borrowers (s : State) (host : Nat × Nat) : List ((Nat × Nat) × Ctx) :=
  let l := s.sched.ctxs.filter fun e => e.2.kind = .borrow && e.2.host = some host && e.2.rests && e.2.ready && !e.2.moving
    && decide (e.2.res = .parked)
  sortBy (fun a b => lexLt [s.tag a.1.1 a.2.cluster, a.1.1, a.1.2] [s.tag b.1.1 b.2.cluster, b.1.1, b.1.2]) l

/-- The decision for one lent glade shape: a better borrower displaces the one that runs (R356). -/
def State.considerLent (s : State) (host : Nat × Nat) : State :=
  match s.sched.lent.find host with
  | none => s
  | some l =>
    if l.phase ≠ .lent then s
    else match (s.borrowers host).find? fun e => match s.ctx l.borrower with
        | some x => decide (x.res = .resident) && s.displaceable x.cluster l.borrower x e.1 e.2
        | none => true with
      | some e =>
        let s := s.beginSave l.borrower true
        { s with sched := { s.sched with lent := s.sched.lent.put host { l with borrower := e.1 } } }.beginRestore e.1
      | none => s

/-- SCHEDULER_DECISION (R352, R356): the decision a cluster owes. -/
def execSchedulerDecision (cluster : Cluster) (s : State) : Out :=
  let c := cluster.val
  if !s.sched.due.contains c then .next s
  else
    let s := { s with sched := { s.sched with due := s.sched.due.filter fun x => x ≠ c } }
    let ks := (s.ctxsOf c).map fun e => e.1
    let s := ks.foldl State.expire s
    let cands := (s.ctxsOf c).filter fun e => e.2.kind = .home && e.2.res = .saved && e.2.ready && !e.2.standby && !e.2.moving
    let order := sortBy (fun a b => lexLt a.2 b.2) (cands.map fun e => (e.1, s.candKey e.1 e.2))
    let s := order.foldl (fun s e => s.consider e.1) s
    let hosts := s.sched.lent.filterMap fun e => if (s.ctx e.1).any fun g => g.cluster = c then some e.1 else none
    let s := hosts.foldl State.considerLent s
    .next (ks.foldl State.newQuantum s)

/-- QUANTUM_EXPIRY (R353). -/
def execQuantumExpiry (owner : Fin 2048) (shape : Fin 1024) (s : State) : Out :=
  let k := (owner.val, shape.val)
  match s.ctx k with
  | none => .next s
  | some c =>
    if c.res = .resident ∧ (c.quantumEnd.any fun q => q ≤ s.elapsed) then .next ((s.expire k).decide_ c.cluster)
    else .next s

/-- Whether a mover can do nothing for now (R354): no answer waits at it, no request may issue, no descriptor may start, move or
complete. -/
def State.moverStalled (s : State) (site : Nat) : Bool :=
  let m := s.mover site
  let room (r : MovReq) : Bool := match r.space with
    | .woruri => m.fabric.length < 512
    | .host => s.hostRequests r.write.isSome + r.hostParts ≤ (if r.write.isSome then 512 else 2048)
    | _ => true
  let issues := !m.halt && ((decide (m.slots.length < 48) && m.parked.any fun r => m.groupUse r.group < 12)
    || (decide (m.parked.length < 16) && (m.active.flatMap MovDesc.todo).any fun r => !m.blocked r && room r))
  let starts := !m.halt && match m.queue with
    | q :: _ => !s.mem.movStop.contains q.owner && !((Desc.ofWords q.words).fence && !m.active.isEmpty) && !m.indexBlocked (Desc.ofWords q.words)
    | [] => false
  m.resp.isEmpty && !issues && !starts && m.moving.isNone && !s.descDone site

/-- Whether the engines and the mover of a site are stalled (R354): a signal engine that runs waits, the vector engine has nothing in
flight and has written nothing in the last REF_CLK period, the mover can do nothing, and its field releases no position and moves
none. -/
def State.siteStalled (s : State) (site : Nat) : Bool :=
  let sig (e : Nat) : Bool := !s.flag R.SIG_STATE.RUNNING e || s.rd R.SIG_STATE.WAIT e ≠ 0
  let vec := !s.flag R.VEC_STATE.BUSY site && (s.eng.vecAt.find site).all fun t => decide (t + 32 < s.elapsed)
  sig (2 * site) && sig (2 * site + 1) && vec && s.moverStalled site && match s.fieldOf site with
    | some (_, f, _, _) => f.stopped || !f.outRoom || (if f.passOpen then !f.positionReady else f.inArray.isEmpty)
    | none => true

/-- The stalls of resident contexts as a REF_CLK period ends (R354): those that stall go on or begin, the others end. -/
def State.noteStalls (s : State) : State :=
  let note (c : Ctx) : Ctx :=
    if c.res = .resident ∧ c.kind ≠ .glade ∧ (s.ctxSites c).all s.siteStalled then { c with stall := some (c.stall.getD s.elapsed) }
    else { c with stall := none }
  { s with sched := { s.sched with ctxs := s.sched.ctxs.mapVal fun _ c => note c } }

/-- What an empty queue of commands leaves to happen: one REF_CLK period passes (R410, log entry 4). The counter stands while the package
is held in reset by POR_N or by a thermal trip (R412, R567). -/
def State.idle (s : State) : State :=
  match s.boot.phase with
  | .por | .tripped => { s with elapsed := s.elapsed + 32 }
  | _ => s.refPeriod.noteStalls

/-- CONTEXT_BLOCKED (R354): a resident context has stalled for BLOCK_US without a break, to the REF_CLK period (log entry 124). -/
def execContextBlocked (owner : Fin 2048) (shape : Fin 1024) (s : State) : Out :=
  let k := (owner.val, shape.val)
  match s.ctx k with
  | none => .next s
  | some c =>
    if c.res = .resident ∧ c.kind ≠ .glade ∧ c.blocked.isNone ∧ (s.ctxSites c).all s.siteStalled
        ∧ (c.stall.any fun t => t + micros (s.rd R.SCH_CTRL.BLOCK_US) ≤ s.elapsed) then
      .next ((s.setCtx k { c with blocked := some s.elapsed, waitClass := s.blockClass k c }).decide_ c.cluster)
    else .next s

/-- CONTEXT_URGENT (R357). -/
def execContextUrgent (owner : Fin 2048) (shape : Fin 1024) (s : State) : Out :=
  let k := (owner.val, shape.val)
  match s.ctx k with
  | none => .next s
  | some c =>
    let wait := millis (s.rd R.SCH_CTRL.URGENT_MS)
    let spent := match s.sched.urgentAt.find (k.1, c.cluster) with | some t => decide (s.elapsed < t + wait) | none => false
    if c.kind = .home ∧ c.rests ∧ c.ready ∧ c.urgent.isNone ∧ c.readySince + wait ≤ s.elapsed ∧ !spent then
      let s := s.setCtx k { c with urgent := some s.elapsed }
      let s := { s with sched := { s.sched with urgentAt := s.sched.urgentAt.put (k.1, c.cluster) s.elapsed } }
      .next ((s.bump R.SCH_URGENT.COUNT).decide_ c.cluster)
    else .next s

/-! ### Ends of saves and restores -/

/-- Whether a borrow context of a glade shape is on its cores. -/
def State.hostBusy (s : State) (host : Nat × Nat) : Bool :=
  s.sched.ctxs.any fun e => e.2.kind = .borrow && e.2.host = some host && e.2.onCores

/-- A glade takes back a shape that no borrow context is on: it is charged from now (R349). -/
def State.takeBack (s : State) (host : Nat × Nat) : State :=
  match s.sched.lent.find host, s.ctx host with
  | some l, some g =>
    if l.phase = .returning ∧ g.res = .saved ∧ !s.hostBusy host then
      s.setCtx host { g with res := .restoring, since := s.elapsed }
    else s
  | _, _ => s

/-- Restores that waited for cores to be left begin now. -/
def State.freed (s : State) (c : Ctx) : State :=
  (s.ctxsOf c.cluster).foldl (fun s e =>
    if e.2.res = .restoring ∧ e.2.overlaps c ∧ !(s.occupants e.1 e.2).any fun x => x.2.res = .saving then
      s.setCtx e.1 { e.2 with since := s.elapsed }
    else s) s

/-- The save of a stopped context: charged to its end, its state in its save place, its readiness judged (R349, R350,
R355, R362). -/
def State.finishSave (s : State) (k : Nat × Nat) : State :=
  let s := s.charge k true
  match s.ctx k with
  | none => s
  | some c =>
    let c := { c with wasBlocked := c.blocked.isSome }
    let s := s.saveCtx k c (if c.kind = .borrow then .parked else .saved)
    match s.ctx k with
    | none => s
    | some d =>
      let s := s.setCtx k { d with ready := s.readyAfter k d, readySince := s.elapsed }
      let s := s.refreshV d.cluster
      let s := match d.host with | some h => s.takeBack h | none => s
      (s.freed d).decide_ d.cluster

/-- SAVE_DONE (R349, R362, R363): the stop has ended and the state has been copied. -/
def execSaveDone (owner : Fin 2048) (shape : Fin 1024) (s : State) : Out :=
  let k := (owner.val, shape.val)
  match s.ctx k with
  | none => .next s
  | some c => if c.res = .saving ∧ s.stopEnded k c then .next (s.finishSave k) else .next s

/-- Whether a stream joins two contexts of an owner. -/
def State.partnered (s : State) (k : Nat × Nat) (c : Ctx) (i : Nat) : Bool :=
  (s.streamsOf k c).any fun cn => (s.stream cn.1 cn.2).any fun r => r.prodCtx = i || r.consCtx = i

/-- What a context that has become resident sets off: its barrier (Table 8.2), and the stream partners that wait for it and for no
other (R355). -/
def State.arrived (s : State) (k : Nat × Nat) : State :=
  let s := s.barrierResident k
  (s.sched.ctxs.filter fun e => e.1.1 = k.1 && e.1 ≠ k && s.partnered e.1 e.2 k.2 && s.partnersIn e.1 e.2).foldl (fun s e => s.wake e.1 1) s

/-- RESTORE_DONE (R353, R360): the context's state is back on its cores and it runs. A lend start that was recalled
stops here, and its return begins (R372); so does the save of a context that a recovery moves (R478). -/
def execRestoreDone (owner : Fin 2048) (shape : Fin 1024) (s : State) : Out :=
  let k := (owner.val, shape.val)
  match s.ctx k with
  | none => .next s
  | some c =>
    if c.res ≠ .restoring ∨ c.kind = .glade ∨ !(s.occupants k c).isEmpty ∨ (s.ctxSites c).length ≠ c.size then .next s
    else
      let s := (s.restoreCtx k c).newQuantum k
      let returning := c.host.any fun h => (s.sched.lent.find h).any fun l => l.phase = .returning
      let s := match c.host.bind fun h => (s.sched.lent.find h).map fun l => (h, l) with
        | some (h, l) => if returning then s else { s with sched := { s.sched with lent := s.sched.lent.put h { l with phase := .lent } } }
        | none => s
      let s := (s.arrived k).decide_ c.cluster
      .next (if returning || c.moving then s.beginSave k else s)

/-- The mover of core `j` of a context as it stands: on its site, or in its save place. -/
def State.ctxMover (s : State) (c : Ctx) (j : Nat) : Option Mover :=
  if c.rests then (c.saved[j]?).bind fun v => v.mover
  else if c.res = .resident then ((c.cores[j]?).bind (s.coreSite c)).map s.mover
  else none

/-- The same changed. -/
def State.setCtxMover (s : State) (k : Nat × Nat) (c : Ctx) (j : Nat) (m : Mover) : State :=
  if c.rests then match c.saved[j]? with
    | some v => s.setCtx k { c with saved := c.saved.set j { v with mover := some m } }
    | none => s
  else match (c.cores[j]?).bind (s.coreSite c) with
    | some site => s.setMover site m
    | none => s

/-- PENDING_ENTRY_END (R358 to R360): the answer to pending entry `id` of core `j` comes, with the line as HBM holds it or
as the fabric or the host gave it, or the fabric ends the request: all ones from a dead node (R453), zeros of other data
that failed. During a save or a restore it waits. When every
pending entry has ended, a context saved while it waited for them is ready (R355). -/
def execPendingEntryEnd (owner : Fin 2048) (shape : Fin 1024) (j id : Nat) (data : List Byte) (failed : Bool)
    (s : State) : Out :=
  let k := (owner.val, shape.val)
  match s.ctx k with
  | none => .next s
  | some c =>
    match s.ctxMover c j with
    | none => .next s
    | some m =>
      match m.late.find? fun r => r.id = id with
      | none => .next s
      | some r =>
        let bad := failed || match r.key with | .hbm n => s.hbmFails n | .wor _ => false
        let line := if bad then (if r.space = .woruri then List.replicate 256 0xFF else zeroLine)
          else match r.key with | .hbm n => s.seenLine n | .wor _ => data
        let s := s.setCtxMover k c j (m.takeAnswer { req := r, data := line, failed := bad, noted := r.space ≠ .hbm })
        match s.ctx k with
        | some c => .next (if s.pendingOf c = 0 then s.wake k 3 else s)
        | none => .next s

/-! ### Lending (11.6) -/

/-- What the RADIO section declares of a glade shape that the device may lend. -/
def State.lendDecl (s : State) (host : Nat × Nat) : Option (LendDecl × Nat) :=
  (s.loaded host.1).bind fun l => (l.placed[host.2]?).bind fun p => p.shape.lend.bind fun d =>
    let held := p.standby && !l.gone.contains p.group
    l.img.radio.map fun r => (if held then { d with uses := [] } else d, r.mu)

/-- Whether every engine of a site is stopped at WAITBEAT or stalled on an empty input, and its mover is idle (R365); a field has an
empty input where no position and no load has come to it. -/
def State.siteIdle (s : State) (site : Nat) : Bool :=
  let m := s.mover site
  let sig (e : Nat) : Bool := !s.flag R.SIG_STATE.RUNNING e || s.rd R.SIG_STATE.WAIT e = 3 || s.rd R.SIG_STATE.WAIT e = 1
  m.queue.isEmpty && m.active.isEmpty && m.slots.isEmpty && m.fabric.isEmpty && m.host.isEmpty && m.resp.isEmpty
    && sig (2 * site) && sig (2 * site + 1) && !s.flag R.VEC_STATE.BUSY site
    && match s.fieldOf site with
      | some (_, f, _, _) => !f.passOpen && f.inArray.isEmpty && (f.west.all fun e => e.2.isEmpty) && f.loads.all fun e => e.2.isEmpty
      | none => true

/-- LEND_START (R365, R366): the glade's state is saved, and the best borrow context begins its restore. -/
def execLendStart (glade : Fin 2048) (shape : Fin 1024) (s : State) : Out :=
  let h := (glade.val, shape.val)
  match s.ctx h, s.lendDecl h, s.borrowers h with
  | some g, some (d, mu), (k, _) :: _ =>
    let t : Int := s.tai
    let next := s.nextUse mu d.uses t
    if g.kind = .glade ∧ g.res = .resident ∧ (!g.held ∨ g.standby) ∧ s.flag R.SCH_LEND_CTRL.LEND_EN ∧ !s.inUse mu d.uses t
        ∧ (next.all fun u => t + 10000 ≤ u) ∧ (g.standby ∨ (s.ctxSites g).all s.siteIdle) then
      let s := s.charge h false
      match s.ctx h with
      | none => .next s
      | some g =>
        let run := ((s.ctxSites g).zipIdx.flatMap fun x => [0, 1].filterMap fun e =>
          if s.flag R.SIG_STATE.RUNNING (2 * x.1 + e) then some (2 * x.2 + e) else none)
        let s := s.saveCtx h { g with running := g.running ++ run } .saved
        let s := { s with sched := { s.sched with lent := s.sched.lent.put h { borrower := k, phase := .starting, use := next } } }
        .next (((s.bump R.SCH_LENDS.COUNT).beginRestore k).decide_ g.cluster)
    else .next s
  | _, _, _ => .next s

/-- A lent shape is recalled (R367). A borrower that runs is stopped; one that waits for its cores stays parked. -/
def State.recall (s : State) (host : Nat × Nat) : State :=
  match s.sched.lent.find host with
  | none => s
  | some l =>
    if l.phase = .returning then s.takeBack host
    else
      let s : State := { s with sched := { s.sched with
        lent := s.sched.lent.put host { l with phase := .returning, recallAt := s.elapsed } } }
      let others := s.sched.ctxs.any fun e => e.1 ≠ l.borrower && e.2.host = some host && e.2.onCores
      let s : State := match s.ctx l.borrower with
        | some (c : Ctx) =>
          if c.res = CtxRes.resident then s.beginSave l.borrower
          else if c.res = CtxRes.restoring ∧ others then s.setCtx l.borrower { c with res := .parked }
          else s
        | none => s
      s.takeBack host

/-- Whether the counter has reached the recall time of a lent shape, 6 µs before the next use interval (R367). -/
def State.recallDue (s : State) (l : LendSt) : Bool := l.use.any fun u => decide (u * nsUnit ≤ (s.count : Int) + 6000 * nsUnit)

/-- RECALL (R367): 6 µs before the next use interval. -/
def execRecall (glade : Fin 2048) (shape : Fin 1024) (s : State) : Out :=
  let h := (glade.val, shape.val)
  match s.sched.lent.find h with
  | some l => if s.recallDue l then .next (s.recall h) else .next s
  | none => .next s

/-- The lent shapes whose recall time a forward step has passed are recalled at once (Table 11.4). -/
def State.recallStep (s : State) : State := s.sched.lent.foldl (fun s e => if s.recallDue e.2 then s.recall e.1 else s) s

/-- A context stops without a save (R298 step 3, R364), and a lent shape it borrowed is recalled; the host requests its movers had
issued. -/
def State.stopOne (s : State) (k : Nat × Nat) : State × List (Nat × MovReq) :=
  match s.ctx k with
  | none => (s, [])
  | some c =>
    let sites := if c.onCores ∧ c.res ≠ .restoring then s.ctxSites c else []
    let hosts := sites.flatMap fun a => ((s.mover a).host ++ (s.mover a).late.filter fun r => r.space = .host).map fun r => (a, r)
    let s := if c.onCores ∧ c.kind ≠ .glade then s.charge k false else s
    let s := if sites.isEmpty then s else s.vacate k c
    let s := match s.ctx k with
      | some (d : Ctx) => s.setCtx k
          { d with res := if d.kind = CtxKind.borrow then CtxRes.parked else CtxRes.saved, ready := false, saved := [], field := none
                   running := [], blocked := none, stall := none, quantumEnd := none, urgent := none, held := false, moving := false }
      | none => s
    let s := match c.host with
      | some h => match s.sched.lent.find h with
        | some (l : LendSt) => if l.borrower = k then s.recall h else s.takeBack h
        | none => s
      | none => s
    ((s.refreshV c.cluster).decide_ c.cluster, hosts)

/-- The lent shapes of a glade are recalled (R371). -/
def State.recallOf (s : State) (o : Nat) : State := (s.sched.lent.filter fun e => e.1.1 = o).foldl (fun s e => s.recall e.1) s

/-- Whether a glade has a shape lent. -/
def State.lentOpen (s : State) (o : Nat) : Bool := s.sched.lent.any fun e => e.1.1 = o

/-- RETURN_DONE (R367, R370): the glade's state is back and it is released; a glade whose reset is past step 3 stops at once (R298). -/
def execReturnDone (glade : Fin 2048) (shape : Fin 1024) (s : State) : Out :=
  let h := (glade.val, shape.val)
  match s.sched.lent.find h, s.ctx h with
  | some l, some g =>
    if l.phase = .returning ∧ g.res = .restoring then
      let s := s.restoreCtx h g
      let s := if g.standby then s.holdCtx h else s
      let s : State := { s with sched := { s.sched with lent := s.sched.lent.del h } }
      let ns := (s.elapsed - l.recallAt) / 5
      let s := if s.rd R.SCH_RETURN_MAX.LONGEST_NS < ns then s.wr R.SCH_RETURN_MAX.LONGEST_NS (min ns 0xFFFFFFFF) else s
      let s := if micros 6 < s.elapsed - l.recallAt then
          let s := s.set1 R.SCH_RETURN_MAX.OVER
          (s.detect { cls := .returnOver, die := g.cluster / 2, site := (s.ctxSites g).head?, owner := some h.1 }).1
        else s
      let s := ((s.charge h false).arrived h).decide_ g.cluster
      .next (match s.ten.resets.find h.1 with
        | some (r : ResetSt) =>
          if r.step = ResetStep.drain then
            let (s, hosts) := s.stopOne h
            { s with ten := { s.ten with resets := s.ten.resets.put h.1 { r with left := r.left ++ if r.squashed then [] else hosts } } }
          else s
        | none => if g.moving then s.beginSave h else s)
    else .next s
  | _, _ => .next s

/-! ### The registers with rows of their own -/

/-- A value held between two bounds. -/
def clamp (lo hi v : Nat) : Nat := max lo (min hi v)

/-- Every cluster that holds contexts owes a decision. -/
def State.decideAll (s : State) : State := s.sched.ctxs.foldl (fun s e => s.decide_ e.2.cluster) s

/-- SCH_CTRL_WRITE (R352, R373). -/
def execSchCtrlWrite (v : Word) (s : State) : Out :=
  if !s.managed then .next s else
  let s := s.wr R.SCH_CTRL.QUANTUM_US (clamp 100 100000 (bitsAt v.toNat 0 20))
  let s := s.wr R.SCH_CTRL.BLOCK_US (max 1 (bitsAt v.toNat 20 8))
  .next (s.wr R.SCH_CTRL.URGENT_MS (clamp 1 1000 (bitsAt v.toNat 32 10))).decideAll

/-- SCH_LEND_CTRL_WRITE (R352, R372, R373): LEND_EN 0 recalls every lent shape at once. -/
def execSchLendCtrlWrite (v : Word) (s : State) : Out :=
  if !s.managed then .next s else
  let s := s.wr R.SCH_LEND_CTRL.LEND_EN (v.toNat % 2)
  let s := if v.toNat % 2 = 0 then s.sched.lent.foldl (fun s e => s.recall e.1) s else s
  .next s.decideAll

end Machine
end Sys2Proof
end

