-- ==== Sys2Proof/Machine/Timing.lean ====
section
/-!
DEFINITION. The time function (chapter 13): adjustments, holdover, PPS, PTP rings and timestamps, recovered clocks, and
tolls.
-/
namespace Sys2Proof

/-- A signed 16-bit field. -/
def signedField16 (v : Nat) : Int := if v % 65536 < 32768 then (v % 65536 : Nat) else ((v % 65536 : Nat) : Int) - 65536

/-- Bytes as a number, highest first. -/
def beNat (bs : List Byte) : Nat := bs.foldl (fun a b => a * 256 + b.toNat) 0

namespace Machine

/-- A number as `n` bytes, highest first, as frames carry it. -/
def beBytes (n v : Nat) : List Byte := (leBytes n v).reverse

/-! ### Tolls (13.4) -/

/-- The die that drives the toll pins, if one does (R425). -/
def State.tollDie (s : State) : Option Nat :=
  if !s.isOut (.die 0) then some 0
  else if s.tim.taken && !s.isOut (.die 7) then some 7
  else none

/-- Whether the pin TOLL_OUT[t] is active (R422); with no die driving it, it is not. -/
def State.tollActive (s : State) (t : Nat) : Bool :=
  s.tollDie.isSome && (s.tim.tolls.find t).any fun v => v.pulseEnd.isSome

/-- An armed toll changed. -/
def State.setToll (s : State) (t : Nat) (v : TollSt) : State := { s with tim := { s.tim with tolls := s.tim.tolls.put t v } }

/-- Whether a toll is periodic. -/
def State.tollPeriodic (s : State) (t : Nat) : Bool := s.flag R.TIM_TOLL_CTRL.PERIODIC 0 t

/-- The time of edge `n` of a toll in TAI nanoseconds. -/
def State.tollEdgeAt (s : State) (t : Nat) (v : TollSt) (n : Nat) : Nat :=
  v.start + n * s.rd R.TIM_TOLL_PERIOD.PERIOD_NS 0 t

/-- Edges of a toll, from its next one on, that a time has reached. -/
def State.edgesBy (s : State) (t : Nat) (v : TollSt) (now : Nat) : Nat :=
  let first := s.tollEdgeAt t v v.next
  if now < first then 0
  else if s.tollPeriodic t then (now - first) / (max 1 (s.rd R.TIM_TOLL_PERIOD.PERIOD_NS 0 t)) + 1
  else if v.next = 0 then 1 else 0

/-- A toll is disarmed: EN and ARMED return to 0. -/
def State.disarmToll (s : State) (t : Nat) : State :=
  let s := (s.wr R.TIM_TOLL_CTRL.EN 0 0 t).wr R.TIM_TOLL_STAT.ARMED 0 0 t
  { s with tim := { s.tim with tolls := s.tim.tolls.del t } }

/-- The level of the pin TOLL_OUT[t] (R422): active is high, or low where INVERT is 1. -/
def State.tollLevel (s : State) (t : Nat) : Bool := s.tollActive t != s.flag R.TIM_TOLL_CTRL.INVERT 0 t

/-- The pulse of edge `n` begins, and ends at `stop`. -/
def State.tollPulse (s : State) (t : Nat) (v : TollSt) (n : Nat) (stop : PulseEnd) : State :=
  (s.setToll t { v with next := n + 1, given := some n, pulseEnd := some stop }).tick R.TIM_TOLL_STAT.PULSES 0 t

/-- The pulses that are active keep their width, from now on in elapsed time (R424). -/
def State.tollKeep (s : State) : State :=
  let upd (v : TollSt) : TollSt := match v.pulseEnd with
    | some (.count c) => { v with pulseEnd := some (.elapsed (s.elapsed + ((c - s.count) * 5 + nsUnit - 1) / nsUnit)) }
    | _ => v
  { s with tim := { s.tim with tolls := s.tim.tolls.mapVal fun _ v => upd v } }

/-- The tolls after a backward step (R424): the next pulse is the one after the last given, or the first after it that the counter has not
passed. -/
def State.tollBack (s : State) : State :=
  let upd (t : Nat) (v : TollSt) : TollSt :=
    let lo : TollSt := { v with next := v.given.elim v.first (· + 1) }
    { v with next := lo.next + s.edgesBy t lo s.tai }
  { s with tim := { s.tim with tolls := s.tim.tolls.mapVal upd } }

/-- The tolls at a forward step (R424): with no pulse active, one pulse for the latest edge passed; the other edges
passed are skipped, or all of them under an active pulse or with no die driving the pins. -/
def State.tollStep (s : State) : State :=
  s.tim.tolls.foldl (fun s e =>
    let (t, v) := e
    let k := s.edgesBy t v s.tai
    if k = 0 then s
    else if v.pulseEnd.isSome ∨ s.tollDie.isNone then
      (s.setToll t { v with next := v.next + k }).bump R.TIM_TOLL_STAT.SKIPPED 0 t k
    else
      let s := if 1 < k then s.bump R.TIM_TOLL_STAT.SKIPPED 0 t (k - 1) else s
      s.tollPulse t v (v.next + k - 1) (.elapsed (s.elapsed + nanos (s.rd R.TIM_TOLL_CTRL.WIDTH_NS 0 t)))) s

/-- The fields of TIM_TOLL_CTRL_t other than EN take a written value. -/
def State.tollFields (s : State) (t : Nat) (v : Word) : State :=
  let s := (s.wr R.TIM_TOLL_CTRL.PERIODIC (bitsAt v.toNat 1 1) 0 t).wr R.TIM_TOLL_CTRL.INVERT (bitsAt v.toNat 2 1) 0 t
  s.wr R.TIM_TOLL_CTRL.WIDTH_NS (bitsAt v.toNat 32 29) 0 t

/-- TOLL_ARM (R423): TIM_TOLL_CTRL_t written with EN 1. While EN is 1 the write changes nothing (R422). -/
def execTollArm (t : Fin 8) (v : Word) (s : State) : Out :=
  if !s.managed then .next s else
  if s.flag R.TIM_TOLL_CTRL.EN 0 t then .next s
  else
    let s := s.tollFields t v
    let width := s.rd R.TIM_TOLL_CTRL.WIDTH_NS 0 t
    let period := s.rd R.TIM_TOLL_PERIOD.PERIOD_NS 0 t
    let per := s.tollPeriodic t
    if width < 8 ∨ 500000000 < width ∨ (per ∧ (period < 100 ∨ period ≤ width)) then
      .next (s.set1 R.TIM_TOLL_STAT.BAD 0 t)
    else
      let start := s.complete (s.rd R.TIM_TOLL_START.SEC_LO 0 t) (s.rd R.TIM_TOLL_START.NS 0 t)
      let soon := (s.count + nsUnit - 1) / nsUnit + 1000
      if start < soon ∧ !per then .next (s.set1 R.TIM_TOLL_STAT.LATE 0 t)
      else
        let n := if start < soon then (soon - start + period - 1) / period else 0
        let s := (s.set1 R.TIM_TOLL_CTRL.EN 0 t).set1 R.TIM_TOLL_STAT.ARMED 0 t
        .next (s.setToll t { start := start, next := n, first := n })

/-- TOLL_DISARM (R422, R423): TIM_TOLL_CTRL_t written with EN 0. A toll that was armed keeps its other fields. -/
def execTollDisarm (t : Fin 8) (v : Word) (s : State) : Out :=
  if !s.managed then .next s else
  if s.flag R.TIM_TOLL_CTRL.EN 0 t then .next (s.disarmToll t) else .next (s.tollFields t v)

/-- TOLL_EDGE (R422, R424, R425): the counter has reached the next edge S_n of an armed toll; the pulse ends at S_n + WIDTH_NS. Both edges
of the pin fall at those times, within the reference period (R422). -/
def execTollEdge (t : Fin 8) (s : State) : Out :=
  match s.tim.tolls.find t.val with
  | none => .next s
  | some v =>
    if s.edgesBy t v s.tai = 0 then .next s
    else if v.pulseEnd.isSome ∨ s.tollDie.isNone then
      .next ((s.setToll t { v with next := v.next + 1 }).bump R.TIM_TOLL_STAT.SKIPPED 0 t)
    else .next (s.tollPulse t v v.next (.count ((s.tollEdgeAt t v v.next + s.rd R.TIM_TOLL_CTRL.WIDTH_NS 0 t) * nsUnit)))

/-- Whether the inactive edge of a pulse has come. -/
def State.pulseOver (s : State) : PulseEnd → Bool
  | .count c => decide (c ≤ s.count)
  | .elapsed e => decide (e ≤ s.elapsed)

/-- TOLL_PULSE_END (R422, R424): the width has run out; a once toll returns EN to 0. -/
def execTollPulseEnd (t : Fin 8) (s : State) : Out :=
  match s.tim.tolls.find t.val with
  | none => .next s
  | some v =>
    match v.pulseEnd with
    | none => .next s
    | some e =>
      if !s.pulseOver e then .next s
      else if s.tollPeriodic t then .next (s.setToll t { v with pulseEnd := none })
      else .next (s.disarmToll t)

/-- TOLL_HANDOVER (R425): die 7 drives the pins in place of die 0. -/
def execTollHandover (s : State) : Out :=
  if s.isOut (.die 0) ∧ !s.isOut (.die 7) then .next { s with tim := { s.tim with taken := true } } else .next s

/-! ### The counter (13.1) -/

/-- The counter set to a value in its own units; SEC keeps 64 bits. What a step sets off at once follows: tolls (R424),
an armed barrier (Table 8.2) and recalls (Table 11.4). -/
def State.adjust (s : State) (c : Int) : State :=
  let before := s.count
  let s := s.tollKeep
  let s : State := { s with count := (c % ((2 ^ 64 * secUnit : Nat) : Int)).toNat }
  let s := s.tick R.TIM_STATUS.STEPS
  if before < s.count then ((s.tollStep).barrierStep before).recallStep
  else if s.count < before then s.tollBack else s

/-- SET (R411, R412): TIM_ADJ_CMD written with SET. -/
def execSet (s : State) : Out :=
  if !s.managed then .next s else
  let ns := s.rd R.TIM_SET_NS.NS
  if 999999999 < ns then .next s
  else .next ((s.adjust ((s.rd R.TIM_SET_SEC.SEC * secUnit + ns * nsUnit : Nat) : Int)).set1 R.TIM_STATUS.VALID)

/-- STEP (R411): TIM_ADJ_CMD written with STEP. -/
def execStep (s : State) : Out :=
  if !s.managed then .next s else
  let raw := s.rd R.TIM_STEP.STEP_NS
  if raw = 2 ^ 47 then .next s
  else
    let d : Int := if raw < 2 ^ 47 then raw else (raw : Int) - 2 ^ 48
    .next (s.adjust ((s.count : Int) + d * nsUnit))

/-- SNAP (R427). -/
def execSnap (s : State) : Out :=
  if !s.managed then .next s else
  .next (((s.wr R.TIM_SNAP_SEC.SEC s.sec).wr R.TIM_SNAP_NS.NS s.ns).wr R.TIM_SNAP_NS.FRAC s.frac)

/-- HOLDOVER (R413): no edge of REF_CLK for 1 µs. -/
def execHoldover (s : State) : Out :=
  let s : State := { s with tim := { s.tim with lostAt := some (s.tim.lostAt.getD s.elapsed), gapAt := s.elapsed } }
  .next ((s.wr R.TIM_STATUS.REF_OK 0).set1 R.TIM_STATUS.HOLDOVER)

/-- REF_CLK_RESTORE (R413): REF_CLK has run for 1 ms without a gap. -/
def execRefClkRestore (s : State) : Out :=
  if s.elapsed < s.tim.gapAt + millis 1 then .next s
  else
    let s : State := { s with tim := { s.tim with lostAt := none } }
    .next (s.set1 R.TIM_STATUS.REF_OK)

/-- PPS_EDGE (R414). -/
def execPpsEdge (s : State) : Out :=
  let s := ((s.wr R.TIM_PPS_SEC.SEC s.sec).wr R.TIM_PPS_NS.NS s.ns).wr R.TIM_PPS_NS.FRAC s.frac
  let s := (s.tick R.TIM_PPS_NS.COUNT).set1 R.TIM_STATUS.PPS_OK
  .next { s with tim := { s.tim with ppsAt := s.elapsed } }

/-- PPS_LOSS (R414): no edge for 1.1 s. -/
def execPpsLoss (s : State) : Out :=
  if s.tim.ppsAt + millis 1100 ≤ s.elapsed then .next (s.wr R.TIM_STATUS.PPS_OK 0) else .next s

/-! ### Timestamps, rings and recovered clocks (13.2, 13.3) -/

/-- A timestamp with a correction of signed sixteenths of a nanosecond (R419), in units of the counter. -/
def State.stampWith (s : State) (lat : Nat) : Nat :=
  ((s.count : Int) + signedField16 lat * (nsUnit / 16 : Nat)).toNat

/-- A timestamp requested on a frame that leaves (R420, R421): 64 entries, the newest dropped. -/
def State.takeStamp (s : State) (q id : Nat) (timing : Bool) : State :=
  let l := s.tim.stamps.findD q []
  if 64 ≤ l.length then (s.set1 R.TIM_Q_TS_STAT.OVF 0 q).bump R.TIM_Q_TS_STAT.OVF_COUNT 0 q
  else
    let e : TsEntry := { id := id, at_ := s.stampWith (s.rd R.TIM_Q_LAT.TX_LAT 0 q), timing := timing }
    { s with tim := { s.tim with stamps := s.tim.stamps.put q (l ++ [e]) } }

/-- POP (R420): TIM_Q_TS_POP_q written with POP 1. The registers act only while the quad is in Ethernet mode. -/
def execPop (q : Quad) (s : State) : Out :=
  if !s.managed then .next s else
  if s.ethernet q then
    .next { s with tim := { s.tim with stamps := s.tim.stamps.put q.val ((s.tim.stamps.findD q.val []).drop 1) } }
  else .next s

/-- A frame of EtherType 0x88F7 that passed checks 1 and 2 (R416). PROD advances once its slot is written; the slots that still wait to be
written are taken. -/
def State.timingFrame (s : State) (q : Nat) (f : RxFrame) : State :=
  let group := f.dst = 0x011B19000000 ∨ f.dst = 0x0180C200000E
  if f.dst ≠ s.rd R.RAD_Q_MAC.MAC q ∧ !group then s.bump R.RAD_Q_DROP_A.SPOOFED q
  else if 224 < f.raw.length then s.bump R.TIM_Q_RXDROP.TOO_LONG 0 q
  else
    let prod := (s.rd R.TIM_Q_RXIDX.PROD 0 q + (s.host.waiting.filter fun w => w.rx = some q).length) % 65536
    let cons := s.rd R.TIM_Q_RXIDX.CONS 0 q
    let size := 2 ^ s.rd R.TIM_Q_RXRING.LOG2 0 q
    if (prod + 65536 - cons) % 65536 = size then s.bump R.TIM_Q_RXDROP.RX_FULL 0 q
    else
      let c := s.stampWith (s.rd R.TIM_Q_LAT.RX_LAT 0 q)
      let rec_ := wordBytes [c / secUnit % 2 ^ 64, c % secUnit / nsUnit + c % nsUnit / fracUnit * 2 ^ 32, f.raw.length, 0]
      let a := s.rd R.TIM_Q_RXRING.ADDR 0 q * 4096 + prod % size * 256
      s.hostWrite 0x7FF a (rec_ ++ f.raw) (some q)

/-- Whether a transmit slot's frame may be sent (R417): its length, one C-tag followed by EtherType 0x88F7, and its
source address. -/
def State.slotGood (s : State) (q : Nat) (slot : List Byte) : Bool :=
  let len := leNat (slot.take 8) % 2 ^ 14
  let f := slot.drop 32
  decide (60 ≤ len) && decide (len ≤ 224) && decide (beNat ((f.drop 12).take 2) = 0x8100)
    && decide (beNat ((f.drop 16).take 2) = 0x88F7) && decide (beNat ((f.drop 6).take 6) = s.rd R.RAD_Q_MAC.MAC q)

/-- The port takes the slots of its transmit ring in order (R417), while its link is up and it has room for frames. -/
def State.takeRing (s : State) (q : Nat) : List (List Byte) → State
  | [] => { s with tim := { s.tim with ring := s.tim.ring.del q } }
  | slot :: rest =>
    let w := leNat (slot.take 8)
    let f : TxFrame := { bytes := (slot.drop 32).take (w % 2 ^ 14), queued := s.elapsed
                         stamp := if bitsAt w 16 1 = 1 then some (bitsAt w 32 16) else none }
    if !s.quadUp q ∨ (s.slotGood q slot ∧ s.portFull q f) then { s with tim := { s.tim with ring := s.tim.ring.put q (slot :: rest) } }
    else
      let s := if s.slotGood q slot then s.enqueue q 7 f else s.bump R.RAD_Q_DROP_C.TX_DROP q
      (s.tick R.TIM_Q_TXIDX.CONS 0 q).takeRing q rest

/-- Slots of a transmit ring that waited for room at the port are taken. -/
def State.resumeRing (s : State) (q : Nat) : State := (s.tim.ring.find q).elim s (s.takeRing q)

/-- TX_RING_PROD_WRITE (R417): the manager advances PROD of a transmit ring; `slots` are the 256-byte slots it has
filled, as the port reads them from host memory. Those numbered in `bad` come poisoned: each has its record (R517) and is not sent. -/
def execTxRingProdWrite (q : Quad) (prod : BitVec 16) (slots : List (List Byte)) (bad : List Nat) (s : State) : Out :=
  if !s.managed then .next s else
  if !s.ethernet q then .next s
  else
    let s := s.wr R.TIM_Q_TXIDX.PROD prod.toNat 0 q
    let have_ := s.tim.ring.findD q.val []
    let todo := (prod.toNat + 65536 - s.rd R.TIM_Q_TXIDX.CONS 0 q) % 65536
    let read := slots.zipIdx.map fun x => if bad.contains x.2 then [] else x.1
    let s := (bad.filter fun k => k < slots.length).foldl (fun (s : State) _ => s.hostPoison.1) s
    .next (s.takeRing q ((have_ ++ read).take todo))

/-- Whether a recovered clock output is held low (R418). -/
def State.squelched (s : State) (k : Nat) : Bool :=
  let q := s.rd R.TIM_SYNCE.QUAD 0 k
  !s.flag R.TIM_SYNCE.EN 0 k || !s.ethernet q || !s.quadUp q
    || !(s.rd R.RAD_Q_LINK.LANES q).testBit (s.rd R.TIM_SYNCE.LANE 0 k)

/-- What a recovered clock output follows (R418): the quad and lane of its source, divided by 680, or nothing while it is held low, as it
is for two periods of 6.4 ns after its source has changed. -/
def State.synceOut (s : State) (k : Nat) : Option (Nat × Nat) :=
  if s.squelched k ∨ s.flag R.TIM_SYNCE.SQUELCHED 0 k ∨ (s.tim.synceAt.find k).any fun t => s.elapsed < t + 64 then none
  else some (s.rd R.TIM_SYNCE.QUAD 0 k, s.rd R.TIM_SYNCE.LANE 0 k)

/-- SYNCE_SQUELCH (R418): an output is squelched, or follows its lane, as its causes stand. -/
def execSynceSquelch (k : Fin 2) (s : State) : Out :=
  .next (s.wr R.TIM_SYNCE.SQUELCHED (if s.squelched k then 1 else 0) 0 k)

end Machine
end Sys2Proof
end

