-- ==== Sys2Proof/Machine/Radio.lean ====
section
/-!
DEFINITION. Radio service (chapter 12): ingress, drumbeats and radio items, cells, egress, moves.
-/
namespace Sys2Proof

/-- Bytes of one PRB on the wire at an iqWidth (0 uncompressed). -/
def prbBytes (iq : Nat) : Nat := if iq = 0 ∨ iq = 16 then 48 else 3 * iq + 1

/-- The width of the values of a flow. -/
def ImgFlow.width (f : ImgFlow) : Nat := if f.iq = 0 then 16 else f.iq

/-- Whether two flow entries have the same key (12.4, 12.9). -/
def ImgFlow.sameKey (a b : ImgFlow) : Bool :=
  a.egress = b.egress && a.quad = b.quad && a.mac = b.mac && a.vlan = b.vlan && a.eaxc = b.eaxc

/-- The buffers of an ingress flow: the standby's once it is released (R490). -/
def FlowEnt.buffers (e : FlowEnt) (f : ImgFlow) : Nat × Nat :=
  if e.second then f.buf2.getD (f.buf, f.map) else (f.buf, f.map)

/-- Whether the sections of a U-plane frame are those check 6 wants (R381). -/
def RxFrame.sectionsGood (x : RxFrame) (f : ImgFlow) : Bool :=
  let n (c : Nat) : Nat := if c = 0 then f.nPrb else c
  (x.sections.all fun t => decide (t.1 + n t.2.1 ≤ f.nPrb) && decide (t.2.2.length = n t.2.1)
    && t.2.2.all fun p => decide (p.1 + f.width ≤ 16) && decide (p.2.length = 24))
    && decide (x.payload = 8 + x.sections.foldl (fun k t => k + 4 + n t.2.1 * prbBytes f.iq) 0)

/-- The bytes of a PRB as R384 writes them: 12 resource elements of I then Q, 16 bits each. -/
def expandPrb (e : Nat) (ms : List Int) : List Byte :=
  ms.flatMap fun m => Machine.leBytes 2 ((m * 2 ^ e) % 65536).toNat

/-- The sections of a U-plane payload after its application header (R397): each header, and its PRBs of 48 bytes. -/
def uSections (nPrb : Nat) : Nat → List Byte → Option (List (List Byte × List (List Byte)))
  | 0, bs => if bs.isEmpty then some [] else none
  | fuel + 1, bs =>
    if bs.isEmpty then some []
    else
      let h := bs.take 4
      let c := (h.getD 3 0).toNat
      let n := if c = 0 then nPrb else c
      if bs.length < 4 + 48 * n then none
      else
        let prbs := (List.range n).map fun k => (bs.drop (4 + 48 * k)).take 48
        (uSections nPrb fuel (bs.drop (4 + 48 * n))).map fun r => (h, prbs) :: r

/-- The values of a PRB held as 48 bytes. -/
def prbValues (bs : List Byte) : List Int := (List.range 24).map fun k => signedField16 (Machine.leNat ((bs.drop (2 * k)).take 2))

/-- q of R396 for exponent `e`. -/
def bfpValue (e : Nat) (v : Int) : Int := Int.fdiv (2 * v + 2 ^ e) (2 ^ (e + 1))

/-- The exponent and mantissas of a PRB at width `w` (R396). -/
def bfpPrb (w : Nat) (vs : List Int) : Nat × List Int :=
  let lo : Int := -(2 ^ (w - 1))
  let hi : Int := 2 ^ (w - 1) - 1
  let fits (e : Nat) : Bool := vs.all fun v => decide (lo ≤ bfpValue e v) && decide (bfpValue e v ≤ hi)
  match (List.range (17 - w)).find? fits with
  | some e => (e, vs.map (bfpValue e))
  | none => (16 - w, vs.map fun v => max lo (min hi (bfpValue (16 - w) v)))

/-- A PRB as the port sends it at an iqWidth. -/
def sendPrb (iq : Nat) (bs : List Byte) : List Byte :=
  let vs := prbValues bs
  if iq = 0 ∨ iq = 16 then vs.flatMap fun v => Machine.beBytes 2 (v % 65536).toNat
  else
    let (e, qs) := bfpPrb iq vs
    BitVec.ofNat 8 e :: Machine.beBytes (3 * iq) (qs.foldl (fun a q => a * 2 ^ iq + (q % 2 ^ iq).toNat) 0)

/-- The fields of a transmit descriptor (Table 12.7). -/
structure TxDesc where
  quad : Nat
  flow : Nat
  cplane : Bool
  len : Nat
  tsId : Nat
  ts : Bool
  launchNs : Nat
  launchS : Nat
  addr : Nat
  deriving DecidableEq, Repr

/-- A descriptor from its words. -/
def TxDesc.ofWords (ws : List Nat) : TxDesc :=
  let w (k : Nat) : Nat := ws.getD k 0
  { quad := bitsAt (w 0) 0 4, flow := bitsAt (w 0) 4 9, cplane := bitsAt (w 0) 13 1 = 1, len := bitsAt (w 0) 16 14
    tsId := bitsAt (w 0) 32 16, ts := bitsAt (w 0) 48 1 = 1, launchNs := bitsAt (w 1) 0 32, launchS := bitsAt (w 1) 32 32
    addr := bitsAt (w 2) 0 40 }

/-- The glade that serves slot `m` of a cell (R402). -/
def CellSt.serves (c : CellSt) (m : Int) : Nat :=
  match c.next, c.prev with
  | some (goesTo, n), p => if n ≤ m then goesTo else match p with | some (old, l) => if m < l then old else c.owner | none => c.owner
  | none, some (old, l) => if m < l then old else c.owner
  | none, none => c.owner

/-- The entry of a cell's pattern for a slot: downlink symbols, and a mask of uplink symbols. -/
def ImgCell.slotOf (c : ImgCell) (m : Int) : Bool × Nat :=
  match c.pattern with
  | [] => (false, 0)
  | p => p.getD (m % (p.length : Nat)).toNat (false, 0)

/-- The 16-bit mask of uplink symbols of slot `m` of which every PRB arrived (R384). -/
def CellSt.arrivalMask (c : CellSt) (q i : Nat) (m : Int) (ul nPrb : Nat) : Nat :=
  (List.range 14).foldl (fun a y =>
    if ul.testBit y && (List.range nPrb).all fun p => (c.arrived.findD (q, i, m, y) []).contains p then a + 2 ^ y else a) 0

/-- The drumbeat of slot `m` ends the WAITBEAT of a signal engine whose context is not on its cores (R139, R140): it goes on
at its next instruction when it comes back, with the slot in G14 and G15. -/
def SavedCore.beat (v : SavedCore) (m : Int) : SavedCore :=
  [0, 1].foldl (fun v e =>
    let w : FKey := ⟨.SIG_STATE, R.SIG_STATE.WAIT.lo, e, 0⟩
    let pc : FKey := ⟨.SIG_STATE, R.SIG_STATE.PC.lo, e, 0⟩
    if v.regs.find w = some 3 then
      let v := { v with gregs := (v.gregs.put (e, 14) (slotLow m % 65536)).put (e, 15) (slotLow m / 65536) }
      let regs := v.regs.put w 0
      match v.sigRepeat.findD e 0 with
      | 0 => { v with regs := regs.put pc ((regs.findD pc 0 + 1) % 4096) }
      | k + 1 => { v with regs := regs, sigRepeat := if k = 0 then v.sigRepeat.del e else v.sigRepeat.put e k }
    else v) v

namespace Machine

/-! ### Cells -/

/-- A cell in service changed. -/
def State.setCell (s : State) (k : Nat) (c : CellSt) : State := { s with rad := { s.rad with cells := s.rad.cells.put k c } }

/-- What a glade's RADIO section says of a cell. -/
def State.cellCfg (s : State) (g k : Nat) : Option ImgCell :=
  (s.rad.glades.find g).bind fun v => v.radio.cells.find? fun c => c.cell = k

/-- Numerology of a glade. -/
def State.muOf (s : State) (g : Nat) : Nat := ((s.rad.glades.find g).map fun v => v.radio.mu).getD 0

/-- The flow of a glade that has the key of an entry. -/
def State.flowOf (s : State) (g : Nat) (e : FlowEnt) : ImgFlow :=
  ((s.rad.glades.find g).bind fun v => v.radio.flows.find? fun f => f.sameKey e.flow).getD e.flow

/-- A flow entry changed. -/
def State.setFlow (s : State) (k : Nat × Bool × Nat) (e : FlowEnt) : State := { s with rad := { s.rad with flows := s.rad.flows.put k e } }

/-- A flow whose ingress frame is dropped after it matched. -/
def State.dropIn (s : State) (k : Nat × Bool × Nat) (f : Fld) : State :=
  let s := s.bump f k.1
  match s.rad.flows.find k with
  | some e => s.setFlow k { e with dropped := e.dropped + 1 }
  | none => s

/-- The slot a frame names (R383): of the slots whose numbers are the frame's, the one nearest the arrival. -/
def State.frameSlot (s : State) (mu : Nat) (x : RxFrame) (now : Int) : Option Int :=
  let spm := slotsPerMs mu
  if 10 ≤ x.subframe ∨ spm ≤ x.slot ∨ 256 ≤ x.frameId then none
  else
    let n : Int := 2560 * spm
    let k : Int := (x.frameId * 10 + x.subframe) * spm + x.slot
    let m0 := s.slotAt mu now
    let a := m0 + (k - m0) % n
    let dist (m : Int) : Nat := (s.beatTime mu m - now).natAbs
    some (if dist (a - n) < dist a then a - n else a)

/-- The response to a delay measurement request (R384): eCPRI message type 5, action Response, with the port's
timestamp. -/
def State.measureReply (s : State) (q : Nat) (x : RxFrame) : State :=
  let c := s.stampWith (s.rd R.TIM_Q_LAT.RX_LAT 0 q)
  let body := beBytes 1 x.measureId ++ [0x02] ++ beBytes 6 (c / secUnit) ++ beBytes 4 (c % secUnit / nsUnit) ++ beBytes 8 0
  let bytes := beBytes 6 x.src ++ beBytes 6 (s.rd R.RAD_Q_MAC.MAC q) ++ beBytes 2 0x8100
    ++ beBytes 2 (x.pcp * 8192 + x.vlan) ++ beBytes 2 0xAEFE ++ [0x10, 0x05] ++ beBytes 2 body.length ++ body
  s.enqueue q 7 { bytes := bytes ++ List.replicate (60 - bytes.length) 0, queued := s.elapsed }

/-- The policer of an entry filled up to now (R382). -/
def State.fillBucket (s : State) (e : FlowEnt) : FlowEnt :=
  { e with tokens := min (e.flow.burstKB * 1024 * 8 * 5000) (e.tokens + e.flow.rate * (s.elapsed - e.filled))
           filled := s.elapsed }

/-- An accepted U-plane frame is written to the buffers of the glade that serves its slot (R384), and its cell is heard
from (R389). -/
def State.acceptFrame (s : State) (key : Nat × Bool × Nat) (e : FlowEnt) (f : ImgFlow) (g : Nat) (m : Int) (x : RxFrame) :
    State :=
  let s := s.setFlow key { e with accepted := e.accepted + 1 }
  let base : Int := (e.buffers f).1 + ((m % (max 1 f.nbuf : Nat)) * 14 + x.symbol) * (f.nPrb * 48 : Nat)
  let prbs := x.sections.flatMap fun t => t.2.2.zipIdx.map fun p => (t.1 + p.2, expandPrb p.1.1 p.1.2)
  let s := prbs.foldl (fun s p => s.clearingWrite g (base + (p.1 * 48 : Nat)).toNat p.2) s
  match s.rad.cells.find f.cell with
  | none => s
  | some c =>
    let k := (key.1, key.2.2, m, x.symbol)
    let c' := { c with arrived := c.arrived.put k (dedupe (c.arrived.findD k [] ++ prbs.map fun p => p.1))
                       heard := true, quiet := 0, absent := false }
    let s := s.setCell f.cell c'
    if c.absent then s.tick R.RAD_GEN.GEN else s

/-- FRAME_RECEIVE (R381 to R384, R416): the checks of Table 12.5 in their order; arrival is by the hardware receive timestamp (R383,
R419). -/
def execFrameReceive (q : Quad) (x : RxFrame) (s : State) : Out :=
  let bad := s.bump R.RAD_Q_DROP_A.MALFORMED q
  if !s.ethernet q ∨ !s.quadUp q then .next s
  else if !x.fcsOk ∨ x.length < 64 ∨ 9216 < x.length then .next bad
  else if x.etherType = 0x8808 then .next s
  else if !x.oneTag then .next bad
  else if x.etherType = 0x88F7 then .next (s.timingFrame q x)
  else if x.etherType ≠ 0xAEFE then .next bad
  else if x.revision ≠ 1 ∨ x.concat ∨ !(x.length = 26 + x.payload ∨ (x.length = 64 ∧ 26 + x.payload ≤ 64))
      ∨ (x.msgType ≠ 0 ∧ x.msgType ≠ 5) then .next bad
  else
    let here (e : FlowEnt) : Bool := e.flow.mac = x.src && e.flow.vlan = x.vlan && (x.msgType = 5 || e.flow.eaxc = x.pcId)
    match s.rad.flows.find? fun r => r.1.1 = q.val && !r.1.2.1 && here r.2 with
    | none => .next (s.bump R.RAD_Q_DROP_A.SPOOFED q)
    | some (key, e) =>
      if x.dst ≠ s.rd R.RAD_Q_MAC.MAC q then .next (s.bump R.RAD_Q_DROP_A.SPOOFED q)
      else if x.msgType = 5 then .next (s.measureReply q x)
      else
        let at_ : Int := s.stampWith (s.rd R.TIM_Q_LAT.RX_LAT 0 q)
        let now : Int := Int.fdiv at_ nsUnit
        let mu := s.muOf e.owner
        match s.frameSlot mu x now, s.rad.cells.find e.flow.cell with
        | some m, some c =>
          let g := c.serves m
          let f := s.flowOf g e
          if !x.uplink ∨ x.version ≠ 1 ∨ !x.sectionsGood f ∨ 14 ≤ x.symbol then .next (s.dropIn key R.RAD_Q_DROP_A.MALFORMED)
          else
            let past := at_ - s.beatTime mu m * nsUnit
            let air := past * 14 - x.symbol * slotNs mu * nsUnit
            let cut := ((s.cellCfg g f.cell).map fun v => v.ulCutoff).getD 0
            if air < f.winStart * 14 * nsUnit then .next (s.dropIn key R.RAD_Q_DROP_B.EARLY)
            else if f.winEnd * 14 * nsUnit < air ∨ cut * nsUnit ≤ past then .next (s.dropIn key R.RAD_Q_DROP_C.LATE)
            else
              let e := s.fillBucket e
              let cost := (x.length + 20) * 8 * 5000
              if e.tokens < cost then .next ((s.setFlow key e).dropIn key R.RAD_Q_DROP_B.POLICED)
              else .next (s.acceptFrame key { e with tokens := e.tokens - cost } f g m x)
        | _, _ => .next (s.dropIn key R.RAD_Q_DROP_A.MALFORMED)

/-! ### Drumbeats and radio items (12.5) -/

/-- Radio service offers a waiting item to its queue (R387): the agent writes its record, where no condition of 10.2 holds
the queue and its deadline has not passed. -/
def State.offerRadio (s : State) (x : RadItem) : Option State :=
  match s.localQueue x.owner x.loc with
  | none => none
  | some (q, v) =>
    if !v.msgFed ∨ s.hold q v ≠ 0 ∨ s.passed x.deadline then none
    else
      let n := v.accepted + v.writing.length + 1
      let r := { s.newRecord x.owner (n :: x.words) with deadline := some x.deadline, cell := some x.cell, ruAbsent := x.ruAbsent }
      some (s.setQueue q { v with writing := v.writing ++ [(r, .radio)] })

/-- Whether an earlier item waits for the same queue. -/
def State.radioAhead (s : State) (i : Nat) (x : RadItem) : Bool :=
  (s.rad.waiting.take i).any fun y => y.owner = x.owner && y.loc = x.loc

/-- A new radio item: offered at once, or waiting behind others of its queue. -/
def State.newItem (s : State) (x : RadItem) : State :=
  let wait : State := { s with rad := { s.rad with waiting := s.rad.waiting ++ [x] } }
  if s.radioAhead s.rad.waiting.length x then wait else (s.offerRadio x).getD wait

/-- The argument words of a radio item (Table 12.6). -/
def radioWords (m : Int) (cell : Nat) (down absent : Bool) (missing nbuf : Nat) (deadline : Int) : List Nat :=
  let b (x : Bool) (k : Nat) : Nat := if x then 2 ^ k else 0
  let d := deadline.toNat
  [slotLow m + cell % 512 * 2 ^ 32 + b down 41 + b absent 42,
   missing % 2 ^ 32 + (m % (max 1 nbuf : Nat)).toNat % 65536 * 2 ^ 32,
   d % 10 ^ 9 + d / 10 ^ 9 % 2 ^ 32 * 2 ^ 32, 0, 0, 0, 0]

/-- What a drumbeat of slot `m` does for one cell of a glade: the downlink item of slot m + DL_LEAD, and the cut-off to
come of slot m. -/
def State.beatCell (s : State) (g mu : Nat) (m : Int) (cfg : ImgCell) : State :=
  match s.rad.cells.find cfg.cell with
  | none => s
  | some c =>
    let t := m + cfg.dlLead
    let s := if (cfg.slotOf t).1 ∧ c.serves t = g then
        let d := s.beatTime mu t + cfg.dlDeadline
        s.newItem { owner := g, cell := cfg.cell, loc := cfg.dlLoc, deadline := d.toNat, ruAbsent := false
                    words := radioWords t cfg.cell true c.absent 0 cfg.nbuf d }
      else s
    if (cfg.slotOf m).2 ≠ 0 ∧ c.serves m = g then
      match s.rad.cells.find cfg.cell with
      | some c => s.setCell cfg.cell { c with cutoffs := c.cutoffs ++ [(g, m)] }
      | none => s
    else s

/-- A cell whose switch slot has come is served by its new glade, and its flows are that glade's (R402). -/
def State.switchCell (s : State) (k : Nat) (c : CellSt) (goesTo : Nat) (m : Int) : State :=
  let s := s.setCell k { c with owner := goesTo, next := none, prev := some (c.owner, m) }
  let upd (e : FlowEnt) : FlowEnt := if e.flow.cell = k then { e with owner := goesTo, flow := s.flowOf goesTo e } else e
  let quads := (s.rad.flows.filterMap fun e => if e.2.flow.cell = k then some e.1.1 else none).eraseDups
  let s := { s with rad := { s.rad with flows := s.rad.flows.mapVal fun _ e => upd e } }
  quads.foldl (fun s q => s.tick R.RAD_Q_GEN.GEN q) (s.tick R.RAD_GEN.GEN)

/-- The drumbeat of slot `m` reaches a signal engine that waits at WAITBEAT (R385). -/
def State.beatEngine (s : State) (m : Int) (e : Nat) : State :=
  if s.rd R.SIG_STATE.WAIT e = 3 then
    (((s.setGreg e 14 (slotLow m % 65536)).setGreg e 15 (slotLow m / 65536)).advance e).unblockAt (e / 2)
  else s

/-- DRUMBEAT (R385 to R387, R349, R402): the latest slot whose drumbeat time the counter has reached. -/
def execDrumbeat (glade : Fin 1024) (s : State) : Out :=
  match s.rad.glades.find glade.val with
  | none => .next s
  | some g =>
    match g.lastM with
    | none => .next s
    | some l =>
      let mu := g.radio.mu
      let m := s.slotAt mu s.tai
      if m ≤ l then .next s
      else
        let o := glade.val
        let mine := s.sched.ctxs.filter fun e => e.1.1 = o && e.2.onCores
        let s := mine.foldl (fun s e => s.charge e.1 false) s
        let s := { s with rad := { s.rad with glades := s.rad.glades.put o { g with lastM := some m } } }
        let s := (s.bump R.RAD_GLADE_DRUM.SKIPPED 0 o (m - l - 1).toNat).wr R.RAD_GLADE_DRUM.LAST_M (slotLow m) 0 o
        let s := s.rad.cells.foldl (fun s e => match e.2.next with
          | some (goesTo, n) => if (goesTo = o ∨ e.2.owner = o) ∧ n ≤ m then s.switchCell e.1 e.2 goesTo n else s
          | none => s) s
        let engines := mine.flatMap fun e => (s.ctxSites e.2).flatMap fun a => [2 * a, 2 * a + 1]
        let s := engines.foldl (fun s e => s.beatEngine m e) s
        let away := s.sched.ctxs.mapVal fun k c => if k.1 = o then { c with saved := c.saved.map fun v => v.beat m } else c
        let s : State := { s with sched := { s.sched with ctxs := away } }
        .next (g.radio.cells.foldl (fun s c => s.beatCell o mu m c) s)

/-- UPLINK_CUTOFF (R384, R387, R389): the oldest cut-off to come of a cell, once its time is reached: the arrival maps,
the RU state, and the uplink item. -/
def execUplinkCutoff (cell : Fin 512) (s : State) : Out :=
  match s.rad.cells.find cell.val with
  | none => .next s
  | some c =>
    match c.cutoffs with
    | [] => .next s
    | (g, m) :: rest =>
      match s.cellCfg g cell with
      | none => .next (s.setCell cell { c with cutoffs := rest })
      | some cfg =>
        let mu := s.muOf g
        if (s.tai : Int) < s.beatTime mu m + cfg.ulCutoff then .next s
        else
          let ul := (cfg.slotOf m).2
          let flows := s.rad.flows.filter fun e => !e.1.2.1 && e.2.flow.cell = cell.val
          let masks := flows.map fun e =>
            let f := s.flowOf g e.2
            (e, f, c.arrivalMask e.1.1 e.1.2.2 m ul f.nPrb)
          let s := masks.foldl (fun s x =>
            let a := (x.1.2.buffers x.2.1).2 + (m % (max 1 x.2.1.nbuf : Nat)).toNat * 2
            s.clearingWrite g a (leBytes 2 x.2.2)) s
          let missing := masks.foldl (fun k x => k + ((List.range 14).filter fun y => ul.testBit y && !x.2.2.testBit y).length) 0
          let quiet := if c.heard then 0 else c.quiet + 1
          let gone := !c.absent && decide (s.rd R.RAD_CTRL.ABSENT_SLOTS ≤ quiet)
          let absent := c.absent || gone
          let arrived := c.arrived.keep fun k _ => k.2.2.1 ≠ m
          let s := s.setCell cell { c with cutoffs := rest, heard := false, quiet := quiet, absent := absent, arrived := arrived }
          let s := if gone then (s.bump R.RAD_CELL_CNT.ABSENCES 0 cell).tick R.RAD_GEN.GEN else s
          let d := s.beatTime mu m + cfg.ulDeadline
          .next (s.newItem { owner := g, cell := cell, loc := cfg.ulLoc, deadline := d.toNat
                             ruAbsent := absent || decide (missing ≠ 0)
                             words := radioWords m cell false absent missing cfg.nbuf d })

/-- RADIO_ITEM_OFFER (R387): waiting item `i` is offered to its queue again. -/
def execRadioItemOffer (i : Nat) (s : State) : Out :=
  match s.rad.waiting[i]? with
  | none => .next s
  | some x =>
    if s.radioAhead i x then .next s
    else
      let t : State := { s with rad := { s.rad with waiting := s.rad.waiting.eraseIdx i } }
      .next ((t.offerRadio x).getD s)

/-- RADIO_ITEM_DISCARD (R387): the deadline of waiting item `i` has passed. -/
def execRadioItemDiscard (i : Nat) (s : State) : Out :=
  match s.rad.waiting[i]? with
  | none => .next s
  | some x =>
    if s.passed x.deadline then
      .next ({ s with rad := { s.rad with waiting := s.rad.waiting.eraseIdx i } }.bump R.RAD_CELL_CNT.UNSENT 0 x.cell)
    else .next s

/-! ### Egress (12.8) -/

/-- The finished frame of a payload on a flow (R396), without its FCS; a short one is padded to 64 bytes. -/
def State.buildFrame (s : State) (q : Nat) (f : ImgFlow) (cplane : Bool) (seq : Nat) (payload : List Byte) : List Byte :=
  let bytes := beBytes 6 f.mac ++ beBytes 6 (s.rd R.RAD_Q_MAC.MAC q) ++ beBytes 2 0x8100
    ++ beBytes 2 (f.pcp * 8192 + f.vlan) ++ beBytes 2 0xAEFE ++ [0x10, if cplane then 0x02 else 0x00]
    ++ beBytes 2 (4 + payload.length) ++ beBytes 2 f.eaxc ++ beBytes 2 seq ++ payload
  bytes ++ List.replicate (60 - bytes.length) 0

/-- The payload as the port sends it, or nothing where R397 forbids the frame. -/
def wirePayload (f : ImgFlow) (cplane : Bool) (len : Nat) (bs : List Byte) : Option (List Byte) :=
  if cplane then (if 8 ≤ len ∧ len ≤ 9100 then some bs else none)
  else if len < 4 then none
  else (uSections f.nPrb bs.length (bs.drop 4)).map fun l =>
    bs.take 4 ++ l.flatMap fun x => x.1 ++ x.2.flatMap (sendPrb f.iq)

/-- A frame that is not sent: counted, and acknowledged as emitted (R326, R397, R398). -/
def State.dropTx (s : State) (q : Nat) (flow : Option Nat) (effect : Option (Nat × Nat × Nat)) : State :=
  let s := s.bump R.RAD_Q_DROP_C.TX_DROP q
  let s := match flow with
    | some i => match s.rad.flows.find (q, true, i) with
      | some e => s.setFlow (q, true, i) { e with dropped := e.dropped + 1 }
      | none => s
    | none => s
  match effect with
  | some (a, b, c) => s.ackEffect a b c
  | none => s

/-- A frame effect reaches its port (R395 to R398); nothing where the port's space is full and emission waits. One whose payload lay on
a stack that has been lost is never sent (R333). -/
def State.emitFrame (s : State) (owner queue item index : Nat) (words : List Nat) : Option State :=
  let d := TxDesc.ofWords words
  let ref := some (queue, item, index)
  match s.rad.flows.find (d.quad, true, d.flow) with
  | none => some (s.dropTx d.quad none ref)
  | some e =>
    if (linesOf d.addr d.len).any fun l => (s.deviceLine owner l false).any fun n => s.keyOut (.hbm n) then
      some (s.loseFrame queue item index)
    else
      let (s, bs) := s.clearingRead owner d.addr d.len
      match wirePayload e.flow d.cplane d.len bs with
      | none => some (s.dropTx d.quad (some d.flow) ref)
      | some p =>
        let seq := if d.cplane then e.seqC else e.seqU
        let bytes := s.buildFrame d.quad e.flow d.cplane seq p
        if 9216 < bytes.length + 4 ∨ !s.quadUp d.quad then some (s.dropTx d.quad (some d.flow) ref)
        else
          let f : TxFrame := { effect := ref, flow := some d.flow, bytes := bytes, launch := some (s.complete d.launchS d.launchNs)
                               queued := s.elapsed, stamp := if d.ts then some d.tsId else none }
          if s.portFull d.quad f then none
          else
            let e := if d.cplane then { e with seqC := (seq + 1) % 65536 } else { e with seqU := (seq + 1) % 65536 }
            some ((s.setFlow (d.quad, true, d.flow) e).enqueue d.quad e.flow.tc f)

/-- Whether the head frame of a class is too late to start (R398). -/
def State.tooLate (s : State) (q : Nat) (f : TxFrame) : Bool :=
  f.launch.any fun t => s.passed (t + s.rd R.RAD_Q_TXCFG.TX_LATE_NS q)

/-- Whether the head frame of a class may start (R398). -/
def State.eligible (s : State) (q k : Nat) (f : TxFrame) : Bool :=
  let launched := (f.launch.all fun t => decide (t ≤ s.tai)) && !s.tooLate q f
  let gate := match s.gateOffset q with
    | none => true
    | some off => gateOpen (s.gateList q) (s.gateCycle q) k 20000 off (f.wire + 50 * s.rd R.RAD_Q_TXCFG.GUARD_NS q)
  let shaped := k = 7 || !s.flag R.RAD_Q_CBS.EN q k || decide (0 ≤ (s.txPort q).credit.findD k 0)
  launched && gate && shaped

/-- FRAME_TRANSMIT (R398, R420): the eligible head of the highest class starts. -/
def execFrameTransmit (q : Quad) (s : State) : Out :=
  let u := s.creditTo q
  let p := u.txPort q
  if p.sending.isSome ∨ !s.ethernet q ∨ !s.quadUp q then .next s
  else
    match [7, 6, 5, 4, 3, 2, 1, 0].findSome? fun k => ((p.queues.findD k []).head?).bind fun f =>
        if u.eligible q k f then some (k, f) else none with
    | none => .next s
    | some (k, f) =>
      let p := { p with queues := p.queues.put k ((p.queues.findD k []).drop 1), sending := some (k, f, s.elapsed) }
      let t := u.setTxPort q p
      .next ((match f.stamp with | some id => t.takeStamp q id (k = 7) | none => t).resumeRing q)

/-- FRAME_SENT (R326, R427): the last byte has left after the frame's time on the wire at 400 Gb/s. -/
def execFrameSent (q : Quad) (s : State) : Out :=
  match (s.txPort q).sending with
  | none => .next s
  | some (_, f, start) =>
    if 10 * (s.elapsed - start) < f.wire then .next s
    else
      let s := s.creditTo q
      let s := s.setTxPort q { s.txPort q with sending := none, last := f.bytes ++ frameCheck f.bytes }
      let s := match f.flow with
        | some i => match s.rad.flows.find (q.val, true, i) with
          | some e => s.setFlow (q.val, true, i) { e with accepted := e.accepted + 1 }
          | none => s
        | none => s
      .next (match f.effect with | some (a, b, c) => s.ackEffect a b c | none => s)

/-- TX_DROP (R398): the head of a class is too late. -/
def execTxDrop (q : Quad) (k : Fin 8) (s : State) : Out :=
  let u := s.creditTo q
  let p := u.txPort q
  match p.queues.findD k.val [] with
  | [] => .next s
  | f :: r =>
    if s.tooLate q f ∨ !s.quadUp q then
      .next (((u.setTxPort q { p with queues := p.queues.put k.val r }).dropTx q f.flow f.effect).resumeRing q)
    else .next s

/-- Every frame of a port is dropped and acknowledged (R398, R404); what the frame being sent has spent is charged first (R400). -/
def State.dropAll (s : State) (q : Nat) : State :=
  let s := s.creditTo q
  let p := s.txPort q
  let fs := (p.sending.map fun x => x.2.1).toList ++ p.queues.flatMap fun e => e.2
  let s := s.setTxPort q { p with queues := [], sending := none }
  fs.foldl (fun s f => s.dropTx q f.flow f.effect) s

/-- The frames of the ports whose quads have left service are dropped with them. -/
def State.dropQuads (s : State) : State :=
  (List.range 16).foldl (fun s q =>
    let p := s.txPort q
    if s.isOut (.quad q) ∧ (p.sending.isSome ∨ p.queues.any fun e => e.2 ≠ []) then s.dropAll q else s) s

/-- QUAD_DOWN (R404): the link goes down. -/
def execQuadDown (q : Quad) (s : State) : Out :=
  if s.quadUp q then .next (((s.wr R.RAD_Q_LINK.STATE 2 q).wr R.RAD_Q_LINK.LANES 0 q).dropAll q) else .next s

/-- GATE_INTERVAL (R399, R400): an entry's interval ends; the credits stand for the gates until now. -/
def execGateInterval (q : Quad) (s : State) : Out := .next (s.creditTo q)

/-- QUEUE_SAMPLE (R401): SAMPLE_NS has passed since the last one. -/
def execQueueSample (q : Quad) (s : State) : Out :=
  let p := s.txPort q
  if s.elapsed < p.sampledAt + 5 * s.rd R.RAD_Q_TXCFG.SAMPLE_NS q then .next s
  else
  let s := s.setTxPort q { p with sampledAt := s.elapsed }
  .next ((List.range 8).foldl (fun s k =>
    let l := p.queues.findD k []
    let depth := l.foldl (fun n f => n + f.wire) 0
    let delay := match l with | f :: _ => min ((s.elapsed - f.queued) / 5) 0xFFFFFFFF | [] => 0
    let s := (s.wr R.RAD_Q_DEPTH.LAST_BYTES depth q k).wr R.RAD_Q_DELAY.LAST_NS delay q k
    let s := if s.rd R.RAD_Q_DEPTH.MAX_BYTES q k < depth then s.wr R.RAD_Q_DEPTH.MAX_BYTES depth q k else s
    if s.rd R.RAD_Q_DELAY.MAX_NS q k < delay then s.wr R.RAD_Q_DELAY.MAX_NS delay q k else s) s)

/-! ### FEC windows and moves -/

/-- The cluster a group of a loaded image runs in; its standby's once that is released. -/
def State.groupCluster (s : State) (o g : Nat) : Option Nat :=
  (s.loaded o).bind fun l => (l.placed.find? fun p => p.group = g && p.standby = l.gone.contains g).map fun p => p.cluster

/-- FEC units a glade declares on a cluster's block (R378): decode, encode. -/
def State.declared (s : State) (o c : Nat) : Nat × Nat :=
  match (s.loaded o).bind fun l => l.img.radio with
  | none => (0, 0)
  | some r => (r.cells.filter fun x => s.groupCluster o x.group = some c).foldl (fun n x => (n.1 + x.dec, n.2 + x.enc)) (0, 0)

/-- Whether a glade's use of a FEC block in a window that has ended exceeds what it declares and has not been counted (R394). -/
def State.overUse (s : State) (w : Int) (e : (Int × Nat × Nat × Bool) × Nat × Bool) : Bool :=
  let d := s.declared e.1.2.1 e.1.2.2.1
  decide (e.1.1 < w) && !e.2.2 && s.holdsImage e.1.2.1 && decide ((if e.1.2.2.2 then d.2 else d.1) * 900 < e.2.1)

/-- FEC_USE_WINDOW (R394): a window of 500 µs, aligned to FRAME_OFFSET_NS, has ended. The last one is kept for a code block that ran
across its end. -/
def execFecUseWindow (s : State) : Out :=
  let w := s.fecWindow
  if w = s.rad.window then .next s
  else
    let past := s.eng.fecUse.filter (s.overUse w)
    let s := past.foldl (fun s e => s.bump (if e.1.2.2.2 then R.RAD_GLADE_FEC.OVER_ENC else R.RAD_GLADE_FEC.OVER_DEC) 0 e.1.2.1) s
    let use := (s.eng.fecUse.filter fun e => decide (w - 1 ≤ e.1.1)).map fun e => if past.contains e then (e.1, e.2.1, true) else e
    .next { s with eng := { s.eng with fecUse := use }, rad := { s.rad with window := w } }

/-- A move command ends (R403). -/
def State.endMove (s : State) (cause : Nat) : State :=
  let s := (s.wr R.RAD_MOVE_STATUS.STATUS (if cause = 0 then 0 else 5)).wr R.RAD_MOVE_STATUS.CAUSE cause
  (s.tick R.RAD_MOVE_STATUS.CMD_SEQ).eventCmdDone

/-- The switch slot of a MOVE written now: the slot of the first drumbeat at or after RAD_MOVE_TIME. -/
def State.switchSlot (s : State) (mu : Nat) : Int :=
  let t : Int := s.complete (s.rd R.RAD_MOVE_TIME.SEC_LO) (s.rd R.RAD_MOVE_TIME.NS)
  s.slotAt mu (t + slotNs mu - 1)

/-- The cause that refuses a MOVE, or 0 (Table 12.8). -/
def State.moveCause (s : State) (cell goesTo : Nat) : Nat :=
  match s.rad.cells.find cell with
  | none => 1
  | some c =>
    let cfg := s.cellCfg goesTo cell
    let ok := (s.rad.glades.find goesTo).any (fun g => g.lastM.isSome) && cfg.any fun v => v.takeOver
    if !ok then 2
    else
      let lead := max ((cfg.map fun v => v.dlLead).getD 0) (((s.cellCfg c.owner cell).map fun v => v.dlLead).getD 0)
      let mu := s.muOf c.owner
      if s.switchSlot mu < s.slotAt mu s.tai + lead + 2 then 3
      else if c.next.isSome then 4
      else if 999999999 < s.rd R.RAD_MOVE_TIME.NS then 5
      else 0

/-- CELL_MOVE (R402, R403): RAD_MOVE_CMD written with MOVE. -/
def execCellMove (s : State) : Out :=
  if !s.managed then .next s else
  let cell := s.rd R.RAD_MOVE_ARG.CELL
  let goesTo := s.rd R.RAD_MOVE_ARG.TO
  let cause := s.moveCause cell goesTo
  match s.rad.cells.find cell with
  | some c =>
    if cause ≠ 0 then .next (s.endMove cause)
    else
      let m := s.switchSlot (s.muOf c.owner)
      .next (((s.setCell cell { c with next := some (goesTo, m) }).tick R.RAD_GEN.GEN).endMove 0)
  | none => .next (s.endMove cause)

/-- MOVE_CANCEL (R403): RAD_MOVE_CMD written with CANCEL. -/
def execMoveCancel (s : State) : Out :=
  if !s.managed then .next s else
  let cell := s.rd R.RAD_MOVE_ARG.CELL
  match s.rad.cells.find cell with
  | none => .next (s.endMove 1)
  | some c =>
    match c.next with
    | none => .next (s.endMove 6)
    | some (_, m) =>
      if m ≤ s.slotAt (s.muOf c.owner) s.tai then .next (s.endMove 6)
      else .next (((s.setCell cell { c with next := none }).tick R.RAD_GEN.GEN).endMove 0)

/-! ### Glades coming and going -/

/-- Adds a flow of a loaded glade to its table: at the lowest free index, its policer full (R382). A take-over cell's flow
that is in the table already is shared (12.9). -/
def State.addFlow (s : State) (o : Nat) (f : ImgFlow) : State :=
  let q := f.quad.val
  if s.rad.flows.any fun e => e.2.flow.sameKey f then s
  else match (List.range 512).find? fun i => !s.rad.flows.has (q, f.egress, i) with
    | none => s
    | some i => (s.setFlow (q, f.egress, i) { flow := f, owner := o, tokens := f.burstKB * 1024 * 8 * 5000, filled := s.elapsed }).tick
        R.RAD_Q_GEN.GEN q

/-- A glade's radio service is set up at its load (12.4, 12.5). -/
def State.addRadio (s : State) (o : Nat) (r : ImgRadio) : State :=
  let s := { s with rad := { s.rad with glades := s.rad.glades.put o { radio := r } } }
  let s := r.cells.foldl (fun s c => if s.rad.cells.has c.cell then s else s.setCell c.cell { owner := o }) s
  let s := s.wr R.RAD_GLADE_DRUM.LAST_M 0 0 o
  (r.flows.foldl (fun s f => s.addFlow o f) s).tick R.RAD_GEN.GEN

/-- The glade that takes over a cell of a glade that goes: the target of its move, or another released glade with a
take-over entry for it (R402). -/
def State.taker (s : State) (o cell : Nat) (c : CellSt) : Option Nat :=
  match c.next with
  | some (goesTo, _) => if goesTo = o then none else some goesTo
  | none => (s.rad.glades.find? fun e => e.1 ≠ o && e.2.lastM.isSome && e.2.radio.cells.any fun x => x.cell = cell && x.takeOver).map
      fun e => e.1

/-- A glade leaves radio service (R402, R404): its cells are handed over or end, its flows leave the tables. -/
def State.dropRadio (s : State) (o : Nat) : State :=
  if !s.rad.glades.has o then s
  else
    let cells := s.rad.cells.filterMap fun e =>
      let c := e.2
      let c := match c.next with | some (goesTo, _) => if goesTo = o ∧ c.owner ≠ o then { c with next := none } else c | none => c
      let c := match c.prev with | some (p, _) => if p = o then { c with prev := none } else c | none => c
      let c := if c.owner = o then c else { c with cutoffs := c.cutoffs.map fun x => if x.1 = o then (c.owner, x.2) else x }
      if c.owner ≠ o then some (e.1, c)
      else (s.taker o e.1 c).map fun goesTo =>
        (e.1, { c with owner := goesTo, next := none, prev := none, cutoffs := c.cutoffs.map fun x => (goesTo, x.2) })
    let owner (cell : Nat) : Option Nat := (Tab.find cells cell).map CellSt.owner
    let flows := s.rad.flows.filterMap fun e =>
      if e.2.owner ≠ o then some e
      else match owner e.2.flow.cell with
        | some goesTo => some (e.1, { e.2 with owner := goesTo, flow := s.flowOf goesTo e.2 })
        | none => none
    let quads := (s.rad.flows.filterMap fun e => if e.2.owner = o then some e.1.1 else none).eraseDups
    let s := { s with rad := { s.rad with
      cells := cells, flows := flows, glades := s.rad.glades.del o
      waiting := s.rad.waiting.filter fun x => x.owner ≠ o } }
    quads.foldl (fun s q => s.tick R.RAD_Q_GEN.GEN q) (s.tick R.RAD_GEN.GEN)

/-- RAD_Q_MODE_WRITE (R379): ignored while a flow or an enabled Woruri port uses the quad; otherwise the link of the new
mode trains. -/
def execRadQModeWrite (q : Quad) (v : Word) (s : State) : Out :=
  if !s.managed then .next s else
  let mode := v.toNat % 4
  let port := s.rd R.WOR_P_STATE.STATE q
  let inUse := (s.rad.flows.any fun e => e.1.1 = q.val) || decide (port ≠ 0 ∧ port ≠ 5)
  if inUse ∨ s.isOut (.quad q) then .next s
  else
    let s := (s.wr R.RAD_Q_MODE.MODE mode q).wr R.RAD_Q_LINK.LANES 0 q
    let s := s.wr R.WOR_P_STATE.STATE (if mode ≠ 2 then 0 else if s.flag R.WOR_P_CTRL.EN q then 1 else 5) q
    .next (s.wr R.RAD_Q_LINK.STATE (if mode = 1 ∨ mode = 2 then 3 else 0) q)

end Machine
end Sys2Proof
end

