-- ==== Sys2Proof/Machine/Effects.lean ====
section
/-!
DEFINITION. Once-only effects (10.4): the effect log, emission in order, messages and their dedup entries,
acknowledgement and abandonment.
-/
namespace Sys2Proof

/-- The effect identity (R325). -/
def effectId (q n i : Nat) : Nat := q % 2 ^ 20 * 2 ^ 44 + n % 2 ^ 32 * 2 ^ 12 + i % 4096

/-- The effect stamp (R325), from the map generation. -/
def effectStamp (n gen : Nat) : Nat := n / 2 ^ 32 % 2 ^ 16 + gen % 2 ^ 16 * 2 ^ 16

/-- Whether a message is at or below a dedup entry's effect order, in the entry's generation (R328). -/
def dupMessage (gen item index : Nat) (e : Nat × Nat × Nat) : Bool :=
  e.1 = gen && (decide (item < e.2.1) || (item = e.2.1 && decide (index ≤ e.2.2)))

/-- Whether an effect is an atomic. -/
def Effect.isAtomic : Effect → Bool
  | .atomic .. => true
  | _ => false

/-- Atomics of a queue that are not acknowledged. -/
def QueueSt.atomicsOut (v : QueueSt) : Nat :=
  (v.sent.filter fun p => ((v.items.find p.1).bind fun r => r.effects[p.2]?).any Effect.isAtomic).length

namespace Machine

/-- EFFECT_LOG_WRITE (R324, R325, R368): the pipeline of a released item, in the context of shape `shape`, writes an
effect entry. The 4,097th, and an atomic that a borrow context writes, fail the item with class PROGRAM. -/
def execEffectLogWrite (q n : Nat) (shape : Fin 1024) (e : Effect) (s : State) : Out :=
  match s.queue q with
  | none => .next s
  | some v =>
    match v.items.find n, s.ctx (v.owner, shape.val) with
    | some r, some c =>
      let site := (s.ctxSites c).head?
      let bad (sub : Nat) : State := s.failWith { cls := .program, sub := sub, die := c.cluster / 2, site := site,
                                                  unit := 7, owner := some v.owner, item := some ⟨q, n⟩ }
      if v.lost ∨ !r.released ∨ r.finish.isSome ∨ !s.runs (v.owner, shape) then .next s
      else if e.isAtomic ∧ c.kind = .borrow then .next (bad 0x0A)
      else if e.isAtomic ∧ s.isGlade v.owner then .next s
      else if 4096 ≤ r.effects.length then .next (bad 9)
      else if s.effectsFull v.home (q % 2) then .next s
      else .next (s.setQueue q { v with items := v.items.put n { r with effects := r.effects ++ [e] } })
    | _, _ => .next s

/-- An effect is abandoned (R329): the record names its identity, and emission goes on. -/
def State.abandonEffect (s : State) (q n i : Nat) : State :=
  let home := ((s.queue q).map QueueSt.home).getD 0
  let owner := (s.queue q).map QueueSt.owner
  let s := (s.detect { cls := .effect, die := home, unit := 7, owner := owner, item := some ⟨q, n⟩, detail := effectId q n i }).1
  s.ackEffect q n i

/-- A message reaches its destination agent (R327 to R329): the duplicate of one accepted is acknowledged, one that the
destination does not take is a violation of the sender, one that it cannot accept now waits. -/
def State.offerMessage (s : State) (m : Msg) : State :=
  let is (x : Msg) : Bool := x.src = m.src && x.item = m.item && x.index = m.index
  let phase (s : State) (p : MsgPhase) : State :=
    { s with que := { s.que with msgs := s.que.msgs.map fun x => if is x then { x with phase := p } else x } }
  let drop (s : State) : State := { s with que := { s.que with msgs := s.que.msgs.filter fun x => !is x } }
  match s.queue m.dst with
  | none => phase (s.violate R.SCH_TEN_VIOL.QUEUE m.owner) .acked
  | some v =>
    if v.leaving ∨ s.tenState v.owner = 3 then (drop s).abandonEffect m.src m.item m.index
    else if (s.que.dedup.find (v.journal, m.src)).any (dupMessage m.gen m.item m.index) then phase s .acked
    else if !v.msgFed ∨ v.msgFrom ≠ m.owner then phase (s.violate R.SCH_TEN_VIOL.QUEUE m.owner) .acked
    else if s.hold m.dst v ≠ 0 then phase s .waiting
    else
      let r := s.newRecord v.owner ((v.accepted + v.writing.length + 1) :: m.arg)
      (phase s .writing).setQueue m.dst { v with writing := v.writing ++ [(r, .message m.src m.item m.index)] }

/-- Whether a queue's emission waits behind a message that its destination has not yet accepted (R327). -/
def State.messageOut (s : State) (q : Nat) : Bool := s.que.msgs.any fun m => m.src = q && m.phase ≠ .acked

/-- An atomic drops the copy of its fabric line in the cache of the die that sends it; a fill of it in flight is not kept (R222). -/
def State.dropLocal (s : State) (d line : Nat) : State :=
  let c := (s.cache d).drop (.wor line)
  s.setCache d { c with fills := c.fills.map fun f => if f.key = .wor line then { f with dropped := true } else f }

/-- EFFECT_EMIT (R326, R333, R445): the agent sends the next effect of a queue's committed items, in order, those in doubt first. -/
def State.emitNext (s : State) (q : Nat) : State :=
  match s.queue q with
  | none => s
  | some v =>
    let v := v.skip (v.committed + 1 - v.nextItem)
    let (n, i) := v.nextEffect.1
    if v.lost ∨ s.messageOut q ∨ v.committed < n then s
    else
      match v.items.find n, (v.items.find n).bind fun r => r.effects[i]? with
      | some r, some e =>
        let gen := s.que.mapGen.findD q 0
        let w := v.nextEffect.2
        match e with
        | .message dst arg =>
          let m : Msg := { src := q, item := n, index := i, gen := gen, owner := v.owner, dst := dst, arg := arg }
          let s := s.setQueue q w
          if s.que.msgs.any fun x => x.src = q && x.item = n && x.index = i then s
          else { s with que := { s.que with msgs := s.que.msgs ++ [m] } }
        | .atomic dst addr op size8 a b ret =>
          if 32 ≤ v.atomicsOut then s
          else
            let full := dst % 4096 * 2 ^ 44 + addr % 2 ^ 44
            let len := if size8 then 8 else 4
            if s.wor.imports.any fun x => x.1.1 = v.owner && x.2.atomic && x.2.covers full len then
              let p : Packet := { typ := .atomic, cls := .request, src := 0, dst := dst % 4096, addr := full, op := op
                                  size8 := size8, nocomb := op ≠ 1
                                  atoms := [{ identity := effectId q n i, epoch := r.epoch, stamp := effectStamp n gen
                                              operand := a, operand2 := b }] }
              ((s.setQueue q w).dropLocal v.home (full / 256)).askFabric p (.effect ⟨q, n, i⟩)
            else
              let s := (s.setQueue q w).violate R.SCH_TEN_VIOL.MEM v.owner
              (s.clearingWrite v.owner ret (leBytes len 0)).ackEffect q n i
        | .frame words => ((s.setQueue q w).emitFrame v.owner q n i words).getD s
      | _, _ => s

/-- EFFECT_EMIT. -/
def execEffectEmit (q : Fin 1048576) (s : State) : Out := .next (s.emitNext q)

/-- MESSAGE_RECEIVE (R327, R328): the oldest message on its way from a queue reaches its destination. -/
def execMessageReceive (src : Fin 1048576) (s : State) : Out :=
  match s.que.msgs.find? fun m => m.src = src.val && m.phase = MsgPhase.sent with
  | some m => .next (s.offerMessage m)
  | none => .next s

/-- MESSAGE_REOFFER (R327): a waiting message is offered again. -/
def execMessageReoffer (src : Fin 1048576) (s : State) : Out :=
  match s.que.msgs.find? fun m => m.src = src.val && m.phase = MsgPhase.waiting with
  | some m => .next (s.offerMessage m)
  | none => .next s

/-- EFFECT_ACK (R326): the acknowledgement of a queue's message comes, and its emitted position moves past it. Frames
(FRAME_SENT, TX_DROP) and atomics (ATOMIC_RSP) are acknowledged by the commands that end them. -/
def execEffectAck (src : Fin 1048576) (s : State) : Out :=
  match s.que.msgs.find? fun m => m.src = src.val && m.phase = MsgPhase.acked with
  | some m =>
    let s : State := { s with que := { s.que with msgs := s.que.msgs.filter fun x =>
      !(x.src = m.src && x.item = m.item && x.index = m.index) } }
    .next (s.ackEffect src m.item m.index)
  | none => .next s

end Machine
end Sys2Proof
end

