-- ==== Sys2Proof/Machine/Release.lean ====
section
/-!
DEFINITION. What a clearing gives up: its image and all the image holds (R256, R298 step 6), its engines at a reset
(R298 step 3), its extents, queues and windows at a removal (R300), and the end of both.
-/
namespace Sys2Proof

/-- Whether a request at a line cache is a mover's of an owner, and its answer is still waited for. -/
def LcReq.moverOf (o : Nat) (r : LcReq) : Bool := r.mover.any fun m => m.2.owner = o && !m.2.squashed

/-- A line cache whose requests of an owner's movers are squashed (R298 step 4). -/
def LineCache.forget (c : LineCache) (o : Nat) : LineCache :=
  let f (r : LcReq) : LcReq :=
    if r.moverOf o then { r with mover := r.mover.map fun m => (m.1, { m.2 with squashed := true }) } else r
  { c with inq := c.inq.map f, fills := c.fills.map fun v => { v with waiting := v.waiting.map f } }

/-- A FEC block without the work of an owner. -/
def FecBlock.without (b : FecBlock) (o : Nat) : FecBlock :=
  let keep (e : FecEntry) : Bool := e.tag.owner ≠ o
  let one (e : Option FecEntry) : Option FecEntry := e.filter keep
  { b with decQ := b.decQ.filter keep, encQ := b.encQ.filter keep, dec0 := one b.dec0, dec1 := one b.dec1, enc := one b.enc
           reorder := b.reorder.filter fun r => r.tag.owner ≠ o }

/-- Whether a line of a cache holds writes that its stack does not have: a dirty line, or writes that wait. -/
def LineCache.unwritten (c : LineCache) (k : LineKey) : Bool :=
  (c.lines.any fun l => l.key = k && l.dirty) || (c.fills.any fun f => f.key = k && f.waiting.any fun r => r.write.isSome)
    || c.inq.any fun r => r.key = k && r.write.isSome

namespace Machine

/-! ### Extents (R290, R291) -/

/-- The extent tables of every die change. -/
def State.extentGen (s : State) : State := (List.range 8).foldl (fun s d => s.tick R.HBM_XT_GEN.GEN d) s

/-- The stores to pages that wait in the merge buffers are applied; each is still acknowledged in its turn (R451). -/
def State.flushMerge (s : State) (within : Nat → Bool) : State :=
  let ms := s.wor.merge.flatMap fun e => e.2.filter fun m => within m.line
  let s := ms.foldl (fun s m => if m.bytes.isEmpty then s else s.coherentWrite m.line m.bytes) s
  { s with wor := { s.wor with merge := s.wor.merge.mapVal fun _ l => l.map fun m => if within m.line then { m with bytes := [] } else m } }

/-- Pages of a stack go from the line caches, their dirty lines and the writes that wait for them written back, stores in the merge
buffers among them; fills in flight go with them, and what waited is answered (R219, R291). -/
def State.flushPages (s : State) (page n : Nat) : State :=
  let inside (l : Nat) : Bool := decide (page * 16 ≤ l) && decide (l < (page + n) * 16)
  let within (k : LineKey) : Bool := match k with | .hbm l => inside l | .wor _ => false
  let s := s.flushMerge inside
  let d := page * 16 / 2 ^ 29
  let c := s.cache d
  let rs := (c.fills.filter fun f => within f.key).flatMap (fun f => f.waiting) ++ c.inq.filter fun r => within r.key
  let ks := (((c.lines.map fun l => l.key) ++ rs.map fun r => r.key).filter fun k => within k && c.unwritten k).eraseDups
  let data (k : LineKey) : List Byte := match k with | .hbm l => s.seenLine l | .wor _ => zeroLine
  let t := ks.foldl (fun t k => match k with
    | .hbm l => t.writeBack l (fullBytes (s.seenLine l))
    | .wor _ => t) s
  let t := t.setCache d { lines := c.lines.filter fun l => !within l.key, lost := c.lost.filter fun k => !within k
                          fills := c.fills.filter fun f => !within f.key, inq := c.inq.filter fun r => !within r.key }
  rs.foldl (fun t r => t.answer r (if r.write.isSome then [] else data r.key) false) t

/-- Device pages zeroed before they join a clearing (R199): writes on their way to them, what the caches hold of them, and
their bad lines go. -/
def State.zeroPages (s : State) (page n : Nat) : State :=
  let out (l : Nat) : Bool := decide (l < page * 16) || decide ((page + n) * 16 ≤ l)
  let s := s.flushPages page n
  { s with mem := { s.mem with
      hbm := s.mem.hbm.zero (page * 4096) (n * 4096)
      wb := s.mem.wb.filter fun w => out w.line
      hbmBad := s.mem.hbmBad.filter fun a => out (a / 4) } }

/-- An extent leaves an owner's table on every die. -/
def State.removeExtent (s : State) (o i : Nat) : State :=
  match s.mem.extents.find (o, i) with
  | none => s
  | some e =>
    let s := s.flushPages e.devPage e.pages
    let s := { s with mem := { s.mem with extents := s.mem.extents.del (o, i) } }
    let s := s.wr R.SCH_TEN_BUDGET.EXTENTS (s.rd R.SCH_TEN_BUDGET.EXTENTS 0 o - 1) 0 o
    (s.tick R.SCH_TEN_GEN.GEN).extentGen

/-! ### Streams, stores and FEC queues of an owner -/

/-- The streams of a cluster that leave: their routes, what routers hold of them, their FEC ports. -/
def State.dropStreams (s : State) (o : Nat) : State :=
  let mine := s.str.streams.filter fun e => e.2.owner = o
  let num (cluster n : Nat) : Bool := mine.any fun e => e.1 = (cluster, n)
  let at_ (site n : Nat) : Bool := num (Unit.clusterOf site) n
  let cls := (mine.map fun e => e.1.1).eraseDups
  let port (p : PortId) : Bool := mine.any fun e => e.2.producer = p || e.2.consumer = p
  let s : State := { s with
    str := { s.str with
      streams := s.str.streams.filter fun e => e.2.owner ≠ o
      routes := s.str.routes.filter fun e => !at_ e.1.1 e.1.2
      bufs := s.str.bufs.map fun e => (e.1, e.2.filter fun x => !at_ e.1.site x.tag.stream)
      used := s.str.used.filter fun e => !at_ e.1.1 e.1.2.2
      ports := s.str.ports.filter fun e => match e.1 with
        | .fecIn .. | .fecOut .. => !port e.1
        | _ => true }
    }
  let s := s.eng.fec.foldl (fun (s : State) e =>
    let b := e.2.without o
    s.setFec e.1 { b with arrived := b.arrived.filter fun x => !num e.1 x.1, emitted := b.emitted.filter fun x => !num e.1 x.1
                          resultPort := b.resultPort.filter fun x => !num e.1 x.1 }) s
  cls.foldl (fun s c => s.tick R.STR_ROUTE_GEN.GEN c) s

/-- The cluster-store blocks of an owner return to the pool. -/
def State.dropBlocks (s : State) (o : Nat) : State :=
  let cls := (s.mem.blockOwner.filterMap fun e => if e.2 = o then some e.1.1 else none).eraseDups
  let s := { s with mem := { s.mem with blockOwner := s.mem.blockOwner.filter fun e => e.2 ≠ o } }
  cls.foldl (fun s c => s.tick R.CLU_OWN_GEN.GEN c) s

/-- What the device still holds of requests that an owner's movers have issued is answered to no one. -/
def State.forgetRequests (s : State) (o : Nat) : State :=
  let wait (w : FabricWait) : Bool := match w with | .write _ r => r.owner = o | _ => false
  let s := { s with mem := { s.mem with lc := s.mem.lc.mapVal fun _ c => c.forget o } }
  s.forgetFabric wait

/-- Whether a request of an owner's movers is still to be answered. -/
def State.requestsLeft (s : State) (o : Nat) : Bool :=
  let wait (w : FabricWait) : Bool := match w with | .write _ r => r.owner = o | _ => false
  (s.mem.lc.any fun e => e.2.inq.any (LcReq.moverOf o) || e.2.fills.any fun f => f.waiting.any (LcReq.moverOf o))
    || (s.wor.dests.any fun e => (e.2.unacked.any fun u => wait u.wait && !u.answered && !u.acked) || e.2.waiting.any fun x => wait x.2.1)

/-! ### Contexts and the image -/

/-- Every context of an owner stops without a save (R298 step 3, R364), and lent shapes it borrowed are recalled; the host
requests its movers had issued. A glade shape that is lent stops once it has been returned (R371). -/
def State.stopClearing (s : State) (o : Nat) : State × List (Nat × MovReq) :=
  (s.ctxIxs o).foldl (fun (st : State × List (Nat × MovReq)) i =>
    if s.sched.lent.has (o, i) then st else let (s, hosts) := st.1.stopOne (o, i); (s, st.2 ++ hosts)) (s, [])

/-- The borrow contexts placed on a glade become home contexts of the same cores and slots (R371): one that is parked, or whose restore
has not ended, is saved; one that is on its cores is stopped and saved as any other. -/
def State.freeBorrowers (s : State) (o : Nat) : State :=
  let ks := (s.sched.ctxs.filter fun e => e.2.kind = .borrow && e.2.host.any fun h => h.1 = o).map fun e => e.1
  let s := ks.foldl (fun s k => match s.ctx k with
    | none => s
    | some (c : Ctx) =>
      let s := if c.res = CtxRes.restoring then s.charge k false else s
      let s := if c.res = CtxRes.resident then s.stopCtx k c else s
      let s := match s.ctx k with
        | some (d : Ctx) => s.setCtx k { d with kind := CtxKind.home, host := none, res := if d.res = CtxRes.saving then d.res else CtxRes.saved }
        | none => s
      s.decide_ c.cluster) s
  { s with sched := { s.sched with lent := s.sched.lent.filter fun e => e.1.1 ≠ o } }

/-- The clearing gives up its image: its cores, stream numbers, link slots, cluster-store blocks and radio resources
return to the pool, and it holds no image (R298 step 6, R256). -/
def State.releaseImage (s : State) (o : Nat) : State :=
  let (s, _) := s.stopClearing o
  let s := (s.dropRadio o).freeBorrowers o
  let s := (s.ctxIxs o).foldl (fun s i => s.dropCtx (o, i)) s
  let s := ((s.dropStreams o).dropBlocks o).forgetRequests o
  let s := { s with ten := { s.ten with images := s.ten.images.del o }
                    sched := { s.sched with released := s.sched.released.del o
                                            groups := s.sched.groups.filter fun e => e.1.1 ≠ o
                                            urgentAt := s.sched.urgentAt.filter fun e => e.1.1 ≠ o } }
  let s : State := if s.mgt.resident.has o then State.tick { s with mgt := { s.mgt with resident := s.mgt.resident.del o } } R.SEC_GEN.GEN else s
  if s.holdsImage o then ((s.wr R.SCH_TEN_CFG.IMAGE 0 0 o).tick R.SCH_TEN_GEN.GEN).tick R.GLB_DET_GEN.GEN else s

/-! ### The end of a reset or removal (R298 steps 5 to 7, R300) -/

/-- The queues of a removed clearing go; one whose committed items still have effects to emit goes with the last of
them (R298). -/
def State.returnQueues (s : State) (o : Nat) : State :=
  (s.que.queues.filter fun e => e.2.owner = o && !e.2.leaving).foldl (fun s e =>
    let s := (s.voidWriting e.1).tick R.QUE_GEN.GEN
    match s.queue e.1 with
    | some v => if v.lost then s.endLeaving e.1 else s.keepQueue e.1 { v.free with leaving := true }
    | none => s) s

/-- What a removal returns: extents, queues, fabric windows, the virtual function; STATE becomes Free. A queue that still has effects to
emit is held until the last of them (log entry 143). -/
def State.finishRemoval (s : State) (o : Nat) : State :=
  let s := (List.range 32).foldl (fun s i => s.removeExtent o i) s
  let held := (s.que.queues.filter fun e => e.2.owner = o && !e.2.leaving).length
  let s := s.returnQueues o
  let wins : WorSt := { s.wor with imports := s.wor.imports.filter fun e => e.1.1 ≠ o
                                   exports := s.wor.exports.filter fun e => e.2.owner ≠ o }
  let s : State := State.tick { s with wor := wins } R.WOR_GEN.GEN
  let q := s.rd R.SCH_POOL.FREE_QUEUES + (s.rd R.SCH_TEN_BUDGET.QUEUES 0 o - held)
  let s := (s.wr R.SCH_POOL.FREE_QUEUES q).wr R.SCH_POOL.CLEARINGS (s.rd R.SCH_POOL.CLEARINGS - 1)
  let s := if s.rd R.SCH_TEN_CFG.REACH 0 o = 1 then s.wr R.SCH_POOL.VFS_BOUND (s.rd R.SCH_POOL.VFS_BOUND - 1) else s
  let s : State := { s with sched := { s.sched with tags := s.sched.tags.filter fun e => e.1.1 ≠ o } }
  let s : State := [R.SCH_TEN_CFG.STATE, R.SCH_TEN_CFG.CLASS, R.SCH_TEN_CFG.REACH, R.SCH_TEN_CFG.VF, R.SCH_TEN_CFG.NODE,
    R.SCH_TEN_BUDGET.CORES, R.SCH_TEN_BUDGET.QUEUES, R.SCH_TEN_BUDGET.EXTENTS].foldl (fun (s : State) f => s.wr f 0 0 o) s
  s.tick R.SCH_TEN_GEN.GEN

/-- The export windows of an owner are unmapped (R458). -/
def State.dropExports (s : State) (o : Nat) : State :=
  let es := s.wor.exports.filter fun e => e.2.owner ≠ o
  if es = s.wor.exports then s else State.tick { s with wor := { s.wor with exports := es } } R.WOR_GEN.GEN

/-- Steps 5 to 7 of R298, or the rest of R300. -/
def State.finishReset (s : State) (o : Nat) (squashed : Bool) : State :=
  match s.ten.resets.find o with
  | none => s
  | some r =>
    let (s, n) := s.cancelItems o
    let s := (s.releaseImage o).dropExports o
    let s : State := { s with ten := { s.ten with resets := s.ten.resets.del o }, err := { s.err with orphans := s.err.orphans.del o } }
    let s := s.refreshHealth
    let s := s.wr R.SCH_TEN_RESET.DURATION_US (min 0xFFFFFF ((s.elapsed - r.start) / 5000)) 0 o
    let s := (s.wr R.SCH_TEN_RESET.SQUASHED (if squashed then 1 else 0) 0 o).wr R.SCH_TEN_RESET.SOURCE r.source 0 o
    let s := s.wr R.SCH_TEN_RESET.CANCELLED (min 0xFFFFFFFF n) 0 o
    let s := if s.tenState o = 3 then s.finishRemoval o else (s.wr R.SCH_TEN_CFG.STATE 1 0 o).tick R.SCH_TEN_GEN.GEN
    s.eventTenantReset

/-- Step 3 of R298: the clearing's engines and movers stop, and the drain begins. -/
def State.beginDrain (s : State) (o : Nat) : State :=
  match s.ten.resets.find o with
  | none => s
  | some r =>
    let (s, left) := s.stopClearing o
    let mine (it : ItemRef) : Bool := match s.queue it.queue with | some v => v.owner = o | none => false
    let s : State := { s with failed := s.failed.filter fun e => !mine e.1 }
    { s with ten := { s.ten with resets := s.ten.resets.put o { r with step := .drain, step3 := s.elapsed, left := left } } }

end Machine
end Sys2Proof
end

