-- ==== Sys2Proof/Machine/Placement.lean ====
section
/-!
DEFINITION. Placement (R54, R346 to R348, R390, R488): which cores, borrow slots and radio resources are free, and the scan
that places the groups of an image.
-/
namespace Sys2Proof

/-- Why a load is refused (Table 7.4): REASON, the fields of GLB_IMG_DETAIL, and for 0x51 what RAD_ADMIT records: the
kind of check and the cluster. -/
structure LoadRefusal where
  reason : Nat
  sec : Nat := 0
  die : Nat := 0
  cluster : Nat := 0
  site : Nat := 0
  dir : Nat := 0
  need : Nat := 0
  avail : Nat := 0
  kind : Nat := 0
  radCluster : Nat := 0
  deriving DecidableEq, Repr

/-- Slot entries a cell counts (R377). -/
def slotEntries (mu : Nat) : Nat := if mu = 3 then 4 else 1

/-- Cores of a shape. -/
def ImgShape.size (v : ImgShape) : Nat := v.dims.1 * v.dims.2

/-- The allowed anchors of a shape code, by ascending row and column (Table 2.2). -/
def anchors (loose : Bool) (code : Nat) : List (Nat × Nat) :=
  let all := (List.range 8).flatMap fun r => (List.range 8).map fun c => (r, c)
  if loose then all
  else match code with
    | 0 => all
    | 1 => all.filter fun a => a.1 % 2 = 0 && a.2 % 2 = 0
    | 2 => all.filter fun a => a.1 % 4 = 0 && a.2 % 4 = 0
    | 3 => [(0, 0)]
    | 4 => all.filter fun a => a.2 = 0
    | _ => []

/-- KiB of core store an image claims for a core. -/
def Image.useKiB (i : Image) (core : Nat) : Nat := match i.cores[core]? with | some c => c.storeKiB + c.combKiB | none => 0

/-- Ports of an image core that streams and queues bind: ingress, egress, and whether any is a signal engine's. -/
def Image.portsOf (i : Image) (core : Nat) : List Nat × List Nat × Bool :=
  let ps := (i.streams.flatMap fun v => [v.prod, v.cons]) ++ i.queues.flatMap fun q => q.entry.toList ++ q.exits
  ps.foldl (fun (st : List Nat × List Nat × Bool) p => match p with
    | .ingress c k => if c = core then (st.1 ++ [k], st.2) else st
    | .egress c k => if c = core then (st.1, st.2.1 ++ [k], st.2.2) else st
    | .sigIn c _ | .sigOut c _ => if c = core then (st.1, st.2.1, true) else st
    | _ => st) ([], [], false)

/-- Radio resources: slot entries, ingress flows, decode units, encode units. -/
structure RadUse where
  entries : Nat := 0
  flows : Nat := 0
  dec : Nat := 0
  enc : Nat := 0
  deriving DecidableEq, Repr

/-- Two uses together. -/
def RadUse.plus (a b : RadUse) : RadUse := ⟨a.entries + b.entries, a.flows + b.flows, a.dec + b.dec, a.enc + b.enc⟩

/-- What the cells of a group claim of its cluster (R377, R378). -/
def ImgRadio.groupUse (r : ImgRadio) (g : Nat) : RadUse :=
  (r.cells.filter fun c => c.group = g).foldl (fun u c => u.plus
    { entries := slotEntries r.mu, dec := c.dec, enc := c.enc
      flows := (r.flows.filter fun f => !f.egress && f.cell = c.cell).length }) {}

/-- The first resource of a cluster that a claim does not fit beside what is used: its KIND (RAD_ADMIT), need, room. -/
def RadUse.lack (claim used : RadUse) : Option (Nat × Nat × Nat) :=
  if 24 < used.entries + claim.entries then some (2, claim.entries, 24 - used.entries)
  else if 96 < used.flows + claim.flows then some (3, claim.flows, 96 - used.flows)
  else if 1800 < used.dec + claim.dec then some (4, claim.dec, 1800 - used.dec)
  else if 900 < used.enc + claim.enc then some (5, claim.enc, 900 - used.enc)
  else none

/-- The groups of a loaded image as placed: group, cluster, whether it is the standby. Groups that have left the glade no
longer count (R490). -/
def Loaded.groupsAt (l : Loaded) : List (Nat × Nat × Bool) :=
  ((l.placed.filter fun p => p.standby || !l.gone.contains p.group).map fun p => (p.group, p.cluster, p.standby)).eraseDups

/-- Whether a group claims FEC units. -/
def ImgRadio.usesFec (r : ImgRadio) (g : Nat) : Bool := decide (0 < (r.groupUse g).dec) || decide (0 < (r.groupUse g).enc)

namespace Machine

/-- Whether logical column `j` is joinable across package rows `r` and `r + 1` (R54). -/
def State.joinable (s : State) (r j : Nat) : Bool :=
  match s.logicalSite r j, s.logicalSite (r + 1) j with
  | some a, some b => decide (Unit.colOf a ≤ Unit.colOf b + 1) && decide (Unit.colOf b ≤ Unit.colOf a + 1)
  | _, _ => false

/-- The site of a logical core of a cluster that is in service. -/
def State.placeSite (s : State) (c : Nat) (rc : Nat × Nat) : Option Nat :=
  (s.logicalSite (c * 8 + rc.1) rc.2).filter fun k => s.siteActive k && match (s.siteRec k).state with
    | .good | .suspect | .probation => true
    | _ => false

/-- Contexts other than an owner's that hold a logical core. -/
def State.holders (s : State) (o c : Nat) (rc : Nat × Nat) : List Ctx :=
  s.sched.ctxs.filterMap fun e =>
    if e.1.1 ≠ o && e.2.cluster = c && e.2.kind ≠ .borrow && e.2.cores.contains rc then some e.2 else none

/-- Whether a core is free for a shape at depth `k` (R346); `glade` for a glade group. `taken` lists the cores that
earlier shapes of the load took. -/
def State.coreFree (s : State) (o : Nat) (glade : Bool) (k c : Nat) (taken : List (Nat × Nat × Nat)) (rc : Nat × Nat) : Bool :=
  match s.placeSite c rc with
  | none => false
  | some site =>
    let hs := s.holders o c rc
    let free := if glade then hs.isEmpty && (s.siteRec site).state ≠ .probation
      else hs.all (fun h => h.kind ≠ .glade) && decide (hs.length ≤ k)
    free && !taken.contains (c, rc.1, rc.2)

/-- The lowest context slot that is empty on every core of a block. -/
def State.emptySlot (s : State) (o c : Nat) (cores : List (Nat × Nat)) : Option Nat :=
  (List.range 4).find? fun t => cores.all fun rc => (s.holders o c rc).all fun h => h.slot ≠ t

/-- The anchor and slot a shape finds in a cluster at depth `k` (R346). -/
def State.fitShape (s : State) (o : Nat) (glade : Bool) (k c : Nat) (taken : List (Nat × Nat × Nat)) (v : ImgShape) :
    Option ((Nat × Nat) × Nat) :=
  (anchors v.loose v.code).findSome? fun a =>
    let cs := coresAt v a
    let joins := (List.range (v.dims.1 - 1)).all fun i => (List.range v.dims.2).all fun j =>
      s.joinable (c * 8 + a.1 + i) (a.2 + j)
    if joins && cs.all (s.coreFree o glade k c taken) then (s.emptySlot o c cs).map fun t => (a, t) else none

/-- The lendable glade shapes of a cluster, by ascending anchors, with their declarations. -/
def State.hosts (s : State) (c : Nat) : List ((Nat × Nat) × Ctx × LendDecl) :=
  let l := s.sched.ctxs.filterMap fun e =>
    if e.2.kind = .glade && e.2.cluster = c then
      ((s.loaded e.1.1).bind fun l => (l.placed[e.1.2]?).bind fun p => p.shape.lend).map fun d => (e.1, e.2, d)
    else none
  sortBy (fun a b => lexLt [a.2.1.row, a.2.1.col] [b.2.1.row, b.2.1.col]) l

/-- KiB of lend window a borrow context takes on its core `j` (R348). -/
def State.borrowUse (s : State) (k : Nat × Nat) (j : Nat) : Nat :=
  match s.loaded k.1 with
  | none => 64
  | some l => match (l.placed[k.2]?).bind fun p => p.shape.cores[j]? with
    | some n => l.img.useKiB n + 64
    | none => 64

/-- Whether a glade shape is free for a borrow shape at depth `k` (R348); `room` leaves out the window and port checks. -/
def State.hostFree (s : State) (o k : Nat) (img : Image) (v : ImgShape) (room : Bool) (taken : List (Nat × Nat))
    (h : (Nat × Nat) × Ctx × LendDecl) : Bool :=
  let on := s.sched.ctxs.filter fun e => e.2.kind = .borrow && e.2.host = some h.1 && e.1.1 ≠ o
  let base := (h.2.1.loose = v.loose) && (v.loose || h.2.1.code = v.code) && decide (on.length ≤ k) && !taken.contains h.1
  let fits := v.cores.zipIdx.all fun x =>
    let used := on.foldl (fun n e => n + s.borrowUse e.1 x.2) 0
    let ps := img.portsOf x.1
    decide (used + img.useKiB x.1 + 64 ≤ h.2.2.units * 64) && ps.1.all h.2.2.ingress.contains && ps.2.1.all h.2.2.egress.contains
      && !ps.2.2
  base && (room || fits)

/-- The shape a borrow shape takes, and its borrow slot. -/
def State.fitBorrow (s : State) (o k c : Nat) (img : Image) (taken : List (Nat × Nat)) (v : ImgShape) :
    Option (((Nat × Nat) × Ctx × LendDecl) × Nat) :=
  ((s.hosts c).find? (s.hostFree o k img v false taken)).bind fun h =>
    let on := s.sched.ctxs.filter fun e => e.2.kind = .borrow && e.2.host = some h.1 && e.1.1 ≠ o
    ((List.range 4).find? fun t => on.all fun e => e.2.slot ≠ t).map fun t => (h, t)

/-- The shapes of group `gi` placed in a cluster at depth `k`, or the shape that does not fit. -/
def State.fitGroup (s : State) (o : Nat) (img : Image) (k c gi : Nat) (standby : Bool) (before : List Placed) (g : ImgGroup) :
    Except ImgShape (List Placed) :=
  let glade := img.glade
  let cells (p : Placed) : List (Nat × Nat × Nat) := (coresAt p.shape (p.row, p.col)).map fun rc => (p.cluster, rc.1, rc.2)
  g.shapes.foldl (fun (st : Except ImgShape (List Placed)) v =>
    match st with
    | .error e => .error e
    | .ok ps =>
      let all := before ++ ps
      if g.borrow then
        match s.fitBorrow o k c img (all.filterMap fun p => p.host) v with
        | some (h, t) => .ok (ps ++ [{ group := gi, shape := v, cluster := c, row := h.2.1.row, col := h.2.1.col, slot := t,
                                       borrow := true, host := some h.1 }])
        | none => .error v
      else
        let taken := (all.filter fun p => !p.borrow).flatMap cells
        match s.fitShape o glade k c taken v with
        | some (a, t) => .ok (ps ++ [{ group := gi, shape := v, cluster := c, row := a.1, col := a.2, slot := t, standby := standby }])
        | none => .error v) (.ok [])

/-! ### Radio resources (R377, R390) -/

/-- Radio resources that loaded glades other than `o` hold in a cluster. -/
def State.radioUse (s : State) (o c : Nat) : RadUse :=
  s.ten.images.foldl (fun u e =>
    if e.1 = o then u
    else match e.2.img.radio with
      | none => u
      | some r => (e.2.groupsAt.filter fun g => g.2.1 = c).foldl (fun u g => u.plus (r.groupUse g.1)) u) {}

/-- The same of the groups this load has placed. -/
def loadUse (img : Image) (ps : List Placed) (c : Nat) : RadUse :=
  match img.radio with
  | none => {}
  | some r => ((ps.filter fun p => p.cluster = c).map fun p => (p.group, p.standby)).eraseDups.foldl (fun u g => u.plus (r.groupUse g.1)) {}

/-- Slot entries of the package that are not admitted (RAD_CAPACITY), glade `o` left out. -/
def State.freeEntries (s : State) (o : Nat) : Nat :=
  384 - (List.range 16).foldl (fun n c => n + (s.radioUse o c).entries) 0

/-- What stops a group whose cores fit from a cluster: a FEC block out of service alone, or a count. -/
def State.radioLack (s : State) (o : Nat) (img : Image) (ps : List Placed) (c gi : Nat) : Option (Option (Nat × Nat × Nat)) :=
  match img.radio with
  | none => none
  | some r =>
    match (r.groupUse gi).lack ((s.radioUse o c).plus (loadUse img ps c)) with
    | some x => some (some x)
    | none => if r.usesFec gi && !s.flag R.FEC_CTRL.IN_SERVICE c then some none else none

/-! ### The scan (R346, R390) -/

/-- Whether a cluster is in service. -/
def State.clusterIn (s : State) (c : Nat) : Bool := s.flag R.CLU_STATE.IN_SERVICE c && s.dieUp (c / 2)

/-- Cores of the package that are free for a loose core of the load, or for a borrow group the cores of the glade shapes
free for a borrow shape (R346). -/
def State.availCores (s : State) (o : Nat) (img : Image) (borrow : Bool) (ps : List Placed) : Nat :=
  if borrow then
    (List.range 16).foldl (fun n c => n + ((s.hosts c).filter fun h =>
      s.hostFree o 3 img { loose := h.2.1.loose, code := h.2.1.code, cores := [] } true (ps.filterMap fun p => p.host) h).foldl
        (fun n h => n + h.2.1.size) 0) 0
  else
    let taken := ps.flatMap fun p => if p.borrow then [] else (coresAt p.shape (p.row, p.col)).map fun rc => (p.cluster, rc.1, rc.2)
    (List.range 16).foldl (fun n c => if s.clusterIn c then
      n + ((anchors true 0).filter (s.coreFree o img.glade (if img.glade then 0 else 3) c taken)).length else n) 0

/-- One group placed after those of `ps` (R346, R390); `away` names a die its standby must not share (15.7). -/
def State.placeGroup (s : State) (o : Nat) (img : Image) (ps : List Placed) (gi : Nat) (g : ImgGroup) (away : Option Nat) :
    Except LoadRefusal (List Placed) :=
  let clusters := (List.range 16).filter fun c => s.clusterIn c && away.all fun d => c / 2 ≠ d
  let fit (k c : Nat) : Except ImgShape (List Placed) := s.fitGroup o img k c gi away.isSome ps g
  let depths := if img.glade then [0] else [0, 1, 2, 3]
  let tries := depths.flatMap fun k => clusters.map fun c => (k, c)
  let good (kc : Nat × Nat) : Option (List Placed) :=
    match fit kc.1 kc.2 with
    | .ok l => if (s.radioLack o img ps kc.2 gi).isNone then some l else none
    | .error _ => none
  match tries.findSome? good with
  | some l => .ok (ps ++ l)
  | none =>
    let last := if img.glade then 0 else 3
    let fitting := clusters.filter fun c => match fit last c with | .ok _ => true | .error _ => false
    let lacks := fitting.filterMap fun c => (s.radioLack o img ps c gi).map fun x => (c, x)
    match fitting, lacks.find? fun x => x.2.isSome, lacks with
    | [], _, _ =>
      let need := match clusters with
        | c :: _ => match fit last c with | .error v => v.size | .ok _ => 0
        | [] => ((g.shapes.head?).map ImgShape.size).getD 0
      .error { reason := 0x21, need := need, avail := s.availCores o img g.borrow ps }
    | _, some (c, some (kind, need, avail)), _ => .error { reason := 0x51, need := need, avail := avail, kind := kind, radCluster := c }
    | _, _, (c, _) :: _ => .error { reason := 0x50, die := c / 2, cluster := c % 2 }
    | _, _, [] => .error { reason := 0x21 }

/-- All the groups of an image, then the standbys of its protected groups (R346, R488), after the package check of R390. -/
def State.place (s : State) (o : Nat) (img : Image) : Except LoadRefusal (List Placed) :=
  let need := match img.radio with
    | none => 0
    | some r => r.cells.foldl (fun n c =>
        n + slotEntries r.mu * (if ((img.groups[c.group]?).map ImgGroup.prot).getD false then 2 else 1)) 0
  let room := s.freeEntries o
  if room < need then .error { reason := 0x51, need := need, avail := room, kind := 1 }
  else
    let gs := img.groups.zipIdx
    let step (st : Except LoadRefusal (List Placed)) (x : ImgGroup × Nat) : Except LoadRefusal (List Placed) :=
      match st with
      | .error e => .error e
      | .ok ps => s.placeGroup o img ps x.2 x.1 none
    let again (st : Except LoadRefusal (List Placed)) (x : ImgGroup × Nat) : Except LoadRefusal (List Placed) :=
      match st with
      | .error e => .error e
      | .ok ps => match ps.find? fun p => p.group = x.2 with
        | some p => s.placeGroup o img ps x.2 x.1 (some (p.cluster / 2))
        | none => .ok ps
    (gs.filter fun x => x.1.prot && img.glade).foldl again (gs.foldl step (.ok []))

end Machine
end Sys2Proof
end

