-- ==== Sys2Proof/Machine/Images.lean ====
section
/-!
DEFINITION. Rilpor images (chapter 7): the checks of Table 7.4, the phases of a load, the switch windows, and what events
meet a load.
-/
namespace Sys2Proof

/-- GLB_PART of stepping A1, all 64 bits (R42). -/
def partNumber : Nat := 0x0000_0A17_0141_5A38

/-- `n` bytes of an image at an offset, as a little-endian number (7.2). -/
def fieldAt (bs : List Byte) (off n : Nat) : Nat := Machine.leNat ((bs.drop off).take n)

/-- The entry of the section table at an offset (R239). -/
def SectEnt.ofBytes (bs : List Byte) (off : Nat) : SectEnt :=
  { typ := fieldAt bs off 2, index := fieldAt bs (off + 2) 2, offset := fieldAt bs (off + 4) 4, length := fieldAt bs (off + 8) 4
    odd := fieldAt bs (off + 12) 4 ≠ 0 }

/-- The header of Table 7.2 and the section table behind it, from the first bytes of an image (R238, R239). -/
def ImgHeader.ofBytes (bs : List Byte) : ImgHeader :=
  { magic := fieldAt bs 0x000 4, format := fieldAt bs 0x004 2, cls := fieldAt bs 0x006 1, part := fieldAt bs 0x008 8
    minFw := fieldAt bs 0x010 4, secVer := fieldAt bs 0x014 4, imageId := fieldAt bs 0x018 8, totalLen := fieldAt bs 0x020 4
    sigOff := fieldAt bs 0x028 4, keyId := fieldAt bs 0x030 8
    sects := (List.range (fieldAt bs 0x024 2)).map fun k => SectEnt.ofBytes bs (0x080 + 16 * k)
    odd := fieldAt bs 0x007 1 ≠ 0 ∨ fieldAt bs 0x026 2 ≠ 0 ∨ fieldAt bs 0x02C 4 ≠ 0 ∨ fieldAt bs 0x038 72 ≠ 0 }

/-- Whether the bytes of a container up to its signatures have the magic and class of their kind and this part's number, and end at SIG_OFF
(R527, R528). -/
def containerOf (magic cls : Nat) (bs : List Byte) : Bool :=
  let h := ImgHeader.ofBytes bs
  decide (h.magic = magic ∧ h.format = 1 ∧ h.cls = cls ∧ h.part = partNumber ∧ h.sigOff = bs.length)

/-- Mewait's own version, in place of MIN_FW (R527). -/
def FwImage.version (f : FwImage) : Nat := (ImgHeader.ofBytes f.bytes).minFw

/-- SEC_VER of a Mewait image. -/
def FwImage.secVer (f : FwImage) : Nat := (ImgHeader.ofBytes f.bytes).secVer

/-- Whether a Mewait image passes the checks of R528, but for its floor. -/
def FwImage.genuine (f : FwImage) : Bool := f.signed && containerOf 0x5457454D 0xF0 f.bytes

/-- The measurement of a container (R528): SHA-384 over its bytes 0 to SIG_OFF - 1. -/
def FwImage.measure (f : FwImage) : List Byte := Sha.sha384 f.bytes

/-- Whether the manifest passes the checks of R528, which holds it to no floor. -/
def Manifest.genuine (m : Manifest) : Bool := m.signed && containerOf 0x53464E4D 0xF1 m.bytes

/-- The measurement of the manifest. -/
def Manifest.measure (m : Manifest) : List Byte := Sha.sha384 m.bytes

/-- The index of the first section table entry of a type and index. -/
def ImgHeader.sec (h : ImgHeader) (typ : Nat) (ix : Nat := 0) : Nat :=
  (h.sects.findIdx? fun e => e.typ = typ && e.index = ix).getD 0

/-- The first section entry that breaks R236, R239 or R240, or 0 where the header itself or the counts do. -/
def ImgHeader.broken (h : ImgHeader) : Option Nat :=
  let lo := 0x80 + 16 * h.sects.length
  let count (t : Nat) : Nat := (h.sects.filter fun e => e.typ = t).length
  let badEnt (x : SectEnt × Nat) : Bool :=
    let e := x.1
    e.odd || decide (e.typ = 0 ∨ 10 < e.typ) || (e.typ ≠ 6 && decide (e.index ≠ 0)) || decide (e.offset % 64 ≠ 0 ∨ e.offset < lo)
      || decide (h.sigOff < e.offset + e.length) || (e.typ = 6 && decide (384 * 1024 < e.length))
      || (h.sects.take x.2).any fun f => (f.typ = e.typ && f.index = e.index)
           || (decide (f.offset < e.offset + e.length) && decide (e.offset < f.offset + f.length))
  let hdr := decide (h.magic ≠ 0x52504C52 ∨ h.format ≠ 1 ∨ 1 < h.cls ∨ h.sects.length < 3 ∨ 4096 < h.sects.length
    ∨ h.sigOff % 64 ≠ 0 ∨ h.totalLen ≠ h.sigOff + 8240) || h.odd
  let counts := decide (count 1 ≠ 1 ∨ count 2 ≠ 1 ∨ count 3 ≠ 1) || decide (count 9 ≠ h.cls)
    || !(List.range (count 6)).all fun i => h.sects.any fun e => e.typ = 6 && e.index = i
  if hdr then some 0
  else match h.sects.zipIdx.find? badEnt with
    | some x => some x.2
    | none => if counts then some 0 else none

/-- Whether a NUMERIC section holds a reserved code, or ARRIVAL with DETERMINISM (R120). -/
def ImgNumeric.bad (n : ImgNumeric) : Bool :=
  (OpFormat.ofCode n.format).isNone || decide (3 < n.slice ∨ 7 < n.outFmt ∨ 2 < n.round) || (n.arrival && n.determinism)

/-- Whether every unit's piece of a reduction is aligned (R108): granules a to a + 2^m - 1, where a is a multiple of 2^m. -/
def alignedPlan (ps : List (Nat × Nat)) : Bool := ps.all fun p => decide (0 < p.2) && p.2 = 2 ^ Nat.log2 p.2 && decide (p.1 % p.2 = 0)

/-- Whether every node that comes to a combining stage, and the root that it forms, covers granules a to a + 2^m - 1 with a a multiple of
2^m (R108). -/
def SplitPlan.aligned (p : SplitPlan) : Bool :=
  ((p.rootGranule, p.rootLevel) :: p.nodes).all fun n => decide (n.1 % 2 ^ n.2 = 0)

/-- Whether the plan of a reduction holds an unaligned piece, in the PLAN section or at one of its combining stages (R108). -/
def Image.unalignedRed (i : Image) (r : Nat) : Bool :=
  (i.plan[r]?).any (fun q => !alignedPlan q) || i.cores.any fun c => c.plans.any fun p => p.reduction = r && !p.aligned

/-- Whether an image holds an unaligned plan (R108). -/
def Image.unaligned (i : Image) : Bool :=
  i.plan.any (fun p => !alignedPlan p) || i.cores.any fun c => c.plans.any fun p => !p.aligned

/-- Image cores of an image in the order of SHAPES. -/
def Image.shapes (i : Image) : List ImgShape := i.groups.flatMap fun g => g.shapes

/-! The counts of CLAIMS (Table 7.1): DESIGN CHOICE (log entry 121), they are those of the sections that hold what is counted, since the
spec describes no disagreement. -/

/-- Loose cores. -/
def Image.looseCount (i : Image) : Nat := (i.shapes.filter fun v => v.loose).length
/-- Shapes of a code. -/
def Image.shapeCount (i : Image) (code : Nat) : Nat := (i.shapes.filter fun v => !v.loose && v.code = code).length
/-- Queues. -/
def Image.queueCount (i : Image) : Nat := i.queues.length
/-- Streams. -/
def Image.streamCount (i : Image) : Nat := i.streams.length
/-- Cores of all shapes and loose cores. -/
def Image.coreCount (i : Image) : Nat :=
  (List.range 5).foldl (fun n c => n + i.shapeCount c * ((shapeDims c).elim 0 fun d => d.1 * d.2)) i.looseCount

/-- The groups whose standby is still to be released, each with the image as it lies once it has been (R490). -/
def Loaded.standbys (l : Loaded) : List (Nat × Loaded) :=
  (((l.placed.filter fun p => p.standby && !l.gone.contains p.group).map fun p => p.group).eraseDups).map fun g =>
    (g, { l with gone := g :: l.gone, streams := l.streams.zipIdx.map fun x => (l.sbStreams.find x.2).getD x.1 })

/-- The image as a placed shape has it: a standby that is not released yet has its own stream numbers (R489). -/
def Loaded.forShape (l : Loaded) (p : Placed) : Loaded :=
  if p.standby then ((l.standbys.find? fun x => x.1 = p.group).map fun x => x.2).getD l else l

/-- Whether a port belongs to a group: a FEC port of it, or a port of one of its cores. -/
def Loaded.inGroup (l : Loaded) (g : Nat) (p : ImgPort) : Bool :=
  match p with
  | .fecIn h _ | .fecOut h _ => h = g
  | _ => p.core?.any fun x => ((l.img.groups[g]?).map ImgGroup.shapes).getD [] |>.any fun v => v.cores.contains x.1

/-- The streams of a group, with their places in the STREAMS section. -/
def Loaded.groupStreams (l : Loaded) (g : Nat) : List (ImgStream × Nat) :=
  l.img.streams.zipIdx.filter fun x => l.inGroup g x.1.prod || l.inGroup g x.1.cons

/-- The number in its cluster of the stream that binds a port. -/
def Loaded.numberOf (l : Loaded) (p : ImgPort) : Nat :=
  ((l.img.streams.findIdx? fun v => v.prod = p || v.cons = p).bind fun k => (l.streams[k]?).map fun x => x.2).getD 0

/-- Whether a port of an image exists. -/
def ImgPort.exists_ (n g : Nat) : ImgPort → Bool
  | .ingress c p | .egress c p => decide (c < n) && decide (p < 8)
  | .sigIn c e | .sigOut c e => decide (c < n) && decide (e < 2)
  | .fecIn k _ | .fecOut k _ => decide (k < g)

/-- Whether a port is a FEC block's. -/
def ImgPort.isFec : ImgPort → Bool
  | .fecIn .. | .fecOut .. => true
  | _ => false

/-- A bandwidth of fronthaul flows in Ziura units of 1/256 of 2.4 TB/s (75,000 Mb/s), rounded up. -/
def ziuraUnits (mbps : Nat) : Nat := (mbps + 74999) / 75000

/-- A route by logical grid: first along the row to the consumer's column, then along the column (R176). Each hop is the
router's site and the direction it sends. -/
def routeHops (a b : Nat) : List (Nat × Dir) :=
  let ca := Unit.colOf a
  let cb := Unit.colOf b
  let ra := Unit.rowOf a
  let rb := Unit.rowOf b
  let h := if ca ≤ cb then (List.range (cb - ca)).map fun k => (a + k, Dir.east) else (List.range (ca - cb)).map fun k => (a - k, Dir.west)
  let c := a - ca + cb
  let v := if ra ≤ rb then (List.range (rb - ra)).map fun k => (c + 9 * k, Dir.south)
    else (List.range (ra - rb)).map fun k => (c - 9 * k, Dir.north)
  h ++ v

/-- DIR of a link direction (Table 5.9). -/
def Dir.code : Dir → Nat
  | .east => 0 | .west => 1 | .north => 2 | .south => 3 | .localPort => 0

/-- The least number not in a list. -/
def firstFree (used : List Nat) (n : Nat) : Nat := ((List.range n).find? fun k => !used.contains k).getD n

/-- Reserved slots of a stream as the device installs it: none for a borrow context's (R368). -/
def Loaded.resOf (l : Loaded) (v : ImgStream) : Nat :=
  let borrow (p : ImgPort) : Bool := match p.core? with
    | some (c, _) => ((l.coreAt c).bind fun x => l.placed[x.1]?).any fun q => q.borrow
    | none => false
  if borrow v.prod ∨ borrow v.cons then 0 else v.res

/-- Cluster-store blocks a placed image needs in a cluster. -/
def Loaded.blockNeed (l : Loaded) (c : Nat) : Nat :=
  ((l.placed.filter fun p => p.cluster = c).map fun p => (p.group, p.standby)).eraseDups.foldl (fun n g =>
    n + ((l.img.groups[g.1]?).map ImgGroup.blocks).getD 0) 0

/-- The shape index of the context an image port lies on. -/
def Loaded.ctxOf (l : Loaded) (p : ImgPort) : Option Nat := p.core?.bind fun c => (l.coreAt c.1).map fun x => x.1

/-- The registers that a register record may set: the configuration of an engine that no other section of an image gives.
COR_NUMCFG and COR_SR_SEED come from the NUMERIC section alone, so that no record can set ARRIVAL beside DETERMINISM
(R120); TNS_CFG comes from the placement, VEC_COMB_CFG from the combining area. -/
def recordRegs : List RegName := [.TNS_ROWMASK, .TNS_COLMASK, .TNS_PASSREC, .SIG_MODE, .SIG_BASE, .SIG_LEN, .SIG_INDEX, .SIG_STEP]

/-- The state of one core of a context as its CORE section gives it (R250). DESIGN CHOICE (log entry 109): a port that only
a queue binds has a FIFO of 16 entries. -/
def Loaded.sectionOf (l : Loaded) (o n : Nat) : SavedCore :=
  let i := l.img
  let v := (i.cores[n]?).getD {}
  let store := v.bytes.foldl (fun (m : Mem) b => Mem.write m b.1 b.2) []
  let nm := i.numeric
  let b (x : Bool) : Nat := if x then 1 else 0
  let num : List (Fld × Nat) := [(R.COR_NUMCFG.FORMAT, nm.format), (R.COR_NUMCFG.SLICE, nm.slice), (R.COR_NUMCFG.OUT_FMT, nm.outFmt),
    (R.COR_NUMCFG.ROUND, nm.round), (R.COR_NUMCFG.SAT, b nm.sat), (R.COR_NUMCFG.ARRIVAL, b nm.arrival),
    (R.COR_NUMCFG.DETERMINISM, b nm.determinism), (R.COR_SR_SEED.SEED, nm.seed), (R.VEC_COMB_CFG.BASE, v.combBase),
    (R.VEC_COMB_CFG.SIZE, 16 * v.combKiB)]
  let regs := num.map fun f => (({ reg := f.1.reg, lo := f.1.lo, unit := 0, idx := 0 } : FKey), f.2)
  let recs := ((v.recs.take 512).filter fun r => recordRegs.contains r.reg).map fun r => (({ reg := r.reg, lo := r.lo, unit := (r.eng.map Fin.val).getD 0, idx := r.idx } : FKey), r.val)
  let bind (p : ImgPort) (k depth credits : Nat) : List (Nat × Port) := match p.core? with
    | some (c, x) => if c = n then [(x, { stream := k, depthLog2 := depth, credits := credits })] else []
    | none => []
  let ports := (i.streams.zipIdx.flatMap fun x =>
    let k := ((l.streams[x.2]?).map fun y => y.2).getD 0
    let d := Nat.log2 x.1.depth
    bind x.1.prod k d (if x.1.cons.isFec then 16 else 2 ^ d) ++ bind x.1.cons k d 0)
      ++ i.queues.flatMap fun q => (q.entry.toList ++ q.exits).flatMap fun p => bind p 4096 4 16
  let real (k : Nat) : Nat := ((l.streams[k]?).map fun y => y.2).getD k
  let descs : List MovDesc := v.seeds.zipIdx.map fun x =>
    { words := (List.range 8).map fun k => Mem.readN store (x.1 + 8 * k) 8, serial := x.2, owner := o, item := none }
  { store := store, regs := regs ++ recs, ports := ports
    sigProg := v.prog
    vecProg := v.vecProg
    sigMem := v.sigMem.map fun m => ((m.1, m.2.1, m.2.2.1), m.2.2.2)
    mover := some { queue := descs, next := descs.length }
    comb := some { plans := v.plans.map fun p =>
      { p with stream := real p.stream, unaligned := i.unalignedRed p.reduction } } }

/-- What a context's engines run from the start: the signal engines of its cores that have a program. -/
def Loaded.runSet (l : Loaded) (p : Placed) : List Nat :=
  p.shape.cores.zipIdx.flatMap fun y => ((l.img.cores[y.1]?).map ImgCore.prog).getD [] |>.map fun e => 2 * y.2 + e.1

/-- The field of a shape as its image gives it, on the sites of its cores; the engine of a loose core is one of 64 x 64. -/
def Loaded.fieldOf (l : Loaded) (o : Nat) (p : Placed) (sites : List Nat) : FieldSt :=
  let real (k : Nat) : Nat := ((l.streams[k]?).map fun y => y.2).getD k
  let num := ((l.img.streams.zipIdx.find? fun y => match y.1.prod with
      | .ingress .. => false
      | q => (q.core?.any fun z => p.shape.cores.contains z.1)).map fun y => real y.2).getD 0
  { owner := o, glade := l.img.glade, shape := if p.shape.loose then 0 else p.shape.code, sites := sites, stream := num
    passPlans := p.shape.passes.map fun v => { v with stream := real v.stream }
    format := (OpFormat.ofCode l.img.numeric.format).getD .int8 }

/-- The die of a group of a placed image: its standby's once that has been released (R490). -/
def Loaded.dieOf (l : Loaded) (g : Nat) : Nat :=
  ((l.placed.find? fun q => q.group = g && q.standby = l.gone.contains g).map fun q => q.cluster / 2).getD 0

/-- The widest carrier of a numerology, in kHz (R376); none where it is not supported. -/
def widestCarrier (mu : Nat) : Option Nat := match mu with | 0 => some 50000 | 1 => some 100000 | 3 => some 400000 | _ => none

/-- Whether a RADIO section keeps to the numerologies, carriers and cell IDs that the device supports (R376, R377). DESIGN CHOICE (log
entry 144): one that does not is refused with SLOT_BUDGET. -/
def ImgRadio.supported (r : ImgRadio) : Bool :=
  (widestCarrier r.mu).any fun w => r.cells.all (fun c => decide (c.cell < 384)) &&
    r.flows.all fun f => decide (f.nPrb * 12 * 15 * 2 ^ r.mu ≤ w)

/-- Whether a flow has an iqWidth and a traffic class that the port supports (R380, R398). DESIGN CHOICE (log entry 144): one that has
not is refused with FRONTHAUL. -/
def ImgFlow.supported (f : ImgFlow) : Bool := [0, 8, 9, 12, 14, 16].contains f.iq && decide (f.tc ≤ 6)

namespace Machine

/-- Whether a key slot holds a key (17.4); its number and floor. -/
def State.keySlot (s : State) (key : Nat) : Option (Nat × Nat) :=
  (s.mgt.slots.find? fun e => e.2.key = key).map fun e => (e.1, e.2.floor)

/-! ### Admission (R246 to R248) -/

/-- The cluster, site and port of an image port under a placement. -/
def State.portAt (s : State) (l : Loaded) (p : ImgPort) : Option (Nat × Option Nat) :=
  let core (c : Nat) : Option (Nat × Option Nat) := (l.coreAt c).bind fun x => (l.placed[x.1]?).bind fun pl =>
    ((coresAt pl.shape (pl.row, pl.col))[x.2]?).map fun rc => (pl.cluster, s.logicalSite (pl.cluster * 8 + rc.1) rc.2)
  match p with
  | .ingress c _ | .egress c _ | .sigIn c _ | .sigOut c _ => core c
  | .fecIn g _ | .fecOut g _ => (l.placed.find? fun q => q.group = g && q.standby = l.gone.contains g).map fun q => (q.cluster, none)

/-- The sites a stream joins, producer and consumer: a FEC block's port joins at the other end's site (log entry 31). -/
def State.endsOf (s : State) (l : Loaded) (v : ImgStream) : Option (Nat × Nat × Nat) :=
  match s.portAt l v.prod, s.portAt l v.cons with
  | some (c, a), some (d, b) =>
    if c ≠ d then none
    else match a, b with
      | some a, some b => some (c, a, b)
      | some a, none => some (c, a, a)
      | none, some b => some (c, b, b)
      | none, none => none
  | _, _ => none

/-- Reserved slots in force on a link direction, those of owner `o` left out: glade streams' and others' (R179). -/
def State.linkSlots (s : State) (o site : Nat) (d : Dir) : Nat × Nat :=
  s.str.routes.foldl (fun n e =>
    if e.1.1 = site ∧ e.2.out = d ∧ ((s.stream (Unit.clusterOf site) e.1.2).all fun r => r.owner ≠ o) then
      (if e.2.glade then (n.1 + e.2.res, n.2) else (n.1, n.2 + e.2.res))
    else n) (0, 0)

/-- Ports of the Ziura mesh that a claim crosses from die `a` to die `b`. -/
def State.ziuHops (s : State) (a b : Nat) : List (Nat × Nat) :=
  match (s.chooseOrder a b).bind fun o => ziuPath o a b with
  | some p => (p.zip (p.drop 1)).filterMap fun x => (ziuPortTo x.1 x.2).map fun k => (x.1, k)
  | none => []

/-- What a placed glade image claims of a Ziura port (R41, R392), in units of 1/256; of the claims and flows of group `only` alone where
one is named. -/
def State.routeClaim (s : State) (l : Loaded) (only : Option Nat) (d p : Nat) : Nat :=
  let end_ (e : RouteEnd) : Nat := match e with | .group g => l.dieOf g | .stack k => k.val / 2 | .quad q => q.val / 2
  let of (e : RouteEnd) : Bool := match e, only with | _, none => true | .group g, some h => g = h | _, some _ => false
  let plain := l.img.ziura.foldl (fun n c =>
    if (of c.1 || of c.2.1) && (s.ziuHops (end_ c.1) (end_ c.2.1)).contains (d, p) then n + c.2.2 else n) 0
  let front := match l.img.radio with
    | none => 0
    | some r => r.flows.foldl (fun n f =>
        let g := ((r.cells.find? fun c => c.cell = f.cell).map fun c => c.group).getD 0
        let q := f.quad.val / 2
        let hops := if f.egress then s.ziuHops (l.dieOf g) q else s.ziuHops q (l.dieOf g)
        if only.all (fun h => h = g) && hops.contains (d, p) then n + f.rate else n) 0
  plain + ziuraUnits front

/-- The claim of a glade image on a Ziura port, its standbys counted in full (R247, R488). -/
def State.ziuraClaim (s : State) (l : Loaded) (d p : Nat) : Nat :=
  l.standbys.foldl (fun n x => n + s.routeClaim x.2 (some x.1) d p) (s.routeClaim l none d p)

/-- The link directions that the streams of an image's standbys cross, with their reserved slots (R247, R488). -/
def State.standbyHops (s : State) (l : Loaded) : List (Nat × Dir × Nat) :=
  l.standbys.flatMap fun x => (l.groupStreams x.1).flatMap fun v => match s.endsOf x.2 v.1 with
    | some (_, a, b) => (routeHops a b).map fun h => (h.1, h.2, l.resOf v.1)
    | none => []

/-- Stream numbers of a cluster that clearings other than `o` use or hold for a standby (R248, R488). -/
def State.takenStreams (s : State) (o c : Nat) : List Nat :=
  let used := s.str.streams.filterMap fun e => if e.1.1 = c ∧ e.2.owner ≠ o then some e.1.2 else none
  used ++ s.ten.images.flatMap fun e => if e.1 = o then [] else
    e.2.sbStreams.filterMap fun x => if x.2.1 = c then some x.2.2 else none

/-- Whether every page of a range is mapped for an owner with the access claimed (6.5). -/
def State.rangeMapped (s : State) (o : Nat) (r : ImgRange) : Bool :=
  (List.range r.pages).all fun k => (s.extentAt o (r.page + k)).any fun e => !r.write || e.write

/-- Checks 0x0A to 0x20, and 0x0B, which need no placement. -/
def State.checkContent (s : State) (o : Nat) (h : ImgHeader) (i : Image) : Option LoadRefusal :=
  let sec (t : Nat) (x : Nat := 0) : Nat := h.sec t x
  let cores := i.shapes.flatMap fun v => v.cores
  let n := h.sects.foldl (fun n e => if e.typ = 6 then n + 1 else n) 0
  let badShape (v : ImgShape) : Bool :=
    (!v.loose && (shapeDims v.code).isNone) || v.cores.length ≠ v.size || v.cores.any fun c => n ≤ c || i.cores.length ≤ c
  let std := (i.groups.filter fun g => g.prot && i.glade).foldl (fun n g => g.shapes.foldl (fun n v => n + v.size) n) 0
  let tooFar (c : ImgCore) : Bool := decide (1536 < c.storeKiB + c.combKiB)
  if (h.cls = 1) ≠ s.isGlade o ∨ i.glade ≠ (h.cls = 1) then some { reason := 0x0A }
  else if i.glade ∧ s.holdsImage o then some { reason := 0x0B }
  else if i.numeric.bad then some { reason := 0x10, sec := sec 2 }
  else match i.cores.findIdx? fun c => !c.valid with
  | some k => some { reason := 0x11, sec := sec 6 k }
  | none =>
    if i.numeric.determinism ∧ i.unaligned then some { reason := 0x12, sec := sec 5 }
    else if i.shapes.any badShape ∨ cores.length ≠ n ∨ cores.eraseDups.length ≠ n then some { reason := 0x13, sec := sec 3 }
    else match i.cores.zipIdx.find? fun x => tooFar x.1 with
    | some (c, k) => some { reason := 0x14, sec := sec 6 k, need := c.storeKiB + c.combKiB, avail := 1536 }
    | none =>
      let room := s.rd R.SCH_TEN_BUDGET.CORES 0 o
      if room < i.coreCount + std then some { reason := 0x20, need := i.coreCount + std, avail := room } else none

/-- The first of a list of checks that fails. -/
def firstRefusal (l : List (Option LoadRefusal)) : Option LoadRefusal := l.findSome? id

/-- The buffers of protected groups (R488): each has a second range on the stacks of the standby's die. -/
def State.secondBuffers (s : State) (o : Nat) (l : Loaded) : Bool :=
  match l.img.radio with
  | none => true
  | some r => r.flows.all fun f =>
      let g := ((r.cells.find? fun c => c.cell = f.cell).map fun c => c.group).getD 0
      match l.placed.find? fun p => p.group = g && p.standby with
      | none => true
      | some p => f.egress || match f.buf2 with
        | none => false
        | some (a, b) => [a, b].all fun x => (s.extentAt o (x / 4096)).any fun e =>
            decide ((e.devPage + (x / 4096 - e.clPage)) / 2 ^ 24 / 2 = p.cluster / 2)

/-- Item spans of a protected cell lie at or below 2P - 50 µs (R488). -/
def spanGood (r : ImgRadio) (c : ImgCell) : Bool :=
  let lim := 2 * slotNs r.mu - 50000
  decide ((c.dlLead : Int) * slotNs r.mu + c.dlDeadline ≤ lim) && decide (c.ulDeadline - (c.ulCutoff : Int) ≤ lim)

/-- Check 0x53 (R391, R488) of one quad. Flows of take-over cells share the entries and the rate of the glade they come from (12.9). -/
def State.checkQuad (s : State) (l : Loaded) (r : ImgRadio) (q : Nat) : Option LoadRefusal :=
  let mine (eg : Bool) : List ImgFlow := r.flows.filter fun f => f.quad.val = q && f.egress = eg
  let shared (f : ImgFlow) : Bool := r.cells.any fun c => c.cell = f.cell && c.takeOver
  let theirs (eg : Bool) : List FlowEnt := (s.rad.flows.filter fun e => e.1.1 = q && e.1.2.1 = eg).map fun e => e.2
  let bad (need avail : Nat) : Option LoadRefusal := some { reason := 0x53, die := q / 2, need := need, avail := avail }
  let rate (f : ImgFlow) : Nat := if shared f then 0 else f.rate
  let fits (eg : Bool) : Nat :=
    let room := 388000 - (theirs eg).foldl (fun n e => n + e.flow.rate) 0
    ((mine eg).foldl (fun (st : Nat × Nat × Bool) f =>
      if st.2.2 ∧ st.2.1 + rate f ≤ room then (st.1 + 1, st.2.1 + rate f, true) else (st.1, st.2.1, false)) (0, 0, true)).1
  let used (eg : Bool) : Nat := (theirs eg).length
  let fresh (eg : Bool) : Nat := ((mine eg).filter fun f => !shared f).length
  let kind := (mine false).isEmpty
  let near := l.placed.any fun p => !p.standby && ((l.img.groups[p.group]?).map ImgGroup.prot).getD false && p.cluster / 2 = q / 2
    && r.cells.any fun c => c.group = p.group && r.flows.any fun f => f.cell = c.cell && f.quad.val = q
  if (mine false).isEmpty ∧ (mine true).isEmpty then none
  else if !s.ethernet q ∨ near ∨ !(mine kind).all ImgFlow.supported ∨ !(mine (!kind)).all ImgFlow.supported then
    bad (mine kind).length (512 - used kind)
  else if 512 < used false + fresh false then bad (mine false).length (512 - used false)
  else if 512 < used true + fresh true then bad (mine true).length (512 - used true)
  else if fits false < (mine false).length then bad (mine false).length (fits false)
  else if fits true < (mine true).length then bad (mine true).length (fits true)
  else none

/-- Checks 0x22 to 0x60, after placement. -/
def State.checkPlaced (s : State) (o : Nat) (h : ImgHeader) (l : Loaded) : Option LoadRefusal :=
  let i := l.img
  let sec (t : Nat) : Nat := h.sec t
  let clusters := List.range 16
  let n := i.cores.length
  let ends := i.streams.map fun v => (v, s.endsOf l v)
  let dup (ps : List ImgPort) : Bool := ps.eraseDups.length ≠ ps.length
  let ports := i.streams.flatMap fun v => [v.prod, v.cons]
  let badStream := (ends.any fun e => e.2.isNone || !(e.1.prod.exists_ n i.groups.length && e.1.cons.exists_ n i.groups.length))
    || dup ports
  let hops := ends.flatMap fun e => match e.2 with
    | some (_, a, b) => (routeHops a b).map fun x => (x.1, x.2, l.resOf e.1)
    | none => []
  let hops := hops ++ s.standbyHops l
  let sbEnds := l.standbys.flatMap fun x => (l.groupStreams x.1).map fun v => s.endsOf x.2 v.1
  let links := (List.range 1152).flatMap fun k => [Dir.east, .west, .north, .south].map fun d => (k, d)
  let heavy := if hops.all (fun x => x.2.2 = 0) then none else links.findSome? fun x =>
    let need := hops.foldl (fun m y => if y.1 = x.1 ∧ y.2.1 = x.2 then m + y.2.2 else m) 0
    let have_ := (s.linkSlots o x.1 x.2).1 + (s.linkSlots o x.1 x.2).2
    if 0 < need ∧ 64 < need + have_ then some (x, need, 64 - have_) else none
  let others := s.ten.images.filter fun e => e.1 ≠ o && e.2.img.glade
  let claimOn (x : Image) (k : Nat) : Nat := x.hbm.foldl (fun m c => if c.1.val = k then m + c.2 else m) 0
  let prot (g : Nat) : Bool := ((i.groups[g]?).map ImgGroup.prot).getD false
  firstRefusal [
    clusters.findSome? (fun c =>
      let room := 1024 - (s.mem.blockOwner.filter fun e => e.1.1 = c && e.2 ≠ o).length
      if room < l.blockNeed c then some { reason := 0x22, die := c / 2, cluster := c % 2, need := l.blockNeed c, avail := room } else none),
    if i.ranges.all (s.rangeMapped o) && s.secondBuffers o l then none
      else some { reason := 0x23, sec := if i.ranges.all (s.rangeMapped o) then sec 9 else sec 1 },
    if !i.glade then none else (List.range 16).findSome? fun k =>
      let room := s.rd R.HBM_RESERVE.RES k * 510 - others.foldl (fun m e => m + claimOn e.2.img k) 0
      if room < claimOn i k then some { reason := 0x24, die := k / 2, need := claimOn i k, avail := room } else none,
    if badStream then some { reason := 0x30, sec := sec 4 } else none,
    clusters.findSome? (fun c =>
      let need := ((ends.map fun e => e.2) ++ sbEnds).filter (fun e => e.any fun x => x.1 = c) |>.length
      let room := 4096 - (s.takenStreams o c).length
      if room < need then some { reason := 0x31, die := c / 2, cluster := c % 2, need := need, avail := room } else none),
    heavy.map fun x =>
      { reason := 0x32, sec := sec 4, die := Unit.dieOf x.1.1, cluster := Unit.clusterOf x.1.1 % 2, site := Unit.siteIx x.1.1
        dir := x.1.2.code, need := x.2.1, avail := x.2.2 },
    if i.streams.all (fun v => [2, 4, 8, 16, 32, 64].contains v.depth) then none else some { reason := 0x33, sec := sec 4 },
    if !i.glade then none else ((List.range 8).flatMap fun d => (List.range 3).map fun p => (d, p)).findSome? fun x =>
      let need := s.ziuraClaim l x.1 x.2
      let room := s.rd (R.ZIU_VC1_RESERVE.RES x.2) x.1 - others.foldl (fun m e => m + s.ziuraClaim e.2 x.1 x.2) 0
      if room < need then some { reason := 0x34, die := x.1, dir := x.2, need := need, avail := room } else none,
    (let room := s.rd R.SCH_TEN_BUDGET.QUEUES 0 o
     if room < i.queueCount then some { reason := 0x40, need := i.queueCount, avail := room } else none),
    (let bad (b : ImgQueue) : Bool := match s.localQueue o b.loc with
      | none => true
      | some (_, v) => l.placed.any fun p => !p.standby && prot p.group
          && (p.cluster / 2 = v.home || s.mirrorOf v.home = some (p.cluster / 2))
     if i.queues.any bad then some { reason := 0x41, sec := sec 7 } else none),
    if i.glade then none else (ports.find? ImgPort.isFec).map fun p =>
      let c := ((s.portAt l p).map fun x => x.1).getD 0
      { reason := 0x50, die := c / 2, cluster := c % 2 },
    (match i.radio with
     | some r => if r.supported && r.cells.all fun c => !prot c.group || spanGood r c then none else some { reason := 0x51 }
     | none => none),
    if i.glade && i.atomics then some { reason := 0x52, sec := sec 10 } else none,
    (match i.radio with
     | some r => (List.range 16).findSome? fun q => s.checkQuad l r q
     | none => none),
    (let held (w : Bool × Nat) : Bool := if w.1 then (s.wor.exports.find w.2).any fun x => x.owner = o else s.wor.imports.has (o, w.2)
     if i.windows.all held then none else some { reason := 0x60, sec := sec 10 })]

/-- A list of pairs' numbers in a cluster. -/
def numbersIn (l : List (Nat × Nat)) (c : Nat) : List Nat := l.filterMap fun x => if x.1 = c then some x.2 else none

/-- Stream numbers and cluster-store blocks given to a placed image and held for its standbys: the lowest that are free in each
cluster (R248, R488). -/
def State.assign (s : State) (o : Nat) (l : Loaded) : Loaded :=
  let nums := l.img.streams.foldl (fun (st : List (Nat × Nat)) v =>
    let c := ((s.endsOf l v).map fun x => x.1).getD 0
    st ++ [(c, firstFree (s.takenStreams o c ++ numbersIn st c) 4096)]) []
  let held := l.standbys.foldl (fun (t : Tab Nat (Nat × Nat)) x => (l.groupStreams x.1).foldl (fun t v =>
    let c := ((s.endsOf x.2 v.1).map fun e => e.1).getD 0
    t.put v.2 (c, firstFree (s.takenStreams o c ++ numbersIn nums c ++ numbersIn (t.map fun e => e.2) c) 4096)) t) []
  let blocks := (List.range 16).flatMap fun c =>
    let used := s.mem.blockOwner.filterMap fun e => if e.1.1 = c ∧ e.2 ≠ o then some e.1.2 else none
    (((List.range 1024).filter fun b => !used.contains b).take (l.blockNeed c)).map fun b => (c, b)
  { l with streams := nums, sbStreams := held, blocks := blocks }

/-- The placement and admission of an image, or its refusal. -/
def State.admission (s : State) (o : Nat) (h : ImgHeader) (i : Image) : Except LoadRefusal Loaded :=
  match s.checkContent o h i with
  | some r => .error r
  | none => match s.place o i with
    | .error r => .error r
    | .ok ps =>
      let l : Loaded := { img := i, placed := ps }
      match s.checkPlaced o h l with
      | some r => .error r
      | none => .ok (s.assign o l)

/-! ### The end of a load (R245) -/

/-- REASON and GLB_IMG_DETAIL at 0 (R259). -/
def State.noDetail (s : State) : State :=
  [R.GLB_IMG_STATUS.REASON, R.GLB_IMG_DETAIL.SEC, R.GLB_IMG_DETAIL.DIE, R.GLB_IMG_DETAIL.CLUSTER, R.GLB_IMG_DETAIL.SITE,
   R.GLB_IMG_DETAIL.DIR, R.GLB_IMG_DETAIL.NEED, R.GLB_IMG_DETAIL.AVAIL].foldl (fun (s : State) f => s.wr f 0) s

/-- The load ends with a status; BUSY falls and the outcome is counted. -/
def State.finishLoad (s : State) (status : Nat) : State :=
  let s := if status = 5 then s else s.noDetail
  let s := (s.wr R.GLB_IMG_STATUS.BUSY 0).wr R.GLB_IMG_STATUS.STATUS status
  let f := match status with
    | 0 => R.GLB_IMG_COUNTS.DONE | 2 => R.GLB_IMG_COUNTS.CANCELLED | 3 => R.GLB_IMG_COUNTS.FAILED | _ => R.GLB_IMG_COUNTS.REFUSED
  let s := s.bump f
  ({ s with ten := { s.ten with load := none } }).eventImageLoad

/-- A refused load: REASON and DETAIL. -/
def State.refuseLoad (s : State) (r : LoadRefusal) : State :=
  let s := s.wr R.GLB_IMG_STATUS.REASON r.reason
  let s := ((s.wr R.GLB_IMG_DETAIL.SEC r.sec).wr R.GLB_IMG_DETAIL.DIE r.die).wr R.GLB_IMG_DETAIL.CLUSTER r.cluster
  let s := (s.wr R.GLB_IMG_DETAIL.SITE r.site).wr R.GLB_IMG_DETAIL.DIR r.dir
  let s := (s.wr R.GLB_IMG_DETAIL.NEED (min 0xFFFF r.need)).wr R.GLB_IMG_DETAIL.AVAIL (min 0xFFFF r.avail)
  let s := if r.reason = 0x51 then
      ((s.wr R.RAD_ADMIT.KIND r.kind).wr R.RAD_ADMIT.CLUSTER r.radCluster).wr R.RAD_ADMIT.LOAD_SEQ (s.rd R.GLB_IMG_STATUS.LOAD_SEQ)
    else s
  s.finishLoad 5

/-- PHASE of the running load. -/
def State.phase (s : State) : Nat := s.rd R.GLB_IMG_STATUS.PHASE

/-- The sites of a placed glade image in a cluster, each with its image core and the shape it belongs to. -/
def State.gladeSites (s : State) (l : Loaded) (c : Nat) : List (Nat × Nat × Placed × Nat × (Nat × Nat)) :=
  (l.placed.filter fun p => l.img.glade && p.cluster = c).flatMap fun p =>
    (p.shape.cores.zip (coresAt p.shape (p.row, p.col))).zipIdx.filterMap fun x =>
      (s.logicalSite (c * 8 + x.1.2.1) x.1.2.2).map fun k => (k, x.1.1, p, x.2, x.1.2)

/-- What the windows put onto the cores of a glade goes with a load that does not release it. -/
def State.clearWindows (s : State) (l : Loaded) : State :=
  (List.range 16).foldl (fun s c => (s.gladeSites l c).foldl (fun s x =>
    (s.clearSite x.1).setFieldMap c x.2.2.2.2.1 x.2.2.2.2.2 none) s) s

/-- A load that ends with `status` as Table 7.6 gives: in SWITCH or ACTIVATE the clearing is left with no image; a reset that waited for
the windows goes on. -/
def State.dropLoad (s : State) (status : Nat) : State :=
  match s.ten.load with
  | none => s
  | some l =>
    let late := decide (6 ≤ s.phase)
    let s := if late then s.releaseImage l.owner else s
    let s := match late, l.result with | true, some r => s.clearWindows r | _, _ => s
    let s := s.finishLoad status
    if (s.ten.resets.find l.owner).any fun v => v.step = .waitSwitch then s.beginDrain l.owner else s

/-- A fault or an error of the staging reserve fails the load, by record `seq` (Table 7.6). -/
def State.failLoad (s : State) (seq : Nat) : State :=
  match s.ten.load with
  | none => s
  | some _ => (s.wr R.GLB_IMG_ERR_SEQ.SEQ seq).dropLoad 3

/-- Whether the load that runs has staged on a unit or placed a core on it (Table 7.6). The image is striped from FETCH on over
the stacks that were in service then (R242, R243); the placement counts from DISTRIBUTE on. -/
def State.loadHit (s : State) (u : RecUnit) (site : Option Nat) : Bool :=
  let p := s.phase
  let staged := decide (1 ≤ p) && (s.ten.load.elim [] LoadSt.staged).any fun k => (RecUnit.stack k).within u
  let placed := match s.ten.load.bind LoadSt.result with
    | none => false
    | some l => decide (4 ≤ p) && l.placed.any fun v =>
        ((coresAt v.shape (v.row, v.col)).any fun rc =>
          let row := v.cluster * 8 + rc.1
          match u, site with
          | .row r, some k => decide (row = r) && s.logicalSite row rc.2 = some k
          | _, _ => (RecUnit.row row).within u)
        || (RecUnit.fec v.cluster).within u && ((l.img.radio).any fun r => r.usesFec v.group)
  s.ten.load.isSome && (staged || placed)

/-- The first error of the chain that has contained a unit the running load has placed or staged on, where one has (Table 7.6). -/
def State.loadLost (s : State) : Option Nat :=
  ((s.err.running.toList ++ s.err.queue).find? fun c => s.loadHit c.unit c.site).map Chain.first

/-- A load that has lost a unit it placed or staged on fails. -/
def State.settleLoad (s : State) : State :=
  match s.loadLost with
  | none => s
  | some q => s.failLoad q

/-- An event of the load that runs: where a unit that it placed or staged on has been contained, the load fails instead (Table 7.6). -/
def State.loadEvent (s : State) (f : LoadSt → Out) : Out :=
  match s.ten.load with
  | none => .next s
  | some l => match s.loadLost with
    | some q => .next (s.failLoad q)
    | none => f l

/-! ### The switch windows and the release (R250, R253) -/

/-- The device's port of an image port under a placement. DESIGN CHOICE (log entry 31): a FEC block knows its ports by the streams they
join, so that those of two clearings in a cluster are never the same (R254). -/
def State.portId (s : State) (l : Loaded) (p : ImgPort) : Option PortId :=
  match p, s.portAt l p with
  | .ingress _ k, some (_, some a) | .egress _ k, some (_, some a) =>
    some (sitePort a (match p with | .egress .. => 8 + k | _ => k))
  | .sigIn _ e, some (_, some a) => some (sitePort a (16 + e))
  | .sigOut _ e, some (_, some a) => some (sitePort a (18 + e))
  | .fecIn .., some (c, _) => some (.fecIn (Fin.ofNat 16 c) (l.numberOf p))
  | .fecOut .., some (c, _) => some (.fecOut (Fin.ofNat 16 c) (l.numberOf p))
  | _, _ => none

/-- One stream installed (R175, R176): its record, the route entries of the routers on its path, and the FEC ports it
binds. -/
def State.installStream (s : State) (o : Nat) (l : Loaded) (k : Nat) (v : ImgStream) : State :=
  match l.streams[k]?, s.endsOf l v, s.portId l v.prod, s.portId l v.cons with
  | some (c, n), some (_, a, b), some p, some q =>
    let res := l.resOf v
    let cp := (l.ctxOf v.prod).getD ((l.ctxOf v.cons).getD 0)
    let cc := (l.ctxOf v.cons).getD cp
    let r : StreamRec := { owner := o, producer := p, consumer := q, glade := l.img.glade, res := res, prodCtx := cp, consCtx := cc }
    let ent (d : Dir) : RouteEnt := { out := d, port := if d = .localPort then q.localIx else 0, glade := l.img.glade, res := res }
    let hops := routeHops a b ++ [(b, Dir.localPort)]
    let depth := Nat.log2 v.depth
    let fec (t : Tab PortId Port) (x : PortId) (cred : Nat) : Tab PortId Port := match x with
      | .fecIn .. | .fecOut .. => t.put x { stream := n, depthLog2 := x.depthLog2 depth, credits := cred }
      | _ => t
    let s : State := { s with str := { s.str with
      streams := s.str.streams.put (c, n) r
      routes := hops.foldl (fun t x => t.put (x.1, n) (ent x.2)) s.str.routes
      ports := fec (fec s.str.ports p (2 ^ q.depthLog2 depth)) q 0 } }
    match (v.results.bind fun j => l.img.streams[j]?).bind fun w => s.portId l w.prod with
    | some x => s.setFec c { s.fecBlock c with resultPort := (s.fecBlock c).resultPort.put n x }
    | none => s
  | _, _, _, _ => s

/-- Steps 1 to 4 of a window on one core of a glade (R250): its core store is zeroed, the CORE section is copied, the register records are
applied, and its place in its field is set. Its mover and its vector engine start nothing until the glade is released. -/
def State.windowCore (s : State) (o : Nat) (l : Loaded) (x : Nat × Nat × Placed × Nat × (Nat × Nat)) : State :=
  let (k, n, p, i, rc) := x
  let s := s.install k o (l.sectionOf o n)
  let c : Ctx := { kind := .glade, group := p.group, cluster := p.cluster, loose := p.shape.loose, code := p.shape.code, row := p.row, col := p.col }
  ((s.setMover k { s.mover k with halt := true }).wr R.VEC_STATE.STOPPED 1 k).showCore c i k rc

/-- What a switch window sets in its cluster (R250 steps 1 to 4): the cores of a glade, cluster-store ownership, its blocks zeroed, and
the streams, those of standbys among them (R489). The contexts of other clearings share their sites: core stores are zeroed, and sections and records applied, as each
comes to its cores (R353). -/
def State.installCluster (s : State) (o : Nat) (l : Loaded) (c : Nat) : State :=
  let bs := (l.blocks.filter fun b => b.1 = c).map fun b => b.2
  let base (b : Nat) : Nat := cluAddr c (b * 65536)
  let s : State := bs.foldl (fun (s : State) b => { s with
    clusterStore := s.clusterStore.zero (base b) 65536
    mem := { s.mem with blockOwner := s.mem.blockOwner.put (c, b) o
                        cluBad := s.mem.cluBad.filter fun w => !(base b / 8 ≤ w && w < base b / 8 + 8192) } }) s
  let s := if bs.isEmpty then s else s.tick R.CLU_OWN_GEN.GEN c
  let s := (s.gladeSites l c).foldl (fun s x => s.windowCore o (l.forShape x.2.2.1) x) s
  let here (l : Loaded) (xs : List (ImgStream × Nat)) : List (Loaded × ImgStream × Nat) :=
    (xs.filter fun x => (l.streams[x.2]?).any fun y => y.1 = c).map fun x => (l, x)
  let ss := here l l.img.streams.zipIdx ++ l.standbys.flatMap fun y => here y.2 (l.groupStreams y.1)
  let s := ss.foldl (fun s x => s.installStream o x.1 x.2.2 x.2.1) s
  if ss.isEmpty then s else s.tick R.STR_ROUTE_GEN.GEN c

/-- The contexts of a released image (R341, R353, R489): glade shapes take their cores at once, others begin saved and
ready. -/
def State.addContexts (s : State) (o : Nat) (l : Loaded) : State :=
  l.placed.zipIdx.foldl (fun s x =>
    let p := x.1
    let k := (o, x.2)
    let l' := l.forShape p
    let seeds := p.shape.cores.map fun n => l'.sectionOf o n
    let run := if p.borrow then [] else l.runSet p
    let c : Ctx := { kind := if l.img.glade then .glade else if p.borrow then .borrow else .home
                     group := p.group, cluster := p.cluster, loose := p.shape.loose, code := p.shape.code, row := p.row, col := p.col
                     slot := p.slot, host := p.host, standby := p.standby, res := if p.borrow then .parked else .saved
                     saved := seeds, running := run, since := s.elapsed, readySince := s.elapsed }
    let sites := s.ctxSites c
    let s := s.yieldCheckers sites
    let c := { c with field := some (l'.fieldOf o p sites), oldSites := sites }
    let s := s.setCtx k c
    if l.img.glade then
      let s := (s.restoreCtx k c)
      match s.ctx k with
      | some d =>
        let s := (s.setCtx k { d with since := s.elapsed }).decide_ c.cluster
        if p.standby then s.holdCtx k else s
      | none => s
    else s.makeReady k) s

/-- The bytes of a measurement, of 384 bits. -/
def digestBytes (d : Nat) : List Byte := beBytes 48 d

/-- The load log is extended by a load of an owner that ends Done (R541). -/
def State.logLoad (s : State) (o : Nat) (r : Resident) : State :=
  let s := { s with mgt := { s.mgt with log := Sha.sha384 (s.mgt.log ++ leBytes 2 o ++ leBytes 4 r.seq ++ digestBytes r.digest) } }
  (s.tick R.SEC_LOADLOG.ENTRIES).tick R.SEC_GEN.GEN

/-- The clearing is released with its new image (R245, R250): contexts, radio service, the load log (R541). -/
def State.releaseLoad (s : State) (ld : LoadSt) (l : Loaded) : State :=
  let o := ld.owner
  let s : State := { s with ten := { s.ten with images := s.ten.images.put o l }, err := { s.err with orphans := s.err.orphans.del o } }
  let s := (((s.wr R.SCH_TEN_CFG.IMAGE 1 0 o).tick R.SCH_TEN_GEN.GEN).tick R.GLB_DET_GEN.GEN).refreshHealth
  let s := (s.wr R.GLB_DET_ND_COUNT.ORDER 0 0 o).wr R.GLB_DET_ND_COUNT.ATOMIC 0 0 o
  let s := match l.img.radio with | some r => s.addRadio o r | none => s
  let s : State := { s with sched := { s.sched with released := s.sched.released.put o s.elapsed } }
  let s := s.addContexts o l
  let r : Resident := { seq := s.rd R.GLB_IMG_STATUS.LOAD_SEQ, slot := ld.slot, digest := l.img.digest }
  let s : State := { s with mgt := { s.mgt with resident := s.mgt.resident.put o r } }
  (s.logLoad o r).finishLoad 0

/-! ### Phases (R243) -/

/-- The load enters a phase. -/
def State.setPhase (s : State) (p : Nat) : State := s.wr R.GLB_IMG_STATUS.PHASE p

/-- The running load changed. -/
def State.setLoad (s : State) (l : LoadSt) : State := { s with ten := { s.ten with load := some l } }

/-- The first slot whose drumbeat is at or after a TAI time. -/
def State.firstBeat (s : State) (mu : Nat) (t : Int) : Int :=
  let m := s.slotAt mu t
  if s.beatTime mu m = t then m else m + 1

/-- The slot whose drumbeat releases a loaded glade (R253). -/
def State.activation (s : State) (mu : Nat) : Int :=
  let a := s.rd R.GLB_IMG_ACT_TIME.SEC_LO
  let b := s.rd R.GLB_IMG_ACT_TIME.NS
  if a = 0 ∧ b = 0 then s.slotAt mu s.tai + 1 else s.firstBeat mu (max (s.complete a b) s.tai)

/-- The last switch window has ended (R250, R253); a reset that waits for it goes on (Table 7.6). -/
def State.endSwitch (s : State) : State :=
  match s.ten.load with
  | none => s
  | some l => match l.result with
    | none => s
    | some r =>
      let waits := (s.ten.resets.find l.owner).any fun v => v.step = .waitSwitch
      if waits then (s.releaseLoad l r).beginDrain l.owner
      else if r.img.glade then
        (s.setPhase 7).setLoad { l with actSlot := some (s.activation ((r.img.radio.map ImgRadio.mu).getD 0)) }
      else s.releaseLoad l r

/-- SWITCH begins: waiting items that were accepted under another image complete Cancelled (R476), and the clearing's fields
stop and its current image goes. -/
def State.enterSwitch (s : State) : State :=
  match s.ten.load with
  | none => s
  | some l => match l.result with
    | none => s
    | some r =>
      let o := l.owner
      let other := s.que.queues.any fun e => e.2.owner = o && e.2.items.any fun x => x.1 > e.2.committed && x.2.digest ≠ r.img.digest
      let s := if other then (s.cancelItems o).1 else s
      let s := (s.releaseImage o).setPhase 6
      let ws := (r.placed.map Placed.cluster).eraseDups
      let s := s.setLoad { l with windows := ws }
      if ws.isEmpty then s.endSwitch else s

/-- DRAIN begins (R249): acceptance stops, and every glade core lent to the clearing is recalled, and every lent shape of its own
(Table 11.4). -/
def State.enterDrain (s : State) : State :=
  match s.ten.load with
  | none => s
  | some l =>
    let s := (s.setPhase 5).setLoad { l with drainStart := s.elapsed }
    let s := s.voidOwner l.owner
    ((s.sched.lent.filter fun e => e.2.borrower.1 = l.owner).foldl (fun s e => s.recall e.1) s).recallOf l.owner

/-- Whether the clearing still has items without completion, cores lent to it, or lent shapes of its own. -/
def State.drainLeft (s : State) (o : Nat) : Bool :=
  s.incomplete o || s.lentOpen o || s.sched.lent.any fun e => e.2.borrower.1 = o

/-! ### The commands of a load -/

/-- IMG_ARG_WRITE (R244): a write to a load argument register, ignored while BUSY is 1. -/
def execImgArgWrite (a : ImgArg) (v : Word) (s : State) : Out :=
  if !s.managed then .next s else
  let v := v.toNat
  if s.flag R.GLB_IMG_STATUS.BUSY then .next s
  else .next (match a with
    | .src => s.wr R.GLB_IMG_SRC.ADDR (v / 4096)
    | .len => s.wr R.GLB_IMG_LEN.LEN v
    | .target => (s.wr R.GLB_IMG_TARGET.OWNER v).wr R.GLB_IMG_TARGET.MODE (v / 2048)
    | .actTime => (s.wr R.GLB_IMG_ACT_TIME.NS v).wr R.GLB_IMG_ACT_TIME.SEC_LO (v / 2 ^ 32)
    | .drain => s.wr R.GLB_IMG_DRAIN.LIMIT_US v)

/-- Checks 0x01 and 0x02 of Table 7.4, at START. -/
def State.checkStart (s : State) : Option LoadRefusal :=
  let o := s.rd R.GLB_IMG_TARGET.OWNER
  let mode := s.rd R.GLB_IMG_TARGET.MODE
  let len := s.rd R.GLB_IMG_LEN.LEN
  if 1024 ≤ o ∨ s.tenState o ≠ 1 ∨ 1 < mode ∨ (mode = 1) ≠ s.holdsImage o then some { reason := 0x01 }
  else if 512 * 2 ^ 20 < len ∨ len < 8496 then some { reason := 0x02 } else none

/-- START (R243, R244): begins a load with the checks 0x01 and 0x02, or is lost while BUSY. A load that begins releases the
clearing's barrier (Table 8.2). -/
def execStart (s : State) : Out :=
  if !s.managed then .next s else
  if s.flag R.GLB_IMG_STATUS.BUSY then .next (s.set1 R.GLB_IMG_STATUS.START_LOST)
  else
    let o := s.rd R.GLB_IMG_TARGET.OWNER
    let r := s.checkStart
    let s := (((s.tick R.GLB_IMG_STATUS.LOAD_SEQ).set1 R.GLB_IMG_STATUS.BUSY).setPhase 1).wr R.GLB_IMG_WINDOW.LONGEST_NS 0
    let s := s.setLoad { owner := o, replace := s.rd R.GLB_IMG_TARGET.MODE = 1
                         staged := (List.range 16).filter fun k => s.flag R.HBM_STATE.IN_SERVICE k }
    .next (match r with
      | some r => s.refuseLoad r
      | none => s.dropBarrier o)

/-- ABORT (Table 7.6): it cancels a load but for one in SWITCH. -/
def execAbort (s : State) : Out :=
  if !s.managed then .next s else
  let s := s.settleLoad
  .next (if s.phase = 6 then s else s.dropLoad 2)

/-- Checks 0x02 to 0x06 of Table 7.4, when the header has come. -/
def State.checkHeader (s : State) (h : ImgHeader) : Option LoadRefusal :=
  if s.rd R.GLB_IMG_LEN.LEN ≠ h.totalLen then some { reason := 0x02 }
  else match h.broken with
    | some k => some { reason := 0x03, sec := k }
    | none =>
      if h.part ≠ partNumber then some { reason := 0x04 }
      else if ((s.mgt.running.map FwImage.version).getD 0) < h.minFw then some { reason := 0x05 }
      else if (s.keySlot h.keyId).isNone then some { reason := 0x06 } else none

/-- IMAGE_HEADER_ARRIVE (R238, R239, R246): the bytes of the header and of the section table come during FETCH, while the host
link is open (R501). -/
def execImageHeaderArrive (bytes : List Byte) (s : State) : Out :=
  let h := ImgHeader.ofBytes bytes
  s.loadEvent fun l =>
    if s.phase ≠ 1 ∨ l.hdr.isSome ∨ !s.hostOpen then .next s
    else match s.checkHeader h with
      | some r => .next (s.refuseLoad r)
      | none => .next (s.setLoad { l with hdr := some h })

/-- The measurement D of an image (R240): the SHA-384 of its bytes 0 to SIG_OFF - 1. -/
def imageDigest (i : Image) : Nat := beNat (Sha.sha384 i.bytes)

/-- FETCH_END (R243): the whole image, of the header that has come, stands in the staging reserve, and VERIFY begins. D follows from its
bytes (R240). Data that came poisoned fail the fetch and the load with it, which names the record (R245, R517). -/
def execFetchEnd (i : Image) (poison : Bool) (s : State) : Out :=
  s.loadEvent fun l => match l.hdr with
    | none => .next s
    | some h =>
      if s.phase ≠ 1 ∨ !s.hostOpen then .next s
      else if poison then .next (s.hostPoison.1.failLoad s.hostPoison.2)
      else if i.bytes.length ≠ h.sigOff ∨ ImgHeader.ofBytes i.bytes ≠ h then .next s
      else .next ((s.setPhase 2).setLoad { l with img := some { i with digest := imageDigest i } })

/-- VERIFY_END (R241): whether each signature verifies against the keys of the slot, and the floor of the slot. -/
def execVerifyEnd (rsa slh : Bool) (s : State) : Out :=
  s.loadEvent fun l =>
    if s.phase ≠ 2 then .next s
    else match l.hdr.bind fun h => (s.keySlot h.keyId).map fun k => (h, k) with
      | none => .next (s.refuseLoad { reason := 0x06 })
      | some (h, slot, floor) =>
        if !rsa then .next (s.refuseLoad { reason := 0x07 })
        else if !slh then .next (s.refuseLoad { reason := 0x08 })
        else if h.secVer < floor then .next (s.refuseLoad { reason := 0x09 })
        else .next ((s.setPhase 3).setLoad { l with slot := slot })

/-- ADMIT_END (R246): the checks of Table 7.4 and the placement; what the load reserves is held until it ends (R248), and sentinel checks
leave its sites (R276). -/
def execAdmitEnd (s : State) : Out :=
  s.loadEvent fun l => match s.phase, l.hdr, l.img with
    | 3, some h, some i => match s.admission l.owner h i with
      | .error r => .next (s.refuseLoad r)
      | .ok v => .next (((s.yieldCheckers (s.placedSites v)).setPhase 4).setLoad { l with result := some v })
    | _, _, _ => .next s

/-- DISTRIBUTE_END (R243): the CORE sections stand in the reserves of their dies. -/
def execDistributeEnd (s : State) : Out :=
  s.loadEvent fun l => if s.phase ≠ 4 then .next s else .next (if l.replace then s.enterDrain else s.enterSwitch)

/-- DRAIN_END (R249): every accepted item has its completion record, and lent cores have gone back. -/
def execDrainEnd (s : State) : Out :=
  s.loadEvent fun l => if s.phase ≠ 5 ∨ s.drainLeft l.owner then .next s else .next s.enterSwitch

/-- DRAIN_LIMIT_EXPIRE (R249): items that are still incomplete are ended as a tenant reset ends them, and SWITCH begins. -/
def execDrainLimitExpire (s : State) : Out :=
  s.loadEvent fun l =>
    let lim := s.rd R.GLB_IMG_DRAIN.LIMIT_US
    if s.phase ≠ 5 ∨ lim = 0 ∨ s.elapsed < l.drainStart + lim * 5000 then .next s
    else
      let (s, _) := s.stopClearing l.owner
      let (s, _) := (s.forgetRequests l.owner).cancelItems l.owner
      .next (if s.drainLeft l.owner then s else s.enterSwitch)

/-- SWITCH_WINDOW_END (R250, R251): the window of one core set ends, after at most 50 µs. -/
def execSwitchWindowEnd (c : Cluster) (ns : Fin 50001) (s : State) : Out :=
  s.loadEvent fun l => match l.result with
    | none => .next s
    | some r =>
      if s.phase ≠ 6 ∨ !l.windows.contains c.val then .next s
      else
        let s := s.wr R.GLB_IMG_WINDOW.LONGEST_NS (max (s.rd R.GLB_IMG_WINDOW.LONGEST_NS) ns.val)
        let ws := l.windows.filter fun w => w ≠ c.val
        let s := (s.installCluster l.owner r c.val).setLoad { l with windows := ws }
        .next (if ws.isEmpty then s.endSwitch else s)

/-- GLADE_ACTIVATE (R253): the activation drumbeat releases the glade, which receives that drumbeat. -/
def execGladeActivate (s : State) : Out :=
  s.loadEvent fun l => match s.phase, l.result, l.actSlot with
    | 7, some r, some m =>
      let mu := (r.img.radio.map ImgRadio.mu).getD 0
      let now := s.slotAt mu s.tai
      if now < m then .next s
      else
        let s := s.releaseLoad l r
        .next { s with rad := { s.rad with glades := s.rad.glades.modify l.owner fun g => { g with lastM := some (now - 1) } } }
    | _, _, _ => .next s

end Machine
end Sys2Proof
end

