-- ==== Sys2Proof/Machine/Tenancy.lean ====
section
/-!
DEFINITION. Clearings and tenants (chapter 9): the commands of SCH_CMD, tenant reset and removal, and the accesses of
unbound virtual functions.
-/
namespace Sys2Proof.Machine

/-! ### Command causes (Table 9.3) -/

/-- Whether an image load targets an owner. -/
def State.loadActive (s : State) (o : Nat) : Bool := s.ten.load.any fun l => l.owner = o

/-- SCH_ARG_a. -/
def State.schArg (s : State) (a : Nat) : Nat := s.rd R.SCH_ARG.ARG 0 a

/-- Whether the arguments of an operation break cause 0x04. -/
def State.badTenArg (s : State) (op : Nat) : Bool :=
  let a0 := s.schArg 0
  let a1 := s.schArg 1
  let a2 := s.schArg 2
  let budgets := decide (1024 < bitsAt a1 0 11 ∨ bitsAt a1 11 5 ≠ 0 ∨ bitsAt a1 33 31 ≠ 0)
    || decide (bitsAt a1 16 17 = 0 ∨ 65536 < bitsAt a1 16 17)
  let ext := decide (bitsAt a0 28 4 ≠ 0 ∨ bitsAt a0 37 3 ≠ 0 ∨ bitsAt a0 41 23 ≠ 0)
  match op with
  | 1 => budgets || decide (bitsAt a0 13 3 ≠ 0 ∨ bitsAt a0 28 36 ≠ 0 ∨ bitsAt a2 0 16 = 0 ∨ bitsAt a2 40 24 ≠ 0)
  | 2 => ext || decide (bitsAt a1 28 4 ≠ 0 ∨ bitsAt a1 56 8 ≠ 0 ∨ bitsAt a1 32 24 = 0)
  | 3 => ext
  | 4 => budgets
  | 5 | 6 => false
  | _ => true

/-- The extent that the arguments of MAP_EXTENT name. -/
def State.argExtent (s : State) : Extent :=
  { clPage := bitsAt (s.schArg 0) 0 28, devPage := bitsAt (s.schArg 1) 0 28, pages := bitsAt (s.schArg 1) 32 24
    write := bitsAt (s.schArg 0) 40 1 = 1 }

/-- Whether device pages may not join an extent (cause 0x0C): in the device reserve (R289), owned, on a stack out of
service, or over two stacks. -/
def State.badPages (s : State) (page n : Nat) : Bool :=
  let k := page / 2 ^ 24
  let last := page + n - 1
  decide (last / 2 ^ 24 ≠ k ∨ 0xF80000 ≤ last % 2 ^ 24) || !s.stackIn k
    || s.mem.extents.any fun e => decide (e.2.devPage < page + n ∧ page < e.2.devPage + e.2.pages)

/-- The cause for which a command of SCH_CMD is refused, or 0 (R288). -/
def State.tenCause (s : State) (op o : Nat) : Nat :=
  let st := s.tenState o
  let known := 1 ≤ op ∧ op ≤ 6
  let ext := op = 2 ∨ op = 3
  let a0 := s.schArg 0
  let reach := bitsAt a0 1 2
  let vf := bitsAt a0 3 10
  let queues := bitsAt (s.schArg 1) 16 17
  let has := s.mem.extents.has (o, bitsAt a0 32 5)
  let e := s.argExtent
  if 1023 < o then 0x01
  else if op = 1 ∧ st ≠ 0 then 0x02
  else if known ∧ op ≠ 1 ∧ st = 0 then 0x03
  else if s.badTenArg op then 0x04
  else if (st = 2 ∨ st = 3) ∧ op ≠ 6 then 0x05
  else if (ext ∨ op = 4) ∧ s.loadActive o then 0x06
  else if op = 4 ∧ s.holdsImage o then 0x07
  else if op = 1 ∧ (reach = 3 ∨ (bitsAt a0 0 1 = 1 ∧ reach ≠ 0) ∨ (reach = 1 ∧ (vf = 0 ∨ (s.vfOwner vf).isSome))) then 0x08
  else if op = 1 ∧ s.rd R.SCH_POOL.FREE_QUEUES < queues then 0x09
  else if op = 4 ∧ (queues < s.mappedOf o ∨ s.rd R.SCH_POOL.FREE_QUEUES + s.rd R.SCH_TEN_BUDGET.QUEUES 0 o < queues) then 0x09
  else if ext ∧ (op = 2) = has then 0x0A
  else if op = 2 ∧ s.mem.extents.any fun x =>
      x.1.1 = o && decide (x.2.clPage < e.clPage + e.pages ∧ e.clPage < x.2.clPage + x.2.pages) then 0x0B
  else if op = 2 ∧ s.badPages e.devPage e.pages then 0x0C
  else 0

/-! ### The command registers (R285) -/

/-- A command of SCH_CMD is accepted: BUSY, OP, OWNER and CMD_SEQ. -/
def State.openTenCmd (s : State) (op o : Nat) : State :=
  let s := (s.set1 R.SCH_CMD_STATUS.BUSY).tick R.SCH_CMD_STATUS.CMD_SEQ
  ((s.wr R.SCH_CMD_STATUS.OP op).wr R.SCH_CMD_STATUS.OWNER o).wr R.SCH_CMD_STATUS.CAUSE 0

/-- The running command ends: Done, Failed (3), or Refused (5) with its cause. -/
def State.endTenCmd (s : State) (status : Nat) (cause : Nat := 0) : State :=
  let s := ((s.wr R.SCH_CMD_STATUS.BUSY 0).wr R.SCH_CMD_STATUS.STATUS status).wr R.SCH_CMD_STATUS.CAUSE cause
  { s.eventCmdDone with ten := { s.ten with cmd := none } }

/-- One write of SCH_CMD, where the manager reaches it: lost while BUSY, refused by a cause, or with the effect of its command. -/
def State.tenCommand (s : State) (op o : Nat) (run : State → State) : State :=
  if !s.managed then s
  else if s.flag R.SCH_CMD_STATUS.BUSY then s.set1 R.SCH_CMD_STATUS.CMD_LOST
  else
    let cause := s.tenCause op o
    let s := s.openTenCmd op o
    if cause ≠ 0 then s.endTenCmd 5 cause else run s

/-- A write of a reserved OP (cause 0x04, or 0x01). -/
def State.reservedTenCmd (s : State) (op o : Nat) : State := s.tenCommand op o fun s => s.endTenCmd 0

/-- CORES and QUEUES of an owner from SCH_ARG_1, the pool changed by the difference. -/
def State.setBudget (s : State) (o : Nat) : State :=
  let q := bitsAt (s.schArg 1) 16 17
  let pool := s.rd R.SCH_POOL.FREE_QUEUES + s.rd R.SCH_TEN_BUDGET.QUEUES 0 o - q
  let s := (s.wr R.SCH_POOL.FREE_QUEUES pool).wr R.SCH_TEN_BUDGET.QUEUES q 0 o
  (s.wr R.SCH_TEN_BUDGET.CORES (bitsAt (s.schArg 1) 0 11) 0 o).tick R.SCH_TEN_GEN.GEN

/-- Fields of a tenant table entry that CREATE sets to 0 (R286). -/
def createZero : List Fld :=
  [R.SCH_TEN_CFG.IMAGE, R.SCH_TEN_BUDGET.EXTENTS, R.SCH_TEN_ENGINE.CORE_NS, R.SCH_TEN_VIOL.MEM, R.SCH_TEN_VIOL.QUEUE,
   R.SCH_TEN_VIOL.REG, R.SCH_TEN_VIOL.STREAM, R.SCH_TEN_RESET.DURATION_US, R.SCH_TEN_RESET.SQUASHED, R.SCH_TEN_RESET.SOURCE,
   R.SCH_TEN_RESET.CANCELLED, R.GLB_DET_ND_COUNT.ORDER, R.GLB_DET_ND_COUNT.ATOMIC]

/-- CREATE (R286): SCH_CMD written with OP 1. -/
def execCreate (owner : Fin 2048) (s : State) : Out :=
  let o := owner.val
  .next (s.tenCommand 1 o fun s =>
    let a0 := s.schArg 0
    let a2 := s.schArg 2
    let reach := bitsAt a0 1 2
    let s := createZero.foldl (fun (s : State) f => s.wr f 0 0 o) s
    let s := ((s.wr R.SCH_TEN_CFG.STATE 1 0 o).wr R.SCH_TEN_CFG.CLASS (bitsAt a0 0 1) 0 o).wr R.SCH_TEN_CFG.REACH reach 0 o
    let s := s.wr R.SCH_TEN_CFG.VF (if reach = 1 then bitsAt a0 3 10 else 0) 0 o
    let s := s.wr R.SCH_TEN_CFG.NODE (if reach = 2 then bitsAt a0 16 12 else 0) 0 o
    let s := s.wr R.SCH_TEN_SHARE.WEIGHT (bitsAt a2 0 16) 0 o
    let s := s.wr R.SCH_TEN_DRAIN.LIMIT_US (clamp 10 50000 (bitsAt a2 16 24)) 0 o
    let s := s.wr R.SCH_POOL.CLEARINGS (s.rd R.SCH_POOL.CLEARINGS + 1)
    let s := if reach = 1 then s.wr R.SCH_POOL.VFS_BOUND (s.rd R.SCH_POOL.VFS_BOUND + 1) else s
    (s.setBudget o).endTenCmd 0)

/-- BUDGET (R287): SCH_CMD written with OP 4. -/
def execBudget (owner : Fin 2048) (s : State) : Out :=
  .next (s.tenCommand 4 owner fun s => (s.setBudget owner).endTenCmd 0)

/-! ### Extents (R290, R291) -/

/-- The extent command in progress changed. -/
def State.setExtentCmd (s : State) (c : ExtentCmd) : State := { s with ten := { s.ten with cmd := some c } }

/-- Step 3 of R290: the owner's movers start no descriptor. -/
def State.stopMovers (s : State) (c : ExtentCmd) : State :=
  let s := s.setExtentCmd { c with phase := .idle, since := s.elapsed }
  { s with mem := { s.mem with movStop := c.owner :: s.mem.movStop } }

/-- The owner's movers may start descriptors again. -/
def State.startMovers (s : State) (o : Nat) : State :=
  { s with mem := { s.mem with movStop := s.mem.movStop.filter fun x => x ≠ o } }

/-- Whether no mover of an owner, on a site or in a saved context, has an incomplete descriptor. -/
def State.moversIdle (s : State) (o : Nat) : Bool :=
  (s.mem.movers.all fun e => e.2.active.all fun d => d.owner ≠ o)
    && s.sched.ctxs.all fun e => e.1.1 ≠ o || e.2.saved.all fun v => (v.mover.map fun m => m.active.isEmpty).getD true

/-- MAP_EXTENT (R290): SCH_CMD written with OP 2. The zeroing of its pages begins. -/
def execMapExtent (owner : Fin 2048) (s : State) : Out :=
  .next (s.tenCommand 2 owner fun s =>
    s.setExtentCmd { owner := owner, index := bitsAt (s.schArg 0) 32 5, ext := some s.argExtent, phase := .zeroing })

/-- UNMAP_EXTENT (R291): SCH_CMD written with OP 3. -/
def execUnmapExtent (owner : Fin 2048) (s : State) : Out :=
  .next (s.tenCommand 3 owner fun s =>
    s.stopMovers { owner := owner, index := bitsAt (s.schArg 0) 32 5, ext := none, phase := .idle })

/-- EXTENT_ZERO_DONE (R290 step 2): the pages are zeros, or an uncorrectable error ends the command Failed. -/
def execExtentZeroDone (ok : Bool) (s : State) : Out :=
  match s.ten.cmd with
  | none => .next s
  | some c => match c.phase, c.ext with
    | .zeroing, some e =>
      if ok then .next ((s.zeroPages e.devPage e.pages).stopMovers c)
      else
        let k := e.devPage / 2 ^ 24
        let s := (s.detect { cls := .dataUncorr, sub := 5, die := k / 2, stack := k, unit := 7 }).1
        .next (s.endTenCmd 3)
    | _, _ => .next s

/-- MOVERS_IDLE (R290 steps 4 and 5, R291): the extent is installed on every die, or removed. -/
def execMoversIdle (s : State) : Out :=
  match s.ten.cmd with
  | none => .next s
  | some c =>
    if c.phase ≠ .idle ∨ !s.moversIdle c.owner then .next s
    else
      let s : State := match c.ext with
        | none => s.removeExtent c.owner c.index
        | some e =>
          let t : State := { s with mem := { s.mem with extents := s.mem.extents.put (c.owner, c.index) e } }
          let t := t.wr R.SCH_TEN_BUDGET.EXTENTS (t.rd R.SCH_TEN_BUDGET.EXTENTS 0 c.owner + 1) 0 c.owner
          (t.tick R.SCH_TEN_GEN.GEN).extentGen
      .next ((s.startMovers c.owner).endTenCmd 0)

/-- MOVERS_BUSY (R290): the drain limit passes before the movers fall idle; the zeroed pages stay free. -/
def execMoversBusy (s : State) : Out :=
  match s.ten.cmd with
  | none => .next s
  | some c =>
    if c.phase ≠ .idle ∨ s.moversIdle c.owner ∨ s.elapsed < c.since + s.rd R.SCH_TEN_DRAIN.LIMIT_US 0 c.owner * 5000 then .next s
    else .next ((s.startMovers c.owner).endTenCmd 5 0x0D)

/-! ### Reset and removal (R297 to R301) -/

/-- Steps 1 and 2 of R298: STATE changes, acceptance stops, a removed glade's cells are handed over and its flows leave the tables
(R402, R404), its lent shapes are recalled (R371), the barrier and the image load end, and step 3 follows unless
the load is in SWITCH. -/
def State.beginReset (s : State) (o source : Nat) : State :=
  let s := (s.wr R.SCH_TEN_CFG.STATE (if source = 3 then 3 else 2) 0 o).tick R.SCH_TEN_GEN.GEN
  let s := ((s.voidOwner o).dropBarrier o).recallOf o
  let s := if source = 3 then s.dropRadio o else s
  let s := if s.loadActive o then s.settleLoad else s
  let waits := s.loadActive o && decide (s.phase = 6)
  let r : ResetSt := { step := if waits then ResetStep.waitSwitch else ResetStep.drain, start := s.elapsed, source := source
                       limit := s.rd R.SCH_TEN_DRAIN.LIMIT_US 0 o }
  let t : State := { s with ten := { s.ten with resets := s.ten.resets.put o r } }
  if waits then t
  else
    let t := if t.loadActive o then t.dropLoad 2 else t
    t.beginDrain o

/-- RESET (R298): SCH_CMD written with OP 5. -/
def execReset (owner : Fin 2048) (s : State) : Out :=
  .next (s.tenCommand 5 owner fun s => (s.beginReset owner 1).endTenCmd 0)

/-- REMOVE (R300, Table 9.5): SCH_CMD written with OP 6; it takes over a running reset, with a glade's cells handed over
and its flows out of the tables (R402, R404), and changes nothing in a running removal. -/
def execRemove (owner : Fin 2048) (s : State) : Out :=
  let o := owner.val
  .next (s.tenCommand 6 o fun s =>
    match s.tenState o, s.ten.resets.find o with
    | 3, _ => s.endTenCmd 0
    | _, some r =>
      let s := s.dropRadio o
      let t : State := { s with ten := { s.ten with resets := s.ten.resets.put o { r with source := 3 } } }
      ((t.wr R.SCH_TEN_CFG.STATE 3 0 o).tick R.SCH_TEN_GEN.GEN).endTenCmd 0
    | _, none => (s.beginReset o 3).endTenCmd 0)

/-- A tenant reset that a virtual function begins (R297); a running one goes on (Table 9.5). -/
def State.resetVf (s : State) (vf : Nat) : State :=
  match s.vfOwner vf with
  | some o => if s.tenState o = 1 then s.beginReset o 2 else s
  | none => s

/-- Whether a request of a clearing in drain is still to be answered. -/
def State.drainOpen (s : State) (o : Nat) (r : ResetSt) : Bool := s.requestsLeft o || !r.left.isEmpty

/-- RESET_DRAIN_END (R298 steps 4 to 7): every issued request has been answered, and no shape of the clearing is lent (R371). -/
def execResetDrainEnd (owner : Fin 1024) (s : State) : Out :=
  match s.ten.resets.find owner.val with
  | none => .next s
  | some r => if r.step ≠ .drain ∨ s.drainOpen owner r ∨ s.lentOpen owner then .next s else .next (s.finishReset owner r.squashed)

/-- SQUASH (R298 step 4): the drain limit passes with transfers left; a shape that is still lent is returned first (R371). -/
def execSquash (owner : Fin 1024) (s : State) : Out :=
  match s.ten.resets.find owner.val with
  | none => .next s
  | some r =>
    if r.step ≠ .drain ∨ !s.drainOpen owner r ∨ s.elapsed < r.step3 + r.limit * 5000 then .next s
    else
      let t := s.forgetRequests owner
      if s.lentOpen owner then
        .next { t with ten := { t.ten with resets := t.ten.resets.put owner.val { r with left := [], squashed := true } } }
      else .next (t.finishReset owner true)

end Sys2Proof.Machine
end

