-- ==== Sys2Proof/Machine/HostIf.lean ====
section
/-!
DEFINITION. The host interface over CXL (chapter 16): the port pair, configuration space as the host writes it, BAR 2,
translations, host requests, interrupts, IDE.
-/
namespace Sys2Proof

/-- The page a request of a mover touches. -/
def MovReq.hostPage (r : MovReq) : Nat := r.line * 256 / 4096

namespace Machine

/-! ### The port pair (16.1) -/

/-- STATE of the active port. -/
def State.activeField (s : State) : Fld := if s.flag R.HST_PORT.ACTIVE then R.HST_PORT.STATE_B else R.HST_PORT.STATE_A

/-- The active link takes a state below L0. -/
def State.linkOut (s : State) (st : Nat) : State :=
  let s := ((s.wr s.activeField st).wr R.HST_PORT.WIDTH 0).wr R.HST_PORT.SPEED 0
  { s with host := { s.host with down := some (s.host.down.getD s.elapsed) } }

/-- The active link reaches L0 with a width and a speed. -/
def State.linkIn (s : State) (x16 gt64 : Bool) : State :=
  let s := (s.wr s.activeField 3).wr R.HST_PORT.WIDTH (if x16 then 16 else 8)
  let t : State := s.wr R.HST_PORT.SPEED (if gt64 then 6 else 5)
  let t : State := { t with host := { t.host with down := none, switching := false } }
  t.flushHost

/-- The active role moves to port B (R500 to R502): a LINK record, configuration space at its reset values, no translation
held, and FETCH from byte 0 (Table 7.6). -/
def State.hostSwitch (s : State) : State :=
  if s.rd R.HST_PORT.STATE_B ≠ 1 then s
  else
    let a := if s.rd R.HST_PORT.STATE_A = 5 then 5 else 4
    let s := ((s.wr R.HST_PORT.STATE_A a).wr R.HST_PORT.ACTIVE 1).linkOut 2
    let s := (s.tick R.HST_PORT.SWITCHES).wr R.HST_PORT.STATE_B 2
    let s : State := { s with host := { s.host with cfg := {}, doe := none, xlat := [], inval := [], switching := true } }
    let s : State := match s.ten.load with
      | some l => if s.phase = 1 then s.setLoad { l with hdr := none, img := none } else s
      | none => s
    (s.detect { cls := .link, sub := 3, die := 7, unit := 7 }).1

/-- SWITCH (R500): HST_CMD written with SWITCH; ignored unless port B is held (R503). -/
def execSwitch (s : State) : Out :=
  if !s.managed then .next s else
  .next s.hostSwitch

/-- LINK_TIMEOUT (R500): the active port has stayed out of L0 for LINK_TMO_MS. -/
def execLinkTimeout (s : State) : Out :=
  match s.host.down with
  | none => .next s
  | some t =>
    if s.elapsed < t + s.rd R.HST_CTRL.LINK_TMO_MS * 5000000 ∨ !s.flag R.HST_CTRL.AUTO_SWITCH then .next s else .next s.hostSwitch

/-- PORT_SWITCH (R332, R500, R501): the new port reaches L0; what waits for host memory goes out. -/
def execPortSwitch (x16 gt64 : Bool) (s : State) : Out :=
  if !s.host.switching then .next s
  else
    let qs := (s.que.queues.filter fun e => !e.2.msgFed).map fun e => e.1
    let t : State := { s with que := { s.que with sweep := (s.que.sweep ++ qs).eraseDups } }
    .next (t.linkIn x16 gt64).eventPortSwitch

/-- CXL_LINK_L0 (R570): the link of the active port reaches L0 while it trains or is down. -/
def execCxlLinkL0 (x16 gt64 : Bool) (s : State) : Out :=
  let st := s.rd s.activeField
  if s.host.switching ∨ (st ≠ 2 ∧ st ≠ 4) then .next s else .next (s.linkIn x16 gt64)

/-- LINK_RESET (R522): configuration space of every function at its reset values; the LINK_TMO_MS wait runs. -/
def execLinkReset (s : State) : Out :=
  let st := s.rd s.activeField
  if st ≠ 3 then .next s
  else .next { s.linkOut 4 with host := { (s.linkOut 4).host with cfg := {}, doe := none } }

/-! ### Function-level resets (R297, R522) -/

/-- The interrupt registers of a VF at their reset values. -/
def State.clearVf (s : State) (vf : Nat) : State :=
  let s := ((s.wr R.HST_VF_IRQ_CTRL.EN 0 0 vf).wr R.HST_VF_IRQ_CTRL.HOLDOFF_US 0 0 vf).wr R.HST_VF_IRQ_PEND.PEND 0 0 vf
  { s with host := { s.host with holdoff := s.host.holdoff.filter fun x => x.1 ≠ vf, lastMsg := s.host.lastMsg.filter fun x => x.1.1 ≠ vf
                                 msix := s.host.msix.filter fun x => x.1.1 ≠ vf } }

/-- Virtual functions above a number that a clearing is bound to. -/
def State.boundAbove (s : State) (n : Nat) : List Nat :=
  (List.range 1024).filterMap fun o =>
    let v := s.rd R.SCH_TEN_CFG.VF 0 o
    if s.tenState o ≠ 0 ∧ s.rd R.SCH_TEN_CFG.REACH 0 o = 1 ∧ n < v then some v else none

/-- VF_FLR (R297): a function-level reset of a virtual function. -/
def execVfFlr (vf : Fin 1024) (s : State) : Out :=
  if s.configOpen && s.vfOn vf then .next ((s.clearVf vf).resetVf vf) else .next s

/-- VF_DISABLE (R297, R502): the host clears VF Enable, and every bound VF begins its tenant reset; or it lowers NumVFs to `n`, and
every bound VF whose number it falls below begins its own. -/
def execVfDisable (n : Option (Fin 1024)) (s : State) : Out :=
  if !s.configOpen then .next s else
  match n with
  | none =>
    if !s.host.cfg.vfEnable then .next s
    else
      let t : State := { s with host := { s.host with cfg := { s.host.cfg with vfEnable := false } } }
      .next ((t.boundAbove 0).foldl (fun s v => (s.clearVf v).resetVf v) t)
  | some n =>
    if s.host.cfg.numVfs ≤ n then .next s
    else
      let t : State := { s with host := { s.host with cfg := { s.host.cfg with numVfs := n } } }
      .next (((t.boundAbove n).filter fun v => v ≤ s.host.cfg.numVfs).foldl (fun s v => (s.clearVf v).resetVf v) t)

/-- PF_FLR (R522): PF configuration space and the HST_ registers at their reset values, but for what HST_PORT shows of the ports (log entry
77); VF Enable clears. -/
def execPfFlr (s : State) : Out :=
  if !s.configOpen then .next s else
  let fs : List Fld := [R.HST_CTRL.LINK_TMO_MS, R.HST_CTRL.AUTO_SWITCH, R.HST_CTRL.IDE_REQUIRED, R.HST_PORT.SWITCHES, R.HST_POISON.COUNT,
    R.HST_XLAT_FAULT.COUNT, R.HST_IDE.IO_STATE, R.HST_IDE.CACHE_STATE, R.HST_IDE.FAILS, R.HST_EVENTS.ERROR, R.HST_EVENTS.IMAGE_LOAD, R.HST_EVENTS.TENANT_RESET,
    R.HST_EVENTS.PORT_SWITCH, R.HST_EVENTS.IDE_FAIL, R.HST_EVENTS.CMD_DONE, R.HST_EVENT_EN.ERROR, R.HST_EVENT_EN.IMAGE_LOAD,
    R.HST_EVENT_EN.TENANT_RESET, R.HST_EVENT_EN.PORT_SWITCH, R.HST_EVENT_EN.IDE_FAIL, R.HST_EVENT_EN.CMD_DONE]
  let s := fs.foldl (fun (s : State) f => s.wr f f.rst) s
  let t : State := { s with host := { s.host with cfg := {}, doe := none, msix := s.host.msix.filter fun x => x.1.1 ≠ 0 } }
  .next ((t.boundAbove 0).foldl (fun s v => (s.clearVf v).resetVf v) t)

/-! ### BAR 2 (16.4) -/

/-- What a read of an aligned 64-bit word of a clearing's BAR 2 layout gives, or nothing at an unassigned offset; `reach`
says that it comes through the reach window (R511, R512). -/
def State.bar2Word (s : State) (o off : Nat) (reach : Bool) : Option Nat :=
  let vf := s.rd R.SCH_TEN_CFG.VF 0 o
  let grp (g : Nat) : Nat :=
    let v := s.sched.groups.findD (o, g) (0, none)
    (v.1 + ((v.2.map fun t => s.elapsed - t).getD 0)) / 5
  if off = 0 then some 0
  else if 0x10000 ≤ off ∧ off < 0x90000 then
    some (match s.localQueue o ((off - 0x10000) / 8) with
      | some (q, v) => v.accepted + (if s.hold q v = 0 then 0 else 2 ^ 48)
      | none => 0)
  else if off = 0x100000 then
    some (s.rd R.SCH_TEN_CFG.IMAGE 0 o + (if s.tenState o = 2 ∨ s.tenState o = 3 then 2 else 0) + s.rd R.QUE_EPOCH.EPOCH * 2 ^ 32)
  else if off = 0x100008 then some (((s.sched.released.find o).map fun t => (s.elapsed - t) / 5).getD 0)
  else if off = 0x100010 then some (s.rd R.SCH_TEN_ENGINE.CORE_NS 0 o)
  else if off = 0x100018 then some (s.rd R.GLB_DET_ND_COUNT.ORDER 0 o + s.rd R.GLB_DET_ND_COUNT.ATOMIC 0 o * 2 ^ 32)
  else if 0x100040 ≤ off ∧ off < 0x1000C0 then some (grp ((off - 0x100040) / 8))
  else if reach then none
  else if off = 0x101000 then some (s.rd R.HST_VF_IRQ_CTRL.EN 0 vf + s.rd R.HST_VF_IRQ_CTRL.HOLDOFF_US 0 vf * 2 ^ 16)
  else if off = 0x101008 then some (s.rd R.HST_VF_IRQ_PEND.PEND 0 vf)
  else none

/-- A read of a 64-bit word of BAR 2 as it is counted: an unmapped local index as a QUEUE violation, an unassigned offset as
a REG violation (R296). -/
def State.bar2Read (s : State) (o off : Nat) (reach : Bool) : State × Nat :=
  match s.bar2Word o off reach with
  | none => (s.violate R.SCH_TEN_VIOL.REG o, 0)
  | some v =>
    if 0x10000 ≤ off ∧ off < 0x90000 ∧ (s.localQueue o ((off - 0x10000) / 8)).isNone then (s.violate R.SCH_TEN_VIOL.QUEUE o, v)
    else (s, v)

/-- Whether bytes lie in the MSI-X table of four entries or the PBA, whose access sizes are those of their standard (R510). -/
def msixRange (off size : Nat) : Bool := (0x180000 ≤ off && off + size ≤ 0x180040) || (0x181000 ≤ off && off + size ≤ 0x181008)

/-- What an access to `size` bytes of a clearing's BAR 2 counts of itself (R296): a size or alignment that R6 ignores and an unassigned
offset as REG, the status of an unmapped local index as QUEUE. -/
def State.bar2Access (s : State) (o off size : Nat) : State :=
  if msixRange off size then s
  else if !((size = 4 || size = 8) && off % size = 0) then s.violate R.SCH_TEN_VIOL.REG o
  else (s.bar2Read o (off / 8 * 8) false).1

/-- VF_UNBOUND_ACCESS (R292, R570): an access to the BAR 2 of an enabled VF that no owner is bound to, or of any enabled VF
until the package is ready. Of one that an owner is bound to, what the access counts of itself (R296, log entry 147). -/
def execVfUnboundAccess (vf : Fin 1024) (off : Fin 0x200000) (size : Fin 65) (s : State) : Out :=
  if !(s.answers && s.vfOn vf) then .next s
  else match (if s.managed then s.vfOwner vf else none) with
    | none => .next (s.bump R.SCH_VIOL_UNBOUND.COUNT)
    | some o => .next (s.bar2Access o off size)

/-- IRQ_HOLDOFF_END (R513): the hold-off of a vector ends; the message goes where its bit is still 1. -/
def execIrqHoldoffEnd (vf : Fin 1024) (v : Fin 4) (s : State) : Out :=
  let k := (vf.val, v.val)
  match s.host.lastMsg.find k with
  | none => .next s
  | some t =>
    if !s.host.holdoff.contains k ∨ s.elapsed < t + s.rd R.HST_VF_IRQ_CTRL.HOLDOFF_US 0 vf * 5000 then .next s
    else
      let s : State := { s with host := { s.host with holdoff := s.host.holdoff.filter fun x => x ≠ k } }
      if (s.rd R.HST_VF_IRQ_PEND.PEND 0 vf).testBit v then
        .next { s with host := { s.host with sent := s.host.sent ++ [k], lastMsg := s.host.lastMsg.put k s.elapsed } }
      else .next s

/-! ### Host memory (16.5) -/

/-- A host request of a mover by site and number. -/
def State.hostReq (s : State) (site id : Nat) : Option MovReq :=
  let m := s.mover site
  if m.resp.any fun r => r.req.id = id then none else m.host.find? fun r => r.id = id

/-- Whether a host request of a mover is in flight: its translation is held, or was when an invalidation came (R515). -/
def State.inFlight (s : State) (site : Nat) (r : MovReq) : Bool :=
  (s.host.inval.any fun v => v.open_.contains (site, r.id))
    || ((s.hostFn r.owner).bind fun fn => s.xlatOf fn r.hostPage r.write.isSome).isSome

/-- A request that used an invalidated translation has ended; an invalidation with none left is answered (R515). -/
def State.closeInval (s : State) (site id : Nat) : State :=
  let vs := s.host.inval.map fun v => { v with open_ := v.open_.filter fun x => x ≠ (site, id) }
  let done := vs.filter fun v => v.open_.isEmpty
  { s with host := { s.host with inval := vs.filter fun v => !v.open_.isEmpty
                                 answers := s.host.answers ++ done.map fun v => .invalidated v.fn v.page v.n } }

/-- Requests of movers to host memory that have not been answered. -/
def State.hostReqs (s : State) : List (Nat × MovReq) := s.mem.movers.flatMap fun e => e.2.host.filterMap fun r =>
  if e.2.resp.any fun x => x.req.id = r.id then none else some (e.1, r)

/-- ATS_TRANSLATION (R515): a translation completion for a page of a function. One that grants what an access that waits
needs is held, in place of entry `victim` where 8,192 are; for any other access that waits it is a fault. -/
def execAtsTranslation (x : Xlat) (victim : Nat) (s : State) : Out :=
  let mine := s.hostReqs.filter fun r => s.hostFn r.2.owner = some x.fn && r.2.hostPage = x.page && !s.inFlight r.1 r.2
  let wr := s.host.waiting.filter fun w => w.fn = x.fn && w.addr / 4096 = x.page
  if mine.isEmpty ∧ wr.isEmpty then .next s
  else
    let old := s.host.xlat.filter fun y => !(y.fn = x.fn && y.page = x.page)
    let old := if 8192 ≤ old.length then old.eraseIdx (victim % 8192) else old
    let keep := x.read || x.write
    let t : State := { s with host := { s.host with xlat := if keep then old ++ [x] else old } }
    let t := mine.foldl (fun (s : State) r =>
      if (if r.2.write.isSome then x.write else x.read) then s
      else ((s.answerMover r.1 r.2 zeroLine false).violate R.SCH_TEN_VIOL.MEM r.2.owner).bump R.HST_XLAT_FAULT.COUNT) t
    if x.write then .next t.flushHost
    else
      let u : State := { t with host := { t.host with waiting := t.host.waiting.filter fun w => !(w.fn = x.fn && w.addr / 4096 = x.page) } }
      .next (wr.foldl (fun (s : State) w => (s.violate R.SCH_TEN_VIOL.MEM w.owner).bump R.HST_XLAT_FAULT.COUNT) u)

/-- ATS_INVALIDATE (R515): the named translations go; the answer waits for the requests that used them. -/
def execAtsInvalidate (fn : Fin 1024) (page n : Nat) (s : State) : Out :=
  let within (f p : Nat) : Bool := f = fn.val && decide (page ≤ p ∧ p < page + n)
  let used := s.hostReqs.filterMap fun r =>
    match s.hostFn r.2.owner with
    | some f => if within f r.2.hostPage ∧ s.inFlight r.1 r.2 then some (r.1, r.2.id) else none
    | none => none
  let t : State := { s with host := { s.host with xlat := s.host.xlat.filter fun x => !within x.fn x.page } }
  if used.isEmpty then .next { t with host := { t.host with answers := t.host.answers ++ [.invalidated fn page n] } }
  else .next { t with host := { t.host with inval := t.host.inval ++ [{ fn := fn, page := page, n := n, open_ := used }] } }

/-- SNOOP (R516): the device holds no host line. -/
def execSnoop (s : State) : Out := .next { s with host := { s.host with answers := s.host.answers ++ [.rspIHitI] } }

/-- A request of a clearing in reset that the host answers (R298 step 4). -/
def State.dropLeft (s : State) (site id : Nat) : State :=
  let rs := s.ten.resets.mapVal fun _ r => { r with left := r.left.filter fun x => !(x.1 = site && x.2.id = id) }
  { s with ten := { s.ten with resets := rs } }

/-- HOST_READ_DATA (R517): data of a read of a mover come; poisoned data fail the transfer. -/
def execHostReadData (site : Site) (id : Nat) (data : Vector Byte 256) (poison : Bool) (s : State) : Out :=
  if !s.hostOpen then .next s
  else
    let s := s.dropLeft site id
    match s.hostReq site id with
    | none => .next s
    | some r =>
      if r.write.isSome ∨ !s.inFlight site r then .next s
      else
        let s := (s.answerMover site r data.toList poison).closeInval site id
        if !poison then .next s
        else
          let s := s.failWith { s.atSite .poison 2 site 5 r.item with owner := some r.owner, recUnit := none }
          .next (s.bump R.HST_POISON.COUNT)

/-- GLOBAL_OBSERVATION (R517): the host has made a write of a mover globally observed. -/
def execGlobalObservation (site : Site) (id : Nat) (s : State) : Out :=
  if !s.hostOpen then .next s
  else
    let s := s.dropLeft site id
    match s.hostReq site id with
    | none => .next s
    | some r =>
      match r.write, (s.hostFn r.owner).bind fun fn => s.xlatOf fn r.hostPage true with
      | some b, x =>
        if !s.inFlight site r then .next s
        else
          let base := ((x.map fun x => x.tr * 4096 + r.line * 256 % 4096).getD (r.line * 256))
          let out := b.map fun y => (base + y.1, [y.2])
          let s : State := { s with host := { s.host with writes := s.host.writes ++ out } }
          .next ((s.answerMover site r [] false).closeInval site id)
      | none, _ => .next s

/-! ### IDE (R521) -/

/-- IDE_FAIL (R521): a check of a secure stream fails. -/
def execIdeFail (cache : Bool) (s : State) : Out :=
  let f := if cache then R.HST_IDE.CACHE_STATE else R.HST_IDE.IO_STATE
  if s.rd f ≠ 1 then .next s
  else
    let s := (s.wr f 2).bump R.HST_IDE.FAILS
    .next (s.detect { cls := .link, sub := Config.ideSub % 256, die := s.activeDie, unit := 7 }).1.eventIdeFail

end Machine
end Sys2Proof
end

