-- ==== Sys2Proof/Machine/Woruri.lean ====
section
/-!
DEFINITION. The Woruri fabric (chapter 14): links and their checks, delivery in order, the home of exported memory, atomics
through the replay table, the store-merge buffers, the source with its resends and dead targets, windows and invalidates.
-/
namespace Sys2Proof

/-- The class of a packet type (Table 14.2). -/
def PktType.cls : PktType → PktClass
  | .read | .write | .atomic | .inv => .request
  | .readRsp | .writeAck | .invAck | .atomicRsp => .response
  | .nack | .probe | .probeAck | .spdm => .control

/-- Bytes of payload on the wire (Table 14.2). -/
def Packet.payload (p : Packet) : Nat :=
  match p.typ with
  | .write => if p.len = 256 then 288 else 64
  | .read => 32 * p.count
  | .atomic => 32 * max 1 p.count
  | .readRsp => 256
  | .atomicRsp => if p.combined then 32 * p.count else 8
  | .spdm => p.data.length
  | _ => 0

/-- Link credits a packet takes, in units of 32 bytes (14.3, R441). -/
def Packet.units (p : Packet) : Nat := (56 + p.payload + 31) / 32

/-- Sequences and CUM values compared modulo 2^32 (R437). -/
def seqBelow (a b : Nat) : Bool :=
  let d := (b + 2 ^ 32 - a % 2 ^ 32) % 2 ^ 32
  decide (1 ≤ d ∧ d < 2 ^ 31)

/-- a at or below b. -/
def seqLe (a b : Nat) : Bool := a % 2 ^ 32 = b % 2 ^ 32 || seqBelow a b

/-- The sequence after one. -/
def seqNext (a : Nat) : Nat := (a + 1) % 2 ^ 32

/-- The (source, sequence) pairs of a request: one, or the constituents of a combined one (R448). -/
def Packet.parts (p : Packet) : List (Nat × Nat) :=
  if p.combined then p.atoms.map fun a => (a.src, a.seq) else [(p.src, p.seq)]

/-- Whether an atomic may be combined (R446). -/
def Packet.mayCombine (p : Packet) : Bool := match p.typ with | .atomic => p.op = 1 | _ => true

/-- The field an atomic acts on, from old value and operands, of `w` bits (Table 14.3). -/
def atomResult (op w old a b : Nat) : Nat :=
  let sg (v : Nat) : Int := if v < 2 ^ (w - 1) then v else (v : Int) - 2 ^ w
  match op with
  | 1 => (old + a) % 2 ^ w
  | 2 => a
  | 3 => if old = b then a else old
  | 4 => if sg a < sg old then a else old
  | 5 => if sg old < sg a then a else old
  | 6 => old &&& a
  | 7 => old ||| a
  | _ => old ^^^ a

/-- Bytes a WRITE writes within its line. -/
def Packet.lineBytes (p : Packet) : LineBytes :=
  let off := p.addr % 256
  p.data.zipIdx.filterMap fun x => if p.mask.testBit (off + x.2) then some (off + x.2, x.1) else none

/-- Fields legal in themselves (R436, R456): class, combination, length, alignment, reserved values. -/
def Packet.legal (p : Packet) : Bool :=
  let comb := if p.combined then
      (match p.typ with | .read | .atomic | .readRsp | .atomicRsp => true | _ => false)
        && (p.cls ≠ .request || decide (2 ≤ p.count ∧ p.count ≤ 8 ∧ p.atoms.length = p.count))
        && (p.cls ≠ .request || (p.typ ≠ .atomic || p.op = 1))
    else p.count = 0
  let shape := match p.typ with
    | .read => p.len = 0 && p.addr % 256 = 0
    | .write => (p.len = 64 && decide (p.addr % 64 = 0)) || (p.len = 256 && decide (p.addr % 256 = 0))
    | .atomic => p.len = 0 && decide (1 ≤ p.op ∧ p.op ≤ 8) && decide (p.addr % (if p.size8 then 8 else 4) = 0) && !p.atoms.isEmpty
    | .inv => p.len = 0 && decide (1 ≤ p.lines ∧ p.lines ≤ 4096 ∧ p.addr % 256 = 0)
    | .readRsp => p.len = 256 && p.data.length = 256
    | _ => p.len = 0
  let home := match p.typ with
    | .read | .write | .atomic => p.addr / 2 ^ 44 = p.dst
    | _ => true
  p.cls = p.typ.cls && !p.odd && comb && shape && home && decide (p.addr < 2 ^ 56)

/-- The record of an atomic in the replay table: its key and its place in effect order (R447, R325). -/
def AtomEntry.key (a : AtomEntry) (src : Nat) : Nat × Nat × Nat × Nat := (src, a.epoch % 2 ^ 32, a.stamp / 2 ^ 16 % 2 ^ 16, a.identity / 2 ^ 44)
def AtomEntry.order (a : AtomEntry) : Nat := a.stamp % 2 ^ 16 * 2 ^ 44 + a.identity % 2 ^ 44

/-- Whether a LINK_CTR is above the highest accepted, or one of the 64 below it not yet accepted. -/
def PortLink.takes (l : PortLink) (c : Nat) : Bool := l.fresh || decide (l.high < c) || (decide (l.high < c + 65) && !l.accepted.contains c)

/-- A LINK_CTR is accepted. -/
def PortLink.accept (l : PortLink) (c : Nat) : PortLink :=
  let h := if l.fresh then c else max l.high c
  { l with fresh := false, high := h, accepted := (c :: l.accepted).filter fun x => h < x + 65 }

/-- The oldest request to a node that is not acknowledged. -/
def DestSt.oldest (d : DestSt) : Option OutReq := d.unacked.find? fun u => !u.acked

/-- What a port may send to a node next in a class: a reply with its place, or a request. -/
def DestSt.nextOf (d : DestSt) (c : PktClass) : Option Packet :=
  match c with
  | .request => (d.unacked.find? fun u => u.unsent && !u.acked).map fun u => { u.pkt with nocomb := u.pkt.nocomb || u.resent || !u.pkt.mayCombine }
  | c => d.replies.find? fun p => p.cls = c

/-- Credits of a class. -/
def PortLink.cred (l : PortLink) : PktClass → Nat
  | .request => l.credReq
  | .response => l.credRsp
  | _ => l.credCtl

/-- Credits taken. -/
def PortLink.spend (l : PortLink) (c : PktClass) (n : Nat) : PortLink :=
  match c with
  | .request => { l with credReq := l.credReq - n }
  | .response => { l with credRsp := l.credRsp - n }
  | _ => { l with credCtl := l.credCtl - n }

/-- Credits that the partner has returned, at most what it grants (R441). -/
def PortLink.grant (l : PortLink) (a b c : Nat) : PortLink :=
  { l with credReq := min 2048 (l.credReq + a), credRsp := min 2048 (l.credRsp + b), credCtl := min 128 (l.credCtl + c) }

/-- Credits that the partner holds of what the port grants, taken by a packet that comes in and waits. -/
def PortLink.hold (l : PortLink) (p : Packet) : PortLink :=
  match p.cls with
  | .request => { l with givenReq := l.givenReq - p.units }
  | .response => { l with givenRsp := l.givenRsp - p.units }
  | _ => { l with givenCtl := l.givenCtl - p.units }

/-- The same returned when the packet has left the input: at most 64, 64 and 4 KiB (R441). -/
def PortLink.free (l : PortLink) (p : Packet) : PortLink :=
  match p.cls with
  | .request => { l with givenReq := min 2048 (l.givenReq + p.units) }
  | .response => { l with givenRsp := min 2048 (l.givenRsp + p.units) }
  | _ => { l with givenCtl := min 128 (l.givenCtl + p.units) }

/-- A request stalls the input (R452). -/
def PortLink.stall (l : PortLink) (i : InPkt) (now : Nat) : PortLink := { l.hold i.pkt with stalled := some (i, now) }

/-- A request waits behind the stalled one. -/
def PortLink.queueBehind (l : PortLink) (i : InPkt) : PortLink := { l.hold i.pkt with behind := l.behind ++ [i] }

/-- The packets that wait at the input and satisfy a test are dropped, and their credits return. -/
def PortLink.discard (l : PortLink) (go : InPkt → Bool) : PortLink :=
  let out := (l.behind.filter go) ++ ((l.stalled.map fun x => x.1).toList.filter go)
  let l := out.foldl (fun l i => l.free i.pkt) l
  { l with behind := l.behind.filter fun i => !go i, stalled := l.stalled.filter fun x => !go x.1 }

/-- A sent packet leaves what waits for its node. -/
def DestSt.sent (d : DestSt) (p : Packet) (incarn node : Nat) : DestSt :=
  match p.cls with
  | .request => { d with unacked := (d.unacked.map fun u =>
      if u.pkt.seq = p.seq ∧ u.unsent ∧ !u.acked then { u with unsent := false, pkt := { u.pkt with incarn := incarn, src := node } } else u) }
  | c => { d with replies := d.replies.eraseP fun x => x.cls = c }

/-- Of the requests that wait for the window of 1,024 sequences, at most `k` take theirs. -/
def DestSt.fillWindow (d : DestSt) : Nat → DestSt
  | 0 => d
  | k + 1 => match d.waiting with
    | [] => d
    | x :: rest =>
      if d.dead ∨ 1024 ≤ d.inPlay then d else (DestSt.number { d with waiting := rest } x.1 x.2.1 x.2.2).fillWindow k

/-- The doorbell write that a WRITE at an offset of the reach window makes, if it is one (R434, R511): 8 bytes, or 4 bytes of which the
other half stays zero, at offset 0 and nowhere else. -/
def Packet.doorbell (p : Packet) (off : Nat) : Option Word :=
  let b := p.lineBytes.map fun x => (x.1 - p.addr % 256, x.2)
  let at_ := b.map fun x => x.1
  if off = 0 ∧ (at_ = List.range 8 ∨ at_ = List.range 4 ∨ at_ = [4, 5, 6, 7]) then
    some (BitVec.ofNat 64 (Machine.leNat (applyBytes (List.replicate 8 0) b)))
  else none

/-- Whether a gap remains toward a source: CUM + 1 is missing below a packet that has come (R439). -/
def SrcSt.gap (v : SrcSt) : Bool := v.early.any fun e => seqBelow (seqNext v.cum) e

namespace Machine

/-- The pseudo-channel of a line of a package's HBM: stack * 32 + pseudo-channel (Table 6.4). -/
def channelOf (n : Nat) : Nat := n / 2 ^ 28 * 32 + (n % 32 ^^^ n / 2 ^ 13 % 32)

/-- A change of the fabric's state. -/
def State.setWor (s : State) (w : WorSt) : State := { s with wor := w }

/-- What the device keeps of a source node. -/
def State.srcOf (s : State) (n : Nat) : SrcSt := s.wor.srcs.findD n {}

/-- A change of it. -/
def State.setSrc (s : State) (n : Nat) (v : SrcSt) : State := { s with wor := { s.wor with srcs := s.wor.srcs.put n v } }

/-- The link of a port changed. -/
def State.setPortLink (s : State) (q : Nat) (l : PortLink) : State := { s with wor := { s.wor with links := s.wor.links.put q l } }

/-- A response or control packet waits to be sent to a node. -/
def State.reply (s : State) (n : Nat) (p : Packet) : State :=
  let d := s.dest n
  s.setDest n { d with replies := d.replies ++ [{ p with dst := n }] }

/-- The PROBE interval in fifths of a nanosecond (R439): max(1 µs, DEAD_US / 8). -/
def State.probeInterval (s : State) : Nat := max 5000 (s.rd R.WOR_CTRL.DEAD_US * 625)

/-- A PROBE_ACK to a node; CUM is filled when it is sent (R440). -/
def State.probeAck (s : State) (n incarn : Nat) : State :=
  let held := s.wor.links.any fun e => e.2.stalled.isSome
  s.reply n { typ := .probeAck, cls := .control, src := 0, dst := n, incarn := incarn, held := held }

/-- A NACK for the first missing sequence of a source (R439). -/
def State.nackFor (s : State) (n : Nat) : State :=
  let v := s.srcOf n
  (s.setSrc n { v with lastNack := s.elapsed }).reply n
    { typ := .nack, cls := .control, src := 0, dst := n, incarn := v.incarn, seq := seqNext v.cum }

/-- A packet of a source has come above CUM + 1: the highest such sequence is kept. -/
def State.noteEarly (s : State) (n q : Nat) : State :=
  let v := s.srcOf n
  s.setSrc n { v with early := some (match v.early with | some e => if seqBelow e q then q else e | none => q) }

/-! ### Link checks (R456, R457) -/

/-- An integrity or replay failure: FENCE_THRESH of them within 1 ms fence the port. -/
def State.linkFail (s : State) (q : Nat) (l : PortLink) (f : Fld) : State :=
  let s := s.bump f q
  let fails := (l.fails.filter fun t => s.elapsed < t + 5000000) ++ [s.elapsed]
  if s.rd R.WOR_P_CTRL.FENCE_THRESH q ≤ fails.length then
    ((s.worDown q 4).detect { cls := .link, sub := 2, die := q / 2, quad := q, unit := 7 }).1
  else s.setPortLink q { l with fails := fails }

/-- A packet of a node has passed the checks: the node is heard, and leaves the dead state (R454). -/
def State.hear (s : State) (n : Nat) : State :=
  let d := s.dest n
  let v := { d with heard := s.elapsed, dead := false }
  let s := s.setDest n (v.fillWindow v.waiting.length)
  if d.dead then (s.wr R.WOR_STATUS.DEAD_NODES (s.rd R.WOR_STATUS.DEAD_NODES - 1)).tick R.WOR_GEN.GEN else s

/-- A source shows a new incarnation: what is held of the old one goes, and its CUM starts at 0 (R440). -/
def State.seeIncarn (s : State) (n incarn : Nat) : State :=
  let v := s.srcOf n
  if v.incarn = incarn ∧ s.wor.srcs.has n then s
  else
    let s := s.setSrc n { incarn := incarn }
    let mine (i : InPkt) : Bool := i.pkt.parts.any fun x => x.1 = n
    { s with wor := { s.wor with reorder := s.wor.reorder.filter fun i => !mine i
                                 links := s.wor.links.mapVal fun _ l => l.discard mine } }

/-- The outstanding request a response answers (R456). -/
def State.matchReq (s : State) (p : Packet) : Option OutReq :=
  (s.dest p.src).unacked.find? fun u => u.pkt.seq = p.seq && u.pkt.incarn = p.incarn && !u.answered && u.gone

/-- The checks of R456 in their order, on a packet that comes in at an up port. Answers the state and whether the packet passed. -/
def State.checkPacket (s : State) (i : InPkt) : State × Bool :=
  let q := i.quad.val
  let p := i.pkt
  match s.wor.links.find q with
  | none => (s, false)
  | some l =>
    if s.rd R.WOR_P_STATE.STATE q ≠ 3 then (s, false)
    else if !i.tagOk then (s.linkFail q l R.WOR_P_SEC.INTEG, false)
    else if !l.takes i.ctr then (s.linkFail q l R.WOR_P_SEC.REPLAY, false)
    else
      let s := s.setPortLink q (l.accept i.ctr)
      let node := s.rd R.WOR_CTRL.NODE
      let far := p.parts.any fun x =>
        let v := s.srcOf x.1
        let cum := if x.1 ≠ p.src ∨ (v.incarn = p.incarn ∧ s.wor.srcs.has x.1) then v.cum else 0
        !seqLe x.2 (cum + 1024)
      if !p.legal ∨ p.dst ≠ node ∨ p.src = node ∨ (p.cls = .request ∧ far) then (s.bump R.WOR_P_DROP.MALFORMED q, false)
      else if p.cls = .response ∧ (s.matchReq p).isNone then (s.bump R.WOR_COUNTS_A.STRAY, false)
      else ((s.tick R.WOR_P_RX.COUNT q).hear p.src, true)

/-! ### The home (R433, R434, R442, R447) -/

/-- Who serves a range of this node's offsets for a source, and where its bytes lie. -/
inductive Served where
  | line (owner : Nat) (n : Nat)
  | reach (owner : Nat) (off : Nat)
  | denied (owner : Option Nat)
  deriving DecidableEq, Repr

/-- The window that serves a request of `len` bytes, if one does; `perm` tells whether a window grants what it needs. -/
def State.serve (s : State) (src addr len : Nat) (write : Bool) (perm : ExportWin → Bool) : Served :=
  let off := addr % 2 ^ 44
  if 0xF0000000000 ≤ off then
    let o := (off - 0xF0000000000) / 0x200000
    if o < 1024 ∧ s.tenState o ≠ 0 ∧ s.rd R.SCH_TEN_CFG.REACH 0 o = 2 ∧ s.rd R.SCH_TEN_CFG.NODE 0 o = src then
      .reach o (off % 0x200000)
    else .denied (if o < 1024 then some o else none)
  else match s.wor.exports.find? fun e => e.2.covers off len && (e.2.anyNode || e.2.node = src) && perm e.2 with
    | none => .denied none
    | some (_, w) =>
      match s.deviceLine w.owner ((w.clBase + (off - w.base)) / 256) write with
      | some n => .line w.owner n
      | none => .denied none

/-- A denied request (R433, R293). -/
def State.deny (s : State) (o : Option Nat) : State :=
  let s := s.bump R.WOR_COUNTS_A.DENIED
  match o with
  | some o => s.violate R.SCH_TEN_VIOL.QUEUE o
  | none => s

/-- The stores a merge buffer holds. -/
def State.merged (s : State) (c : Nat) : List MergeStore := s.wor.merge.findD c []

/-- A merge buffer changed. -/
def State.setMerged (s : State) (c : Nat) (l : List MergeStore) : State :=
  { s with wor := { s.wor with merge := if l.isEmpty then s.wor.merge.del c else s.wor.merge.put c l } }

/-- WRITE_ACK for a store. -/
def State.ackWrite (s : State) (src incarn seq : Nat) : State :=
  s.reply src { typ := .writeAck, cls := .response, src := 0, dst := src, incarn := incarn, seq := seq }

/-- The oldest store of a merge buffer is applied and acknowledged (R451). -/
def State.applyOne (s : State) (c : Nat) : State :=
  match s.merged c with
  | [] => s
  | m :: rest =>
    let s := s.setMerged c rest
    (if m.bytes.isEmpty then s else s.coherentWrite m.line m.bytes).ackWrite m.src m.incarn m.seq

/-- Stores up to the last one of a line are applied. -/
def State.applyLine (s : State) (c n : Nat) : State :=
  let l := s.merged c
  let k := l.length - ((l.reverse.findIdx? fun m => m.line = n).getD l.length)
  (List.range k).foldl (fun s _ => s.applyOne c) s

/-- The parts of a request that no window serves, each with the clearing it is counted against (R433). -/
def State.deniedParts (s : State) (p : Packet) (len : Nat) (write : Bool) (perm : ExportWin → Bool) : List (Option Nat) :=
  p.parts.filterMap fun x => match s.serve x.1 p.addr len write perm with
    | .denied o => some o
    | _ => none

/-- A READ is answered from the home line cache, after the stores delivered before it, or with zeros. A combined READ is answered once for
all its parts, so it is served only where every one of them is (log entry 146). -/
def State.doRead (s : State) (p : Packet) : State :=
  let r (data : List Byte) : Packet :=
    { typ := .readRsp, cls := .response, src := 0, dst := p.src, incarn := p.incarn, seq := p.seq, len := 256, data := data
      combined := p.combined, count := p.count, atoms := p.atoms }
  let out := s.deniedParts p 256 false fun w => w.read
  if !out.isEmpty then (out.foldl State.deny s).reply p.src (r zeroLine)
  else match s.serve p.src p.addr 256 false fun w => w.read with
  | .line _ n =>
    let data := (s.merged (channelOf n)).foldl (fun d m => if m.line = n then applyBytes d m.bytes else d) (s.seenLine n)
    s.reply p.src (r data)
  | .reach o off =>
    let (s, ws) := (List.range 32).foldl (fun (st : State × List Nat) k =>
      let (s, v) := st.1.bar2Read o (off + 8 * k) true
      (s, st.2 ++ [v])) (s, [])
    s.reply p.src (r (wordBytes ws))
  | .denied o => (s.deny o).reply p.src (r zeroLine)

/-- Whether a WRITE meets a merge buffer without room (R452). -/
def State.mergeFull (s : State) (p : Packet) : Bool :=
  match s.serve p.src p.addr p.len true fun w => w.write with
  | .line _ n => decide (256 ≤ (s.merged (channelOf n)).length)
  | _ => false

/-- A WRITE enters its merge buffer, rings a doorbell, or is denied; only the last two are acknowledged at once. -/
def State.doWrite (s : State) (p : Packet) : State :=
  match s.serve p.src p.addr p.len true fun w => w.write with
  | .line _ n =>
    let c := channelOf n
    let l := s.merged c ++ [{ line := n, bytes := p.lineBytes, src := p.src, incarn := p.incarn, seq := p.seq }]
    let s := s.setMerged c l
    s.wr R.WOR_MERGE_MAX.OCCUPANCY (max (s.rd R.WOR_MERGE_MAX.OCCUPANCY) l.length)
  | .reach o off =>
    let s := match p.doorbell off with
      | some v => s.ring o v
      | none => s.deny (some o)
    s.ackWrite p.src p.incarn p.seq
  | .denied o => (s.deny o).ackWrite p.src p.incarn p.seq

/-- One atomic of a key at the replay table (R447): the table, whether it is applied, and what it answers. -/
inductive Replayed where
  | recorded (ret : Nat)
  | stale
  | busy
  | fresh
  deriving DecidableEq, Repr

/-- What the replay table says of an atomic. -/
def State.replayed (s : State) (src : Nat) (a : AtomEntry) : Replayed :=
  match s.wor.replay.find (a.key src) with
  | none => if 65536 ≤ s.wor.replay.length then .busy else .fresh
  | some e =>
    match e.pairs.find? fun x => x.1 = a.order with
    | some x => .recorded x.2.2
    | none => if 32 ≤ e.pairs.length ∧ e.pairs.all fun x => a.order < x.1 then .stale else .fresh

/-- The entry of an atomic's key is in use, and so not idle (R447). -/
def State.touchAtom (s : State) (src : Nat) (a : AtomEntry) : State :=
  { s with wor := { s.wor with replay := s.wor.replay.modify (a.key src) fun e => { e with used := s.elapsed } } }

/-- An applied atomic is recorded with its RETURN; a full entry gives up its lowest pair. -/
def State.recordAtom (s : State) (src : Nat) (a : AtomEntry) (ret : Nat) : State :=
  let e := s.wor.replay.findD (a.key src) {}
  let ps := insertBy (fun x y => x.1 < y.1) (a.order, a.identity, ret) e.pairs
  let t := s.wor.replay.put (a.key src) { pairs := if 32 < ps.length then ps.drop 1 else ps, used := s.elapsed }
  ({ s with wor := { s.wor with replay := t } } : State).wr R.WOR_ATOM_TABLE.USED t.length

/-- An atomic, or the constituents of a combined one in entry order, applied in one write (R447, R448); a part that no window serves is
denied by itself (log entry 146). -/
def State.doAtomic (s : State) (p : Packet) : State :=
  let n := if p.size8 then 8 else 4
  let w := 8 * n
  let srcOf (a : AtomEntry) : Nat := if p.combined then a.src else p.src
  let rsp (as : List AtomEntry) (busy stale : Bool) : Packet :=
    { typ := .atomicRsp, cls := .response, src := 0, dst := p.src, incarn := p.incarn, seq := p.seq, combined := p.combined
      count := p.count, busy := busy, stale := stale, atoms := as }
  let srv (a : AtomEntry) : Served := match s.serve (srcOf a) p.addr n true fun x => x.atomic with
    | .reach o _ => .denied (some o)
    | x => x
  match p.atoms.findSome? fun a => match srv a with | .line _ l => some l | _ => none with
  | none =>
    let s := p.atoms.foldl (fun (s : State) a => match srv a with | .denied o => s.deny o | _ => s) s
    s.reply p.src (rsp (p.atoms.map fun a => { a with ret := 0 }) false false)
  | some l =>
    let s := s.applyLine (channelOf l) l
    let off := p.addr % 256
    let old := leNat (((s.seenLine l).drop off).take n)
    let (s, v, as, busy, stale) := p.atoms.foldl (fun (st : State × Nat × List AtomEntry × Bool × Bool) a =>
      let (s, v, as, busy, stale) := st
      match srv a with
      | .denied o => (s.deny o, v, as ++ [{ a with ret := 0 }], busy, stale)
      | _ =>
      match s.replayed (srcOf a) a with
      | .recorded r => (s.touchAtom (srcOf a) a, v, as ++ [{ a with ret := r }], busy, stale)
      | .stale => (s.touchAtom (srcOf a) a, v, as ++ [{ a with ret := 2 ^ 64 - 1 }], busy, true)
      | .busy => (s.tick R.WOR_ATOM_TABLE.BUSY_SENT, v, as ++ [{ a with ret := 0 }], true, stale)
      | .fresh => (s.recordAtom (srcOf a) a v, atomResult p.op w v (a.operand % 2 ^ w) (a.operand2 % 2 ^ w), as ++ [{ a with ret := v }],
          busy, stale)) (s, old, [], false, false)
    let s := if v = old then s else s.coherentWrite l ((leBytes n v).zipIdx.map fun x => (off + x.2, x.1))
    s.reply p.src (rsp as busy stale)

/-- An INV removes lines from every die's line cache; fills in flight answer and are not kept (R450, R222). -/
def State.doInv (s : State) (p : Packet) : State :=
  let a := p.addr / 256
  let hit (k : LineKey) : Bool := match k with | .wor n => decide (a ≤ n ∧ n < a + p.lines) | .hbm _ => false
  let s : State := { s with mem := { s.mem with lc := s.mem.lc.mapVal fun _ (c : LineCache) =>
    { c with lines := c.lines.filter fun l => !hit l.key
             fills := c.fills.map fun (f : Fill) => if hit f.key then { f with dropped := true } else f } } }
  s.reply p.src { typ := .invAck, cls := .response, src := 0, dst := p.src, incarn := p.incarn, seq := p.seq }

/-! ### Delivery in order (R438, R440, R452) -/

/-- Whether every part of a request is the next sequence of its source. INCARN is that of SRC; the parts of other sources take what is
held of those (log entry 149). -/
def State.inOrder (s : State) (p : Packet) : Bool :=
  p.parts.all fun x => let v := s.srcOf x.1; (x.1 ≠ p.src || (v.incarn = p.incarn && s.wor.srcs.has x.1)) && x.2 = seqNext v.cum

/-- A request is delivered to the home: every part's CUM rises to it. -/
def State.deliver (s : State) (p : Packet) : State :=
  let s := p.parts.foldl (fun (s : State) x => s.setSrc x.1 { s.srcOf x.1 with cum := x.2 % 2 ^ 32 }) s
  match p.typ with
  | .read => s.doRead p
  | .write => s.doWrite p
  | .atomic => s.doAtomic p
  | .inv => s.doInv p
  | _ => s

/-- Whether a request must wait for a merge buffer. -/
def State.mustStall (s : State) (p : Packet) : Bool := match p.typ with | .write => s.mergeFull p | _ => false

/-- Whether a part of a request is at or below the CUM of its source. -/
def State.isDup (s : State) (p : Packet) : Bool := p.parts.any fun x => seqLe x.2 (s.srcOf x.1).cum

/-- A duplicate is dropped, counted at its port and answered with CUM (R438). -/
def State.dropDup (s : State) (i : InPkt) : State :=
  let s := s.bump R.WOR_P_DROP.DUP i.quad
  i.pkt.parts.foldl (fun (s : State) x => if seqLe x.2 (s.srcOf x.1).cum then s.probeAck x.1 i.pkt.incarn else s) s

/-- Whether the input that carried a packet can stall with it: it is up, and no other packet stalls it. -/
def State.canStall (s : State) (i : InPkt) : Bool := (s.wor.links.find i.quad).any fun l => l.stalled.isNone

/-- A request stalls the input that carries it until an entry of its merge buffer frees (R452). -/
def State.stallInput (s : State) (i : InPkt) : State :=
  match s.wor.links.find i.quad with
  | some l => s.setPortLink i.quad (l.stall i s.elapsed)
  | none => s

/-- The held packets that have become the next of their sources are delivered, oldest first, at most `n` of them; those that
have become duplicates are dropped, and one that meets a full merge buffer stalls its input. -/
def State.deliverHeld (s : State) : Nat → State
  | 0 => s
  | n + 1 =>
    match s.wor.reorder.find? fun i => s.isDup i.pkt || (s.inOrder i.pkt && (!s.mustStall i.pkt || s.canStall i)) with
    | none => s
    | some i =>
      let t : State := { s with wor := { s.wor with reorder := s.wor.reorder.erase i } }
      (if s.isDup i.pkt then t.dropDup i else if s.mustStall i.pkt then t.stallInput i else t.deliver i.pkt).deliverHeld n

/-- A request packet that has passed the checks (R438, R439): a duplicate is dropped and answered, the next one is delivered
or stalls its input, an early one waits. -/
def State.takeRequest (s : State) (i : InPkt) : State :=
  let p := i.pkt
  let s := s.seeIncarn p.src p.incarn
  if s.isDup p then s.dropDup i
  else if s.inOrder p then
    if s.mustStall p then s.stallInput i
    else (s.deliver p).deliverHeld s.wor.reorder.length
  else
    let gaps := p.parts.filter fun x => x.2 ≠ seqNext (s.srcOf x.1).cum
    let held (j : InPkt) : Bool := j.pkt.parts = p.parts && j.pkt.incarn = p.incarn
    let s := if s.wor.reorder.any held then s
      else if 2048 ≤ s.wor.reorder.length then s.bump R.WOR_COUNTS_B.REORDER_DROP
      else { s with wor := { s.wor with reorder := s.wor.reorder ++ [i] } }
    gaps.foldl (fun s x => (s.noteEarly x.1 x.2).nackFor x.1) s

/-- A request that has passed the checks waits behind one that stalls its input, or is taken (R452). -/
def State.enterPort (s : State) (i : InPkt) : State :=
  match s.wor.links.find i.quad with
  | none => s
  | some l => if l.stalled.isSome then s.setPortLink i.quad (l.queueBehind i) else s.takeRequest i

/-- A request of a type comes in. -/
def receiveRequest (t : PktType) (i : InPkt) (s : State) : Out :=
  if i.pkt.typ ≠ t then .next s
  else
    let (s, ok) := s.checkPacket i
    .next (if ok then s.enterPort i else s)

/-- READ (R442): a received READ. -/
def execRead (i : InPkt) (s : State) : Out := receiveRequest .read i s
/-- WRITE (R442, R451, R452): a received WRITE. -/
def execWrite (i : InPkt) (s : State) : Out := receiveRequest .write i s
/-- ATOMIC (R447, R448): a received ATOMIC. -/
def execAtomic (i : InPkt) (s : State) : Out := receiveRequest .atomic i s
/-- INV (R450): a received INV. -/
def execInv (i : InPkt) (s : State) : Out := receiveRequest .inv i s

/-- What waits behind an input that stalls no longer is taken in its order, at most `n` packets, until one stalls it again (R452). -/
def State.passBehind (s : State) (q : Nat) : Nat → State
  | 0 => s
  | n + 1 => match s.wor.links.find q with
    | none => s
    | some l => match l.stalled, l.behind with
      | none, i :: rest => ((s.setPortLink q { l.free i.pkt with behind := rest }).takeRequest i).passBehind q n
      | _, _ => s

/-- The stalled inputs try again, the longest stalled first; HOLD_NS keeps the longest stall (R452). -/
def State.retryStalled (s : State) : State :=
  let qs := sortBy (fun a b => decide (a.2.2 < b.2.2)) (s.wor.links.filterMap fun e => e.2.stalled.map fun x => (e.1, x))
  qs.foldl (fun (s : State) x =>
    let (q, i, since) := x
    if !s.isDup i.pkt && s.mustStall i.pkt then s
    else match s.wor.links.find q with
      | none => s
      | some l =>
        let s := s.setPortLink q { l.free i.pkt with stalled := none }
        let hold := min (2 ^ 48 - 1) (max (s.rd R.WOR_MERGE_MAX.HOLD_NS) ((s.elapsed - since) / 5))
        ((s.wr R.WOR_MERGE_MAX.HOLD_NS hold).takeRequest i).passBehind q l.behind.length) s

/-- MERGE_APPLY (R451): the merge buffer of a pseudo-channel applies and acknowledges its next store; what waited for room
goes on. -/
def execMergeApply (k : Stack) (c : Fin 32) (s : State) : Out :=
  let b := k.val * 32 + c.val
  if (s.merged b).isEmpty then .next s
  else
    let s := s.applyOne b
    .next (s.deliverHeld s.wor.reorder.length).retryStalled

/-- REPLAY_ENTRY_FREE (R447): an entry idle for 10 s is freed. -/
def execReplayEntryFree (src : Fin 4096) (epoch gen queue : Nat) (s : State) : Out :=
  let k := (src.val, epoch, gen, queue)
  match s.wor.replay.find k with
  | none => .next s
  | some e =>
    if s.elapsed < e.used + 5 * 10 ^ 10 then .next s
    else
      let t : State := { s with wor := { s.wor with replay := s.wor.replay.del k } }
      .next (t.wr R.WOR_ATOM_TABLE.USED t.wor.replay.length)

/-! ### The source (R437 to R440) -/

/-- The same, of all that wait. -/
def State.fillWindow (s : State) (n : Nat) : State :=
  let d := s.dest n
  s.setDest n (d.fillWindow d.waiting.length)

/-- What ends with a request's acknowledgement, where it needs no response. -/
def State.writeDone (s : State) (w : FabricWait) (failed : Bool) : State :=
  match w with
  | .write site r => s.answerMover site r [] failed
  | _ => s

/-- A node acknowledges every request up to CUM (R437): writes are complete, and the window moves. -/
def State.acknowledge (s : State) (n cum : Nat) : State :=
  let d := s.dest n
  if !(seqBelow d.cum cum && seqLe cum (d.next + 2 ^ 32 - 1)) then s
  else
    let covers (u : OutReq) : Bool := !u.acked && u.gone && seqLe u.pkt.seq cum
    let done := d.unacked.filter fun u => covers u && !u.answered
    let us := d.unacked.map fun u => if covers u then { u with acked := true } else u
    let us := us.filter fun u => !(u.acked && (u.answered || (u.wait.isWrite && seqLe (u.pkt.seq + 1024) cum)))
    let s := s.setDest n { d with cum := cum % 2 ^ 32, unacked := us }
    let s := done.foldl (fun (s : State) u => s.writeDone u.wait false) s
    (s.fillWindow n).passFence n (d.unacked.filter covers).length

/-- The request that a response answers is answered; it goes once it is acknowledged as well. -/
def State.answered (s : State) (n : Nat) (u : OutReq) : State :=
  let d := s.dest n
  let us := d.unacked.map fun x => if x.pkt.seq = u.pkt.seq ∧ x.pkt.incarn = u.pkt.incarn then { x with answered := true } else x
  s.setDest n { d with unacked := us.filter fun x => !(x.acked && x.answered) }

/-- A request goes again on its node's current port (R439). -/
def State.resend (s : State) (n seq : Nat) : State :=
  let d := s.dest n
  s.setDest n { d with unacked := d.unacked.map fun u =>
    if u.pkt.seq = seq ∧ !u.acked ∧ !u.unsent then { u with unsent := true, resent := true } else u }

/-- A response of a type comes in: what its request waited for, then CUM. -/
def receiveResponse (t : PktType) (i : InPkt) (s : State) (act : State → OutReq → Packet → State) : Out :=
  if i.pkt.typ ≠ t then .next s
  else
    let (s, ok) := s.checkPacket i
    if !ok then .next s
    else match s.matchReq i.pkt with
      | none => .next s
      | some u =>
        let p := i.pkt
        let s := act (s.answered p.src u) u p
        .next (if p.incarn = s.rd R.WOR_STATUS.INCARN then s.acknowledge p.src p.cum else s)

/-- READ_RSP (R438, R222): the data of a fill. -/
def execReadRsp (i : InPkt) (s : State) : Out :=
  receiveResponse .readRsp i s fun s u p => match u.wait with
    | .fill d line => match (s.cache d).fill (.wor line) with
      | some f => s.setFillData d f (some (match f.data with | some x => x | none => p.data))
      | none => s
    | _ => s

/-- WRITE_ACK (R443): a write is acknowledged. -/
def execWriteAck (i : InPkt) (s : State) : Out :=
  receiveResponse .writeAck i s fun s u _ => if u.acked then s else s.writeDone u.wait false

/-- The INV command ends (R449). -/
def State.endInv (s : State) (status : Nat) : State :=
  ((s.wr R.WOR_INV_STATUS.BUSY 0).wr R.WOR_INV_STATUS.STATUS status).eventCmdDone

/-- INV_ACK (R449). -/
def execInvAck (i : InPkt) (s : State) : Out :=
  receiveResponse .invAck i s fun s u _ => match u.wait with
    | .inv => s.endInv 0
    | _ => s

/-- ATOMIC_RSP (R445, R447, R448): RETURN goes to the effect's return address and the effect is acknowledged; BUSY sends it
again later, STALE abandons it, and a combined answer counts (R268). -/
def execAtomicRsp (i : InPkt) (s : State) : Out :=
  receiveResponse .atomicRsp i s fun s u p => match u.wait with
    | .effect e =>
      let owner := ((s.queue e.queue).map QueueSt.owner).getD 2047
      let s := if p.combined then s.bump R.GLB_DET_ND_COUNT.ATOMIC 0 owner else s
      if p.busy then
        let d := s.dest p.src
        s.setDest p.src { d with again := d.again ++ [({ u.pkt with nocomb := true }, u.wait, s.elapsed + s.probeInterval)] }
      else if p.stale then s.abandonEffect e.queue e.item e.index
      else
        let ret := match ((s.queue e.queue).bind fun v => v.items.find e.item).bind fun r => r.effects[e.index]? with
          | some (.atomic _ _ _ size8 _ _ a) => some (size8, a)
          | _ => none
        let mine := if p.combined then p.atoms.find? fun a => a.src = s.rd R.WOR_CTRL.NODE && a.seq = p.seq else p.atoms.head?
        let s := match ret, mine with
          | some (size8, a), some x => s.clearingWrite owner a (leBytes (if size8 then 8 else 4) x.ret)
          | _, _ => s
        s.ackEffect e.queue e.item e.index
    | _ => s

/-- A control packet of a type comes in. -/
def receiveControl (t : PktType) (i : InPkt) (s : State) (act : State → Packet → State) : Out :=
  if i.pkt.typ ≠ t then .next s
  else
    let (s, ok) := s.checkPacket i
    .next (if ok then act s i.pkt else s)

/-- NACK (R439): the named packet goes again. -/
def execNack (i : InPkt) (s : State) : Out :=
  receiveControl .nack i s fun s p => if p.incarn = s.rd R.WOR_STATUS.INCARN then s.resend p.src p.seq else s

/-- PROBE (R440). -/
def execProbe (i : InPkt) (s : State) : Out :=
  receiveControl .probe i s fun s p => (s.seeIncarn p.src p.incarn).probeAck p.src p.incarn

/-- PROBE_ACK (R440): an acknowledgement; below the oldest unacknowledged sequence and not HELD, that packet goes again. -/
def execProbeAck (i : InPkt) (s : State) : Out :=
  receiveControl .probeAck i s fun s p =>
    if p.incarn ≠ s.rd R.WOR_STATUS.INCARN then s
    else
      let s := s.acknowledge p.src p.cum
      match (s.dest p.src).oldest with
      | some u => if !p.held ∧ seqBelow p.cum u.pkt.seq then s.resend p.src u.pkt.seq else s
      | none => s

/-- SPDM (R455): passed to Mewait, in clear, while the port is securing. On an up port the checks of R456 are made, and the message
goes no further. -/
def execSpdm (i : InPkt) (s : State) : Out :=
  if i.pkt.typ ≠ .spdm then .next s
  else if s.rd R.WOR_P_STATE.STATE i.quad ≠ 2 then .next (s.checkPacket i).1
  else
    let l := s.wor.links.findD i.quad.val {}
    .next ((s.setPortLink i.quad { l with spdm := l.spdm ++ [i.pkt.data] }).tick R.WOR_P_RX.COUNT i.quad)

/-- PROBE_INTERVAL (R439, R447): toward a node, the source probes an oldest request that has waited an interval and sends
again what was answered BUSY; the destination repeats a NACK while a gap remains. -/
def execProbeInterval (n : Fin 4096) (s : State) : Out :=
  let n := n.val
  let iv := s.probeInterval
  let d := s.dest n
  let s := match d.oldest with
    | some u =>
      if s.elapsed < u.issued + iv ∨ s.elapsed < d.lastProbe + iv then s
      else
        let p : Packet := { typ := .probe, cls := .control, src := 0, dst := n, seq := u.pkt.seq, incarn := s.rd R.WOR_STATUS.INCARN }
        (s.setDest n { d with lastProbe := s.elapsed }).reply n p
    | none => s
  let d := s.dest n
  let now := d.again.filter fun x => x.2.2 ≤ s.elapsed
  let s := s.setDest n { d with again := d.again.filter fun x => s.elapsed < x.2.2 }
  let s := now.foldl (fun (s : State) x => s.askFabric x.1 x.2.1) s
  let v := s.srcOf n
  .next (if v.gap && decide (v.lastNack + iv ≤ s.elapsed) then s.nackFor n else s)

/-! ### Sending (R430, R431, R441) -/

/-- The class a port sends next: control ahead of responses ahead of requests, each with credit for a whole packet. -/
def State.sendClass (s : State) (q : Nat) (l : PortLink) : Option PktClass :=
  [PktClass.control, PktClass.response, PktClass.request].find? fun c =>
    s.wor.dests.any fun e => e.2.port = some q && (e.2.nextOf c).any fun p => p.units ≤ l.cred c

/-- PACKET_SEND (R430, R431, R441): a port, with credits its partner has returned, sends its next packet, to node `n`. None leaves by which
LINK_CTR would reach 2^47 before the key is updated (R455). -/
def execPacketSend (q : Quad) (n : Fin 4096) (req rsp ctl : Fin 2049) (s : State) : Out :=
  match s.wor.links.find q.val with
  | none => .next s
  | some l =>
    let l := l.grant req rsp ctl
    let s := s.setPortLink q l
    if !s.flag R.WOR_CTRL.EN ∨ s.rd R.WOR_P_STATE.STATE q ≠ 3 ∨ 2 ^ 47 ≤ s.rd R.WOR_P_KEY.TX_CTR q + 1 then .next s
    else match s.sendClass q l with
      | none => .next s
      | some c =>
        let d := s.dest n
        match (if d.port = some q.val then d.nextOf c else none) with
        | none => .next s
        | some p =>
          if l.cred c < p.units then .next s
          else
            let again := (c = .request) && (d.unacked.find? fun u => u.unsent && !u.acked).any fun u => u.resent
            let me := s.rd R.WOR_CTRL.NODE
            let out := if c = .request then { p with incarn := s.rd R.WOR_STATUS.INCARN, src := me }
              else { p with src := me, cum := (s.srcOf n).cum }
            let s := (s.setPortLink q { l.spend c p.units with last := some out }).setDest n (d.sent p (s.rd R.WOR_STATUS.INCARN) (s.rd R.WOR_CTRL.NODE))
            let s := (s.tick R.WOR_P_TX.COUNT q).tick R.WOR_P_KEY.TX_CTR q
            let s := if again then s.bump R.WOR_P_RESENT.RESENT q else s
            .next (if p.typ = .nack then s.bump R.WOR_P_RESENT.NACKS q else s)

/-! ### Ports (R431, R455, R457) -/

/-- WOR_PORT_EN_WRITE (R457): WOR_P_CTRL written. EN 0 takes the port down; EN from 0 to 1 trains and secures it. -/
def execWorPortEnWrite (q : Quad) (v : Word) (s : State) : Out :=
  if !s.managed then .next s else
  let en := v.toNat % 2
  let was := s.rd R.WOR_P_CTRL.EN q
  let s := (s.wr R.WOR_P_CTRL.EN en q).wr R.WOR_P_CTRL.FENCE_THRESH (max 1 (v.toNat / 256 % 256)) q
  if s.rd R.RAD_Q_MODE.MODE q ≠ 2 ∨ s.isOut (.quad q) ∨ en = was then .next s
  else if en = 0 then .next ((s.wr R.RAD_Q_LINK.STATE 2 q).worDown q 5)
  else .next ((s.wr R.RAD_Q_LINK.STATE 3 q).wr R.WOR_P_STATE.STATE 1 q)

/-- PORT_SECURED (R455, R543): the SPDM session that the port's messages set up stands, and the partner's certificate chain roots at the
Folnex device root, or at fabric anchor `root`, which must be present. The port is up, with a new key and full credits. -/
def execPortSecured (q : Quad) (root : Option (Fin 4)) (s : State) : Out :=
  if s.rd R.WOR_P_STATE.STATE q ≠ 2 ∨ (s.wor.links.findD q.val {}).spdm.isEmpty ∨ !(root.all fun n => s.mgt.anchors.has n.val) then .next s
  else
    let s := s.setPortLink q { credReq := 2048, credRsp := 2048, credCtl := 128, givenReq := 2048, givenRsp := 2048, givenCtl := 128 }
    let s := ((s.wr R.WOR_P_STATE.STATE 3 q).wr R.WOR_P_KEY.UPDATES 0 q).wr R.WOR_P_KEY.TX_CTR 0 q
    .next s.rerouteAll

/-- KEY_UPDATE (R455): the key of an up port is replaced; LINK_CTR starts at 0 again. -/
def execKeyUpdate (q : Quad) (s : State) : Out :=
  match s.wor.links.find q.val with
  | none => .next s
  | some l =>
    if s.rd R.WOR_P_STATE.STATE q ≠ 3 then .next s
    else
      let s := s.setPortLink q { l with high := 0, fresh := true, accepted := [] }
      .next ((s.tick R.WOR_P_KEY.UPDATES q).wr R.WOR_P_KEY.TX_CTR 0 q)

/-- REROUTE (R431): a port leaves the up state; its destinations move and what is not acknowledged goes again. -/
def execReroute (q : Quad) (s : State) : Out :=
  if s.rd R.WOR_P_STATE.STATE q ≠ 3 then .next s else .next ((s.wr R.RAD_Q_LINK.STATE 2 q).worDown q 5)

/-! ### Dead targets (R453, R454) -/

/-- A request to a dead node ends. -/
def State.endDead (s : State) (w : FabricWait) (seq : Nat) : State :=
  match w with
  | .fill d line => match (s.cache d).fill (.wor line) with
    | some f =>
      let s := f.items.foldl (fun s it => s.failItem (some it) seq) s
      if f.data.isSome then s else s.setFillData d f none
    | none => s
  | .write _ r => (s.failItem r.item seq).writeDone w true
  | .effect e => s.abandonEffect e.queue e.item e.index
  | .inv => s.endInv 3
  | .agent => s

/-- Whether a node has a request that has waited for DEAD_US without a packet from it. -/
def State.silent (s : State) (d : DestSt) : Bool :=
  let lim := s.rd R.WOR_CTRL.DEAD_US * 5000
  let late (t : Nat) : Bool := decide (max t d.heard + lim ≤ s.elapsed)
  (d.unacked.any fun u => !u.answered && !(u.acked && u.wait.isWrite) && late u.issued) || d.waiting.any fun x => late x.2.2

/-- DEAD_TARGET (R453): a silent node becomes dead, with one record, and every request to it ends; of a node that is dead
already, the requests issued since. A fence on it is met (R444). -/
def execDeadTarget (n : Fin 4096) (s : State) : Out :=
  let d := s.dest n
  if d.dead ∧ d.waiting.isEmpty ∨ !d.dead ∧ !s.silent d then .next s
  else
    let (s, seq) : State × Nat := if d.dead then (s, d.deadSeq)
      else
        let (s, seq) := s.detect { cls := .deadNode, die := (d.port.getD 0) / 2, quad := d.port.getD 0, unit := 7, detail := n }
        let s := (s.bump R.WOR_COUNTS_B.DEAD_EVENTS).wr R.WOR_STATUS.DEAD_NODES (s.rd R.WOR_STATUS.DEAD_NODES + 1)
        (s.tick R.WOR_GEN.GEN, seq)
    let open_ := d.unacked.filter fun u => !u.answered && !(u.acked && u.wait.isWrite)
    let us := d.unacked.map fun u => { u with answered := u.answered || !(u.acked && u.wait.isWrite) }
    let s := s.setDest n { d with dead := true, deadSeq := seq, waiting := [], again := []
                                  unacked := us.filter fun u => !(u.acked && u.answered) }
    let ws := (if d.dead then [] else open_.map fun u => u.wait) ++ d.waiting.map (fun x => x.2.1) ++ d.again.map fun x => x.2.1
    let k := d.unacked.length + d.waiting.length
    .next ((ws.foldl (fun (s : State) w => s.endDead w seq) s).passFence n k)

/-- DEAD_CLEAR (R454): 1 written to DEAD of WOR_NODE_STATE, for the node of WOR_NODE_SEL. -/
def execDeadClear (s : State) : Out :=
  if !s.managed then .next s else
  let n := s.rd R.WOR_NODE_SEL.NODE
  let d := s.dest n
  if !d.dead then .next s
  else
    let s := s.setDest n { d with dead := false }
    .next (((s.wr R.WOR_STATUS.DEAD_NODES (s.rd R.WOR_STATUS.DEAD_NODES - 1)).tick R.WOR_GEN.GEN).fillWindow n)

/-! ### Windows and invalidates (R432, R433, R449, R460) -/

/-- WOR_WIN_ARG_a. -/
def State.winArg (s : State) (a : Nat) : Nat := s.rd R.WOR_WIN_ARG.ARG 0 a

/-- The cause for which a window command is refused, or 0 (Table 14.8). -/
def State.winCause (s : State) (op o idx : Nat) (exp : Bool) : Nat :=
  let base := s.winArg 0
  let a1 := s.winArg 1
  let pages := bitsAt a1 0 24
  let cl := s.winArg 2
  let last := base + pages * 4096 - 1
  let map := op = 1 ∨ op = 2
  let bad := if op = 1 then decide (base % 4096 ≠ 0 ∨ pages = 0 ∨ base / 2 ^ 44 ≠ last / 2 ^ 44 ∨ 15 < idx)
    else if op = 2 then decide (base % 4096 ≠ 0 ∨ cl % 4096 ≠ 0 ∨ pages = 0 ∨ 0xF0000000000 ≤ last)
    else if op = 3 then !exp && decide (15 < idx) else true
  let used := if op = 2 ∨ (op = 3 ∧ exp) then s.wor.exports.has idx else s.wor.imports.has (o, idx)
  let tooFar (b p : Nat) : Bool := decide (b < base + pages * 4096 ∧ base < b + p * 4096)
  if 1023 < o then 0x01
  else if 1 ≤ op ∧ op ≤ 3 ∧ s.tenState o = 0 then 0x03
  else if bad then 0x04
  else if s.tenState o = 2 ∨ s.tenState o = 3 then 0x05
  else if s.loadActive o then 0x06
  else if (map ∧ used) ∨ (op = 3 ∧ !used) then 0x0A
  else if op = 1 ∧ s.wor.imports.any fun e => e.1.1 = o && tooFar e.2.base e.2.pages then 0x0B
  else if op = 2 ∧ s.wor.exports.any fun e => tooFar e.2.base e.2.pages then 0x0B
  else if op = 1 ∧ a1.testBit 26 ∧ s.isGlade o then 0x0E
  else 0

/-- One write of WOR_WIN_CMD, where the manager reaches it: refused by a cause, or done at once. -/
def State.winCommand (s : State) (op o idx : Nat) (exp : Bool) (run : State → State) : State :=
  if !s.managed then s else
  let cause := s.winCause op o idx exp
  let s := if cause = 0 then (run s).tick R.WOR_GEN.GEN else s
  ((s.wr R.WOR_WIN_STATUS.STATUS (if cause = 0 then 0 else 5)).wr R.WOR_WIN_STATUS.CAUSE cause).eventCmdDone

/-- MAP_IMPORT (R432): WOR_WIN_CMD written with OP 1. -/
def execMapImport (owner : Fin 2048) (idx : Fin 256) (s : State) : Out :=
  .next (s.winCommand 1 owner idx false fun s =>
    let a1 := s.winArg 1
    let w : ImportWin := { base := s.winArg 0, pages := bitsAt a1 0 24, read := a1.testBit 24, write := a1.testBit 25, atomic := a1.testBit 26 }
    { s with wor := { s.wor with imports := s.wor.imports.put (owner.val, idx.val) w } })

/-- MAP_EXPORT (R433): WOR_WIN_CMD written with OP 2. -/
def execMapExport (owner : Fin 2048) (idx : Fin 256) (s : State) : Out :=
  .next (s.winCommand 2 owner idx true fun s =>
    let a1 := s.winArg 1
    let w : ExportWin := { base := s.winArg 0, pages := bitsAt a1 0 24, read := a1.testBit 24, write := a1.testBit 25, atomic := a1.testBit 26
                           anyNode := a1.testBit 27, node := bitsAt a1 32 12, owner := owner, clBase := s.winArg 2 }
    { s with wor := { s.wor with exports := s.wor.exports.put idx.val w } })

/-- UNMAP (R460): WOR_WIN_CMD written with OP 3. -/
def execUnmap (owner : Fin 2048) (idx : Fin 256) (exp : Bool) (s : State) : Out :=
  .next (s.winCommand 3 owner idx exp fun s =>
    if exp then { s with wor := { s.wor with exports := s.wor.exports.del idx.val } }
    else { s with wor := { s.wor with imports := s.wor.imports.del (owner.val, idx.val) } })

/-- SEND (R443, R449): WOR_INV_CMD written with SEND, ignored while BUSY; the INV leaves once every earlier fabric request is
acknowledged or has ended. -/
def execSend (s : State) : Out :=
  if !s.managed then .next s else
  if s.flag R.WOR_INV_STATUS.BUSY then .next s
  else
    let a1 := s.rd R.WOR_INV_ARG.ARG 0 1
    let addr := s.rd R.WOR_INV_ARG.ARG 0 0 % 2 ^ 56 / 256 * 256
    let p : Packet := { typ := .inv, cls := .request, src := 0, dst := a1 % 4096, addr := addr, lines := a1 / 2 ^ 16 % 2 ^ 13 }
    let s := s.set1 R.WOR_INV_STATUS.BUSY
    let fence : Tab Nat Nat := s.wor.dests.filterMap fun e =>
      let k : Nat := if e.2.dead ∧ e.2.waiting.isEmpty then 0 else (e.2.unacked.filter fun u => !u.acked).length + e.2.waiting.length
      if k = 0 then none else some (e.1, k)
    .next (({ s with wor := { s.wor with inv := some (p, fence) } } : State).passFence p.dst 0)

end Machine
end Sys2Proof
end

