-- ==== Sys2Proof/Machine/Recovery.lean ====
section
/-!
DEFINITION. Errors that a unit reports, recoveries (15.3 to 15.6), standby groups (15.7), probation (15.8), and the training
of a SerDes quad (R486).
-/
namespace Sys2Proof

def CellClass.cls : CellClass → ErrClass
  | .program => .program
  | .laneParity => .laneParity
  | .dataUncorr => .dataUncorr

/-- The SUB values Table 15.2 gives a class. -/
def CellClass.subs : CellClass → Nat
  | .program => 11
  | .laneParity => 3
  | .dataUncorr => 6

namespace Machine

/-! ### Detection -/

/-- Whether a site runs, so that its slot can report an error: its units are in service, and it is neither retired, failed,
disabled nor contained. -/
def State.siteServes (s : State) (site : Nat) : Bool :=
  !s.isOut (.row (Unit.rowIx site)) && match (s.siteRec site).state with
    | .good | .suspect | .probation => true
    | _ => false

/-- A unit reports an error of level 1 or above: the record and containment, what goes with the unit, and the running load
where it is hit. -/
def State.reports (s : State) (i : ErrInfo) : State :=
  let (s, seq) := s.detect i
  match i.recUnit with
  | none => s
  | some u =>
    let s := s.dropQuads
    if s.loadHit u i.site ∨ (s.chainAt u).any (fun c => s.loadHit c.unit c.site) then s.failLoad seq else s

/-- A die is lost. The chief contains it; where it is the chief's own die, the other die controllers elect a new chief first
(R487, R531). -/
def State.dieFault (s : State) (d sub at_ : Nat) : State :=
  if s.isOut (.die d) then s
  else if s.chiefsDie (.die d) then s.loseChief sub
  else s.reports { cls := .die, sub := sub, die := at_, recUnit := some (.die d) }

/-- ERROR_DETECT (R464). An event of a unit that has left service does not come about (log entry 6). -/
def execErrorDetect (e : Detected) (s : State) : Out :=
  match e with
  | .cell c sub site unit item detail =>
    if !s.siteServes site ∨ CellClass.subs c ≤ sub.val then .next s
    else
      let i : ErrInfo := { s.atSite (CellClass.cls c) (sub + 1) site unit item with
        detail := if c = .dataUncorr then detail.toNat else 0, recUnit := none }
      .next (s.failWith i)
  | .core site sub unit =>
    if !s.siteServes site then .next s else .next (s.reports (s.atSite .coreUncorr (sub + 1) site unit none))
  | .quadrant q sub =>
    if s.isOut (.quadrant q) then .next s
    else .next (s.reports { cls := .quadrant, sub := sub + 1, die := q / 4, recUnit := some (.quadrant q) })
  | .cluster c sub =>
    if s.isOut (.cluster c) then .next s
    else .next (s.reports { cls := .cluster, sub := sub + 1, die := c / 2, recUnit := some (.cluster c) })
  | .stack k sub =>
    if s.isOut (.stack k) then .next s
    else .next (s.reports { cls := .stack, sub := sub + 1, die := k / 2, stack := k, unit := 7, detail := s.dirtyLines k
                            recUnit := some (.stack k) })
  | .die d sub => .next (s.dieFault d (sub + 1) d)
  | .staging k =>
    if s.ten.load.isNone ∨ 6 < s.phase ∨ s.phase = 0 ∨ !s.stackUp k ∨ !(s.ten.load.elim [] LoadSt.staged).contains k.val then .next s
    else
      let (s, seq) := s.detect { cls := .dataUncorr, sub := 5, die := k / 2, stack := k, unit := 7,
                                 owner := s.ten.load.map LoadSt.owner, detail := k * 2 ^ 36 }
      .next (if s.phase = 5 then s else s.failLoad seq)

/-- CORE_HANG (R464): a core control slot does not acknowledge a canopy command in 100 µs, or the read-back of a restore
fails its check. -/
def execCoreHang (site : Site) (restore : Bool) (s : State) : Out :=
  let restoring := s.sched.ctxs.any fun e => e.2.res = .restoring && (s.ctxSites e.2).contains site.val
  if !s.siteServes site ∨ (restore ∧ !restoring) then .next s
  else .next (s.reports (s.atSite .coreHang (if restore then 2 else 1) site 0 none))

/-- HEARTBEAT (R487): the 2 µs exchange; `answered` names the die controllers that take part in it, the chief's among them.
The fourth miss in a row of a die is its loss. -/
def execHeartbeat (answered : BitVec 8) (s : State) : Out :=
  if s.elapsed < s.err.heartAt then .next s else
  let chief := s.rd R.GLB_DIE_STATE.CHIEF
  let s : State := { s with err := { s.err with heartAt := s.elapsed + micros 2 } }
  .next ((List.range 8).foldl (fun s d =>
    if !s.dieUp d then s
    else if answered.toNat.testBit d then
      let s : State := { s with err := { s.err with missed := s.err.missed.del d } }
      s.tick R.DIE_HEARTBEAT.SENT d
    else
      let n := s.err.missed.findD d 0 + 1
      let s : State := { s with err := { s.err with missed := s.err.missed.put d n } }
      let s := s.wr R.DIE_HEARTBEAT.MISSED_MAX (max (s.rd R.DIE_HEARTBEAT.MISSED_MAX d) (min 255 n)) d
      if n < 4 then s else s.dieFault d 1 chief) s)

/-! ### What a recovery moves (R475, R480, R481, R578) -/

/-- The active-site mask of a row once a failed site has left it: the spare stands in, or the column is given up. -/
def State.maskAfter (s : State) (row site : Nat) : Nat :=
  let m := s.rowMask row
  if !m.testBit (Unit.colOf site) then m
  else
    let m' := m - 2 ^ Unit.colOf site
    match s.spareOf row with
    | some k => m' + 2 ^ Unit.colOf k
    | none => m'

/-- How a row's new mapping meets a context. `t` is the state with that mapping. -/
def State.rowHit (s t : State) (row site : Nat) (c : Ctx) : RowHit :=
  let here (rc : Nat × Nat) : Bool := c.cluster * 8 + rc.1 = row
  let cs := c.cores.filter here
  if cs.any fun rc => s.coreSite c rc = some site || t.coreSite c rc = none then .lost
  else if cs.isEmpty then .stays
  else
    let pairs := (List.range (c.dims.1 - 1)).flatMap fun i => (List.range c.dims.2).map fun j => (c.cluster * 8 + c.row + i, c.col + j)
    if !c.loose && pairs.any fun p => (p.1 = row || p.1 + 1 = row) && !t.joinable p.1 p.2 then .lost
    else if cs.any fun rc => s.coreSite c rc ≠ t.coreSite c rc then .moves
    else .stays

/-- The stack that holds the save slots of a cluster (R362, R484): its own, or where that has left service the lowest in
service. `also` counts as in service. -/
def State.saveStack (s : State) (c also : Nat) : Option Nat :=
  if s.stackIn c ∨ c = also then some c else (List.range 16).find? fun k => s.stackIn k || k = also

/-- Whether a context is placed on a unit, or its save image lay there (R475, R483). -/
def State.unitHit (s : State) (u : RecUnit) (c : Ctx) : Bool :=
  let on := c.cores.any fun rc => (RecUnit.row (c.cluster * 8 + rc.1)).within u && (match u with | .row _ => false | _ => true)
  let image (k : Nat) : Bool := c.rests && !c.saved.isEmpty && s.saveStack c.cluster k = some k
  match u with
  | .quadrant q => c.cores.any fun rc => (c.cluster * 8 + rc.1) / 4 = q
  | .stack k => image k
  | .die d => on || image (2 * d) || image (2 * d + 1)
  | .row _ | .fec _ | .quad _ => false
  | _ => on

/-- Whether a glade's group uses the FEC block of its cluster. -/
def State.ctxUsesFec (s : State) (k : Nat × Nat) (c : Ctx) (cl : Nat) : Bool :=
  c.cluster = cl && c.kind = .glade && !c.standby
    && (s.loaded k.1).any fun l => l.img.radio.any fun r => r.usesFec c.group

/-- The group of a protected glade that still has its standby (15.7). -/
def State.hasStandby (s : State) (k : Nat × Nat) (c : Ctx) : Bool :=
  c.kind = .glade && !c.standby && (s.loaded k.1).any fun l =>
    ((l.img.groups[c.group]?).any ImgGroup.prot) && !l.gone.contains c.group && l.placed.any fun p => p.standby && p.group = c.group

/-- An owner is orphaned by a record (R475). -/
def State.orphan (s : State) (o seq : Nat) : State :=
  let st := s.tenState o
  if !s.holdsImage o ∨ st = 2 ∨ st = 3 then s
  else
    let qs := (s.que.queues.filter fun e => e.2.owner = o && !e.2.leaving).map fun e => e.1
    let s := qs.foldl (fun s q => s.rerunQueue q true seq) s
    let s := s.releaseImage o
    let i : ErrInfo := { cls := .orphaned, die := s.rd R.GLB_DIE_STATE.CHIEF, owner := some o, causeSeq := seq, action := some 0x0C }
    let s := (s.detect i).1
    let s : State := { s with err := { s.err with orphans := s.err.orphans.put o seq
                                                  standby := s.err.standby.filter fun x => x.1 ≠ o } }
    s.refreshHealth

/-- Owners in ascending order. -/
def ascending (os : List Nat) : List Nat := sortBy (fun a b => decide (a < b)) os.eraseDups

/-- A context owes a save because its sites change (R478); its streams stop at both ends, since their routes change (R180). -/
def State.markMoving (s : State) (k : Nat × Nat) : State :=
  match s.ctx k with
  | none => s
  | some c =>
    let s := (s.streamsOf k c).foldl (fun s cn => s.stopStream cn.1 cn.2) s
    let s := s.setCtx k { c with moving := true }
    let s := if (s.sched.lent.find k).isSome then s.recall k else s
    if c.res = .resident then (s.beginSave k).decide_ c.cluster else s

/-- The clearings a recovery touches: contexts hit stop and orphan their owners, or stop where they are until their standby is
released (R475, R490); those that only move are saved (R480). -/
def State.recoverClearings (s : State) (ch : Chain) : State :=
  let rowMove : Option (Nat × Nat × State) := match ch.unit, ch.site with
    | .row r, some k =>
      let t : State := { s with err := { s.err with rowMask := s.err.rowMask.put r (s.maskAfter r k) } }
      some (r, k, t)
    | _, _ => none
  let route : List Nat := match s.err.ring.find (ch.first % 65536), ch.site with
    | some rec, some k =>
      if rec.cls = ErrClass.streamRoute.code then
        (if rec.owned then [rec.owner] else []) ++ (s.siteOwner k).toList
      else []
    | _, _ => []
  let hit (e : (Nat × Nat) × Ctx) : Bool := match rowMove, ch.unit with
    | some (r, k, t), _ => decide (s.rowHit t r k e.2 = .lost)
    | none, .fec cl => s.ctxUsesFec e.1 e.2 cl
    | none, u => s.unitHit u e.2
  let moves (e : (Nat × Nat) × Ctx) : Bool := match rowMove with
    | some (r, k, t) => decide (s.rowHit t r k e.2 = .moves)
    | none => false
  let blocks : List Nat := s.mem.blockOwner.filterMap fun e =>
    if (RecUnit.cluster e.1.1).within ch.unit then some e.2 else none
  let cs := s.sched.ctxs
  let away := cs.filter fun e => (hit e || moves e) && s.hasStandby e.1 e.2
  let groups := (away.map fun e => (e.1.1, e.2.group)).eraseDups
  let spared (e : (Nat × Nat) × Ctx) : Bool := groups.contains (e.1.1, e.2.group) && !e.2.standby
  let gone := ascending (route ++ (cs.filter fun e => hit e && !spared e).map (fun e => e.1.1)
    ++ blocks.filter fun o => !groups.any fun g => g.1 = o)
  let s := gone.foldl (fun s o => s.orphan o ch.first) s
  let s : State := { s with err := { s.err with standby := s.err.standby ++ (groups.filter fun g => !gone.contains g.1).map fun g =>
    (g.1, g.2, ch.first) } }
  let s := ((away.filter fun e => hit e && !gone.contains e.1.1).map fun e => e.1).foldl State.holdCtx s
  ((cs.filter fun e => moves e && !gone.contains e.1.1).map fun e => e.1).foldl State.markMoving s

/-! ### Homes, mirrors and the ring (R331, R469, R484) -/

/-- A queue whose journal is lost (Table 10.4). -/
def State.loseJournal (s : State) (q : Nat) (v : QueueSt) : State :=
  let s := (s.voidWriting q)
  let s := match s.queue q with
    | some w => if w.leaving then s.endLeaving q else s.setQueue q { w with lost := true }
    | none => s
  (s.detect { cls := .journalLost, die := s.rd R.GLB_DIE_STATE.CHIEF, owner := some v.owner, item := some ⟨q, 0⟩ }).1

/-- A queue whose home copy is lost: its home becomes the mirror die where the mirror copy is complete, and its in-doubt effects
go again (R331 to R333). -/
def State.moveHome (s : State) (q : Nat) : State :=
  match s.queue q with
  | none => s
  | some v =>
    if v.lost then s
    else match s.mirrorOf v.home with
      | some m =>
        if s.flag R.QUE_JNL.REBUILD 0 v.home ∨ !s.canHome m (q % 2) then s.loseJournal q v
        else
          let s := s.voidWriting q
          let s := match s.queue q with | some w => s.setQueue q { w with home := m } | none => s
          let s := s.resendEffects q
          if v.msgFed then s else { s with que := { s.que with sweep := q :: s.que.sweep.filter fun x => x ≠ q } }
      | none => s.loseJournal q v

/-- The journals after a die or a stack has left service: homes, then mirrors, each new copy being rebuilt. -/
def State.moveJournals (s : State) (out : Nat → Bool) : State :=
  let lostHome := s.que.queues.filter fun e => out (2 * e.2.home + e.1 % 2) && !e.2.lost
  let qs := (sortBy (fun a b => decide (a < b)) (lostHome.map fun e => e.1))
  let gains := (lostHome.filterMap fun e => s.mirrorOf e.2.home).eraseDups
  let t := qs.foldl State.moveHome s
  let t := if qs.isEmpty then t else t.tick R.QUE_GEN.GEN
  (List.range 8).foldl (fun t h =>
    if !t.dieUp h then t
    else
      let bad := match t.mirrorOf h with
        | some m => out (2 * m) || out (2 * m + 1)
        | none => false
      if bad then
        let m := t.mirrorFor h
        let mine := t.que.queues.filter fun e => e.2.home = h && !e.2.lost
        let t := mine.foldl (fun t e => t.voidWriting e.1) t
        let t := if mine.isEmpty then t else t.tick R.QUE_GEN.GEN
        (t.setMirror h m).wr R.QUE_JNL.REBUILD (if m.isSome then 1 else 0) 0 h
      else if gains.contains h ∧ (t.mirrorOf h).isSome then
        let mine := t.que.queues.filter fun e => e.2.home = h && !e.2.lost
        (mine.foldl (fun t e => t.voidWriting e.1) t).wr R.QUE_JNL.REBUILD 1 0 h
      else t) t

/-- The error ring after a die or a stack has left service: it moves where a copy lay there (R469). -/
def State.moveRing (s : State) (out : Nat → Bool) : State :=
  let home := s.rd R.ERR_STATUS.RING_HOME
  let mir := s.rd R.ERR_STATUS.RING_MIRROR
  let lostHome := out (2 * home)
  let s := if lostHome then s.wr R.ERR_STATUS.RING_HOME mir else s
  if lostHome ∨ out (2 * mir) then
    match s.mirrorFor (s.rd R.ERR_STATUS.RING_HOME) with
    | some m => (s.wr R.ERR_STATUS.RING_MIRROR m).wr R.ERR_STATUS.MIRROR_OK 0
    | none => s.wr R.ERR_STATUS.MIRROR_OK 0
  else s

/-! ### Recoveries (R471) -/

/-- RECOVERY_START (R471, R475 to R481, R483, R484): the chief starts the first queued recovery; while the chief's die is lost none
starts (R531). -/
def execRecoveryStart (s : State) : Out :=
  match s.err.running, s.err.queue with
  | none, ch :: rest =>
    if s.boot.lostChief.isSome then .next s else
    let s : State := { s with err := { s.err with queue := rest, running := some ch } }
    let s := s.dropQuads.settleLoad
    let s := match ch.unit with
      | .package => s
      | _ => s.recoverClearings ch
    let s := match ch.unit with
      | .stack k => (s.moveJournals fun x => x = k).moveRing fun x => x = k
      | .die d =>
        let s := (s.moveJournals fun x => x / 2 = d).moveRing fun x => x / 2 = d
        if d = 0 ∧ !s.flag R.HST_PORT.ACTIVE then s.hostSwitch else s
      | _ => s
    .next s
  | _, _ => .next s

/-- Both ends of a stream start again. -/
def State.startStream (s : State) (c n : Nat) : State :=
  match s.stream c n with
  | none => s
  | some r =>
    let start (t : Tab PortId Port) (p : PortId) : Tab PortId Port := t.modify p fun v => if v.stream = n then { v with stopped := false } else v
    { s with str := { s.str with streams := s.str.streams.put (c, n) { r with stopped := false }
                                 ports := start (start s.str.ports r.producer) r.consumer } }

/-- Streams that join a moved context, laid anew from its new sites, start again; FEC ports keep what they hold. -/
def State.relayStreams (s : State) (o : Nat) (ixs : List Nat) : State :=
  match s.loaded o with
  | none => s
  | some l =>
    let touches (v : ImgStream) : Bool := [v.prod, v.cons].any fun p => (l.ctxOf p).any fun i => ixs.contains i
    let ss := l.img.streams.zipIdx.filter fun x => touches x.1
    ss.foldl (fun s x =>
      match l.streams[x.2]? with
      | none => s
      | some (c, n) =>
        let s : State := { s with str := { s.str with
          routes := s.str.routes.filter fun e => !(Unit.clusterOf e.1.1 = c && e.1.2 = n) } }
        let ports := s.str.ports
        let s := s.installStream o l x.2 x.1
        State.startStream { s with str := { s.str with ports := ports } } c n) s

/-- The contexts of a row that a recovery moves. -/
def State.movingOf (s : State) (row : Nat) : List ((Nat × Nat) × Ctx) :=
  s.sched.ctxs.filter fun e => e.2.moving && e.2.cores.any fun rc => e.2.cluster * 8 + rc.1 = row

/-- RECOVERY_END (R180, R471, R480, R481, R578): the moved contexts of a row have been saved, their streams are stopped at both ends
and have left the routers; the spare's core store is zeroed, the
row takes its new mask, and the contexts become ready. A ring mirror that was rebuilt is complete. -/
def execRecoveryEnd (s : State) : Out :=
  match s.err.running with
  | none => .next s
  | some ch =>
    let end_ (s : State) : State := { s with err := { s.err with running := none } }
    match ch.unit, ch.site with
    | .row r, some k =>
      let ms := s.movingOf r
      let busy := ms.any fun e => decide (e.2.res = .resident ∨ e.2.res = .saving)
        || (s.streamsOf e.1 e.2).any fun cn => decide (0 < s.inRouters cn.1 cn.2)
      if busy then .next s
      else
        let m := s.maskAfter r k
        if m = s.rowMask r then .next (end_ s)
        else
          let before := s
          let cl := r / 8
          let s : State := match s.spareOf r with
            | some a => { s with coreStore := s.coreStore.zero (coreAddr a 0) coreStoreSize }
            | none => s
          let s : State := { s with err := { s.err with rowMask := s.err.rowMask.put r m } }
          let s := s.tick R.TNS_ROUTE_GEN.GEN cl
          let owners := ascending (ms.map fun e => e.1.1)
          let s := owners.foldl (fun s o => s.relayStreams o ((ms.filter fun e => e.1.1 = o).map fun e => e.1.2)) s
          let s := s.tick R.STR_ROUTE_GEN.GEN cl
          let s := s.refreshCapacity before
          let s := s.yieldCheckers (ms.flatMap fun e => s.ctxSites e.2)
          let s := ms.foldl (fun s e => match s.ctx e.1 with
            | none => s
            | some c =>
              let s := s.setCtx e.1 { c with moving := false }
              if c.kind = .glade ∧ c.res = .saved ∧ (s.sched.lent.find e.1).isNone then
                let s := s.restoreCtx e.1 { c with moving := false }
                if c.standby then s.holdCtx e.1 else s.arrived e.1
              else s.makeReady e.1) s
          .next (end_ (s.decide_ cl))
    | u, _ =>
      match u with
      | .package => .next s
      | _ => .next (end_ (s.wr R.ERR_STATUS.MIRROR_OK (if (s.mirrorFor (s.rd R.ERR_STATUS.RING_HOME)).isSome then 1 else 0)))

/-! ### Standby groups (15.7) -/

/-- STANDBY_RELEASE (R490): lent shapes of the standby are recalled first; then flows, queue bindings and drumbeats go to the
standby, it is released, and the group's old place leaves the glade. -/
def execStandbyRelease (glade : Fin 2048) (group : Fin 1024) (s : State) : Out :=
  let o := glade.val
  let g := group.val
  match s.err.standby.find? fun x => x.1 = o && x.2.1 = g, s.loaded o with
  | some (_, _, seq), some l =>
    let idx (sb : Bool) : List Nat := l.placed.zipIdx.filterMap fun x => if x.1.group = g && x.1.standby = sb then some x.2 else none
    let lent := (idx true).filter fun i => (s.sched.lent.find (o, i)).isSome
    if !lent.isEmpty then .next (lent.foldl (fun s i => s.recall (o, i)) s)
    else
      let s : State := { s with err := { s.err with standby := s.err.standby.filter fun x => !(x.1 = o && x.2.1 = g) } }
      let old := (l.placed.find? fun p => p.group = g && !p.standby).map fun p => p.cluster
      let new := ((l.placed.find? fun p => p.group = g && p.standby).map fun p => p.cluster).getD 0
      let l1 : Loaded := { l with gone := g :: l.gone }
      let mine := l.groupStreams g
      -- the old place: contexts, streams, blocks
      let s := (idx false).foldl (fun s i => s.dropCtx (o, i)) s
      let nums := mine.filterMap fun x => l.streams[x.2]?
      let isOld (c n : Nat) : Bool := nums.contains (c, n)
      let ports := s.str.streams.filterMap fun e => if isOld e.1.1 e.1.2 then some [e.2.producer, e.2.consumer] else none
      let s : State := { s with str := { s.str with
        streams := s.str.streams.filter fun e => !isOld e.1.1 e.1.2
        routes := s.str.routes.filter fun e => !isOld (Unit.clusterOf e.1.1) e.1.2
        bufs := s.str.bufs.map fun e => (e.1, e.2.filter fun x => !isOld (Unit.clusterOf e.1.site) x.tag.stream)
        ports := s.str.ports.filter fun e => match e.1 with
          | .fecIn .. | .fecOut .. => !ports.flatten.contains e.1
          | _ => true } }
      let s := match old with | some c => s.tick R.STR_ROUTE_GEN.GEN c | none => s
      let streams := mine.foldl (fun t x => match l.sbStreams.find x.2 with
        | some n => t.set x.2 n
        | none => t) l.streams
      let keep := match old with | some c => l1.placed.any fun p => p.cluster = c && !(p.group = g && !p.standby) | none => true
      let blocks := if keep then l.blocks else l.blocks.filter fun b => old ≠ some b.1
      let s : State := { s with mem := { s.mem with blockOwner := s.mem.blockOwner.filter fun e =>
        !(e.2 = o && !blocks.contains e.1) } }
      let s := match old with | some c => if keep then s else s.tick R.CLU_OWN_GEN.GEN c | none => s
      let l1 := { l1 with streams := streams, blocks := blocks, sbStreams := l.sbStreams.filter fun e => mine.all fun x => x.2 ≠ e.1 }
      let s : State := { s with ten := { s.ten with images := s.ten.images.put o l1 } }
      -- the standby
      let s := mine.foldl (fun s x => s.installStream o l1 x.2 x.1) s
      let s := s.tick R.STR_ROUTE_GEN.GEN new
      let s := (idx true).foldl (fun s i => match s.ctx (o, i) with
        | none => s
        | some c =>
          let s := if c.onCores ∧ c.res ≠ .restoring then s.vacate (o, i) c else s
          match l1.placed[i]? with
          | none => s
          | some p =>
            let d : Ctx := { c with standby := false, held := false, saved := p.shape.cores.map fun n => l1.sectionOf o n
                                    running := l1.runSet p, field := some (l1.fieldOf o p (s.ctxSites c)), oldSites := s.ctxSites c
                                    res := .saved, since := s.elapsed }
            s.restoreCtx (o, i) d) s
      let inGroup (cell : Nat) : Bool := l1.img.radio.any fun r => r.cells.any fun c => c.cell = cell && c.group = g
      let flows := s.rad.flows.mapVal fun _ (e : FlowEnt) => if e.owner = o && inGroup e.flow.cell then { e with second := true } else e
      let s : State := { s with rad := { s.rad with flows := flows } }
      let qs := s.que.queues.filterMap fun e =>
        if e.2.owner = o && ((s.binding e.2).any fun b => (b.entry.toList ++ b.exits).any (l.inGroup g)) then some e.1 else none
      .next ((qs.foldl (fun s q => s.rerunQueue q true seq) s).tick R.RAD_GEN.GEN)
  | _, _ => .next s

/-! ### Probation (15.8) -/

/-- CE_LIMIT_REACHED (R493, R495): the corrected errors of a site have reached CE_LIMIT within the hour. -/
def execCeLimitReached (site : Site) (s : State) : Out :=
  let r := s.siteRec site
  if s.ceHour site < max 1 (s.rd R.ERR_CTRL.CE_LIMIT) ∨ r.ceHit = some s.hour ∨ !s.siteServes site then .next s
  else
    let s : State := { s with err := { s.err with sites := s.err.sites.put site.val { r with ceHit := some s.hour } } }
    .next (s.probation site)

/-- PROBATION_END (R494): after PROBATION_H hours and 1,024 samples a site is good again. -/
def execProbationEnd (site : Site) (s : State) : Out :=
  let r := s.siteRec site
  if r.state = .probation ∧ 1024 ≤ r.samples
      ∧ r.probStart + s.rd R.ERR_CTRL.PROBATION_H * (5 * 3600 * 10 ^ 9) ≤ s.elapsed then
    .next (s.setSite site { r with state := .good }).refreshHealth
  else .next s

/-! ### Link training (R379, R486) -/

/-- QUAD_TRAINING_END (R486): the link of a quad that trains comes up with its four lanes locked (R380, R429), a Woruri link then being
secured; or it fails, and the third failure within one second takes the quad out of service. -/
def execQuadTrainingEnd (q : Quad) (ok : Bool) (lanes : BitVec 4) (s : State) : Out :=
  if s.rd R.RAD_Q_LINK.STATE q ≠ 3 ∨ s.isOut (.quad q) then .next s
  else if ok ∧ lanes = 15 then
    let s := (s.wr R.RAD_Q_LINK.STATE 1 q).wr R.RAD_Q_LINK.LANES 15 q
    let s : State := { s with err := { s.err with quadFails := s.err.quadFails.del q.val } }
    if s.rd R.RAD_Q_MODE.MODE q = 2 then
      if s.rd R.WOR_P_STATE.STATE q ≠ 1 then .next s
      else
        let s := s.wr R.WOR_P_STATE.STATE 2 q
        .next { s with wor := { s.wor with links := s.wor.links.put q.val {} } }
    else
      .next (s.resumeRing q)
  else
    let ts := s.elapsed :: (s.err.quadFails.findD q.val []).filter fun t => s.elapsed < t + 5 * 10 ^ 9
    let s : State := { s with err := { s.err with quadFails := s.err.quadFails.put q.val ts } }
    if ts.length < 3 then .next s
    else .next (s.reports { cls := .quad, die := q / 2, quad := q, unit := 7, recUnit := some (.quad q) })

end Machine
end Sys2Proof
end

