-- ==== Sys2Proof/Machine/Mgmt.lean ====
section
/-!
DEFINITION. Mewait's mailbox (17.4), attestation and sessions (17.6, R520), the debug lock and JTAG (17.7), I3C and MCTP (17.8).
-/
namespace Sys2Proof.Machine

/-- The stage of the package (MGT_STATUS). -/
def State.stage (s : State) : Nat := s.rd R.MGT_STATUS.STAGE

/-- Whether the package is in the reset of POR_N, of WARM_RST_N or of a thermal trip. -/
def State.held (s : State) : Bool := s.boot.phase ≠ .stages

/-- Whether a chief runs Mewait (17.3): from IDENTITY on, and not while the dies elect again. -/
def State.chiefRuns (s : State) : Bool :=
  !s.held && decide (5 ≤ s.stage ∧ s.stage ≤ 7) && s.boot.lostChief.isNone

/-- A fresh nonce (R545). -/
def State.freshNonce (s : State) : State :=
  let t : State := { s with freeCtr := s.freeCtr + 1 }
  t.wr R.SEC_NONCE.VALUE (Config.nonce s.freeCtr).toNat

/-! ### The mailbox (R532 to R535) -/

/-- An argument of the mailbox. -/
def State.mbxArg (s : State) (a : Nat) : Nat := s.rd R.MGT_MBX_ARG.ARG 0 a

/-- A mailbox command ends. -/
def State.endMbx (s : State) (status : Nat) (cause : Nat := 0) : State :=
  let s := ((s.wr R.MGT_MBX_STATUS.BUSY 0).wr R.MGT_MBX_STATUS.STATUS status).wr R.MGT_MBX_STATUS.CAUSE cause
  { s.eventCmdDone with mgt := { s.mgt with job := none } }

/-- One write of MGT_MBX_CMD: nothing where no chief runs or the host does not reach it, lost while BUSY, refused by a cause, or with the effect of its
command. -/
def State.mbxCommand (s : State) (cause : Nat) (run : State → State) : State :=
  if !(s.chiefRuns && s.answers) then s
  else if s.flag R.MGT_MBX_STATUS.BUSY then s.set1 R.MGT_MBX_STATUS.CMD_LOST
  else
    let s := ((s.set1 R.MGT_MBX_STATUS.BUSY).tick R.MGT_MBX_STATUS.CMD_SEQ).wr R.MGT_MBX_STATUS.CAUSE 0
    if cause ≠ 0 then s.endMbx 5 cause else run s

/-- A write of a reserved OP (cause 0x04). -/
def State.reservedMbx (s : State) : State := s.mbxCommand 4 fun s => s

/-- The first cause that applies. -/
def firstCause (l : List (Bool × Nat)) : Nat := ((l.find? fun x => x.1).map fun x => x.2).getD 0

/-- A command whose effect is a change of the persistent state begins its write: the copy it goes to is not valid until it
ends. -/
def State.beginPersist (s : State) (op : Nat) (p : Persist) : State :=
  { s with mgt := { s.mgt with job := some (.persist op p), flash := s.mgt.flash.put none } }

/-- FW_STAGE (R533, R534): a Mewait image is fetched and verified; a length that does not reach the end of its signatures leaves out some of
them (R240). -/
def execFwStage (img : FwImage) (s : State) : Out :=
  let a := s.mbxArg 0
  let len := s.mbxArg 1
  .next (s.mbxCommand (firstCause [(a % 4096 ≠ 0 || 33550336 < len || len < 8496, 0x04), (!img.genuine || len < img.bytes.length + 8240, 0x0E),
      (img.secVer < s.rd R.SEC_STATE.FW_FLOOR, 0x0F)]) fun (s : State) =>
    State.endMbx { s with mgt := { s.mgt with staged := some img } } 0)

/-- FW_COMMIT (R533): the staged image is written to the image region, which holds none until the write ends. -/
def execFwCommit (s : State) : Out :=
  .next (s.mbxCommand (firstCause [(s.mgt.staged.isNone, 0x0D)]) fun (s : State) =>
    match s.mgt.staged with
    | some f => { s with mgt := { s.mgt with job := some (.image f), flash := { s.mgt.flash with image := none } } }
    | none => s)

/-- FW_FLOOR (R533): at most the SEC_VER of the image in flash, and never lowered. -/
def execFwFloor (s : State) : Out :=
  let v := s.mbxArg 0
  let bound := ((s.mgt.flash.image).map FwImage.secVer).getD 0
  .next (s.mbxCommand (firstCause [(2 ^ 32 ≤ v, 0x04), (v < s.rd R.SEC_STATE.FW_FLOOR || bound < v, 0x0F)]) fun (s : State) =>
    s.beginPersist 3 { s.persistNow with fwFloor := v })

/-- The KEY_ID of a public key pair in the encoding of 17.4. -/
def keyIdOf (key : List Byte) : Nat := leNat ((Sha.sha384 key).take 8)

/-- Whether ARG_0 names a slot the manager provisions. -/
def State.badSlot (s : State) : Bool := s.mbxArg 0 = 0 || 7 < s.mbxArg 0

/-- KEY_SET (R533): a slot's keys and floor. -/
def execKeySet (key : Vector Byte 416) (s : State) : Out :=
  let n := s.mbxArg 0
  let f := s.mbxArg 2
  .next (s.mbxCommand (firstCause [(s.badSlot || 2 ^ 32 ≤ f, 0x04), (s.flag R.SEC_CTRL.LOCK, 0x0B), (s.ten.load.isSome, 0x0C)]) fun (s : State) =>
    let p := s.persistNow
    s.beginPersist 4 { p with slots := p.slots.put n { key := keyIdOf key.toList, floor := f } })

/-- KEY_CLEAR (R533). -/
def execKeyClear (s : State) : Out :=
  let n := s.mbxArg 0
  .next (s.mbxCommand (firstCause [(s.badSlot, 0x04), (s.flag R.SEC_CTRL.LOCK, 0x0B), (s.ten.load.isSome, 0x0C),
      (!s.mgt.slots.has n, 0x10)]) fun (s : State) =>
    let p := s.persistNow
    s.beginPersist 5 { p with slots := p.slots.del n })

/-- KEY_FLOOR (R533): a slot's floor is raised. -/
def execKeyFloor (s : State) : Out :=
  let n := s.mbxArg 0
  let f := s.mbxArg 2
  let old := ((s.mgt.slots.find n).map KeySlot.floor).getD 0
  .next (s.mbxCommand (firstCause [(s.badSlot || 2 ^ 32 ≤ f, 0x04), (s.flag R.SEC_CTRL.LOCK, 0x0B), (s.ten.load.isSome, 0x0C),
      (f < old, 0x0F), (!s.mgt.slots.has n, 0x10)]) fun (s : State) =>
    let p := s.persistNow
    s.beginPersist 6 { p with slots := p.slots.modify n fun k => { k with floor := f } })

/-- ANCHOR_SET (R533): a fabric trust anchor is set, or cleared by length 0. -/
def execAnchorSet (cert : List Byte) (s : State) : Out :=
  let n := s.mbxArg 0
  let len := s.mbxArg 2
  .next (s.mbxCommand (firstCause [(3 < n || 2048 < len, 0x04), (s.flag R.SEC_CTRL.LOCK, 0x0B)]) fun (s : State) =>
    let p := s.persistNow
    s.beginPersist 7 { p with anchors := if len = 0 then p.anchors.del n else p.anchors.put n (cert.take len) })

/-- DEBUG_UNLOCK (R545): a record signed with the debug key, naming this device and this nonce, opens debug and erases the
identity; every attempt makes a fresh nonce. -/
def execDebugUnlock (r : UnlockRec) (s : State) : Out :=
  let owners := (List.range 1024).any fun o => s.tenState o ≠ 0
  let stale := r.serial.toNat ≠ s.rd R.SEC_DSN.VALUE || r.nonce.toNat ≠ s.rd R.SEC_NONCE.VALUE
  let tried := s.chiefRuns && s.answers && !s.flag R.MGT_MBX_STATUS.BUSY
  let t := s.mbxCommand (firstCause [(!r.genuine, 0x0E), (owners || stale, 0x11)]) fun (s : State) =>
    let s := (s.set1 R.SEC_STATE.DEBUG).wr R.SEC_STATE.IDENTITY_READY 0
    State.endMbx { s with mgt := { s.mgt with spdm := {}, identity := none } } 0
  .next (if tried then t.freshNonce else t)

/-- NONCE_READ (R545): the read answers SEC_NONCE, which then takes a fresh value. -/
def execNonceRead (s : State) : Out :=
  if !s.managed then .next s else
  .next s.freshNonce

/-- The running state takes a copy of the persistent state. -/
def State.takePersist (s : State) (p : Persist) : State :=
  let changed := decide (p.slots ≠ s.mgt.slots.filter fun e => e.1 ≠ 0)
  let t : State := { s with mgt := { s.mgt with slots := (s.mgt.slots.filter fun e => e.1 = 0) ++ p.slots, anchors := p.anchors } }
  let t := t.wr R.SEC_STATE.FW_FLOOR p.fwFloor
  if changed then t.tick R.SEC_GEN.GEN else t

/-- FLASH_WRITE_END (R533, R549): a flash write has finished and is read back; `ok` says that the copy verifies. -/
def execFlashWriteEnd (ok : Bool) (s : State) : Out :=
  match s.mgt.job with
  | none => .next s
  | some (.image f) =>
    if !ok then .next (s.endMbx 3)
    else .next (State.endMbx { s with mgt := { s.mgt with flash := { s.mgt.flash with image := some f } } } 0)
  | some (.persist _ p) =>
    if !ok then .next (s.endMbx 3)
    else
      let t : State := { s with mgt := { s.mgt with flash := s.mgt.flash.put (some p) } }
      .next ((t.takePersist p).endMbx 0)
  | some (.chunk m len) =>
    let t : State := { s with mgt := { s.mgt with job := none, push := s.mgt.push.map fun q =>
      { q with done := q.done + len, manifest := m, bytes := q.bytes ++ Mem.readBytes s.mgt.rcvData 0 len } } }
    .next ((t.wr R.MGT_RCV_STATUS.OFFSET (s.rd R.MGT_RCV_STATUS.OFFSET + len)).wr R.MGT_RCV_STATUS.BUSY 0)

/-! ### Attestation (R539 to R543) -/

/-- Index 0x04: the security-state bytes (R540). -/
def State.securityBytes (s : State) : List Byte :=
  let b (x : Bool) : Nat := if x then 1 else 0
  let st := b (s.flag R.SEC_STATE.IDENTITY_READY) + 2 * b (s.flag R.SEC_STATE.DEBUG) + 4 * b (s.flag R.SEC_STATE.STATE_FRESH)
    + 2 ^ 32 * s.rd R.SEC_STATE.FW_FLOOR
  let slot (n : Nat) : List Byte := match s.mgt.slots.find n with
    | some k => leBytes 8 k.key ++ leBytes 4 k.floor
    | none => List.replicate 12 0
  let anchor (n : Nat) : List Byte := match s.mgt.anchors.find n with
    | some c => Sha.sha384 c
    | none => List.replicate 48 0
  leBytes 8 st ++ leBytes 1 (s.rd R.SEC_CTRL.LOCK) ++ leBytes 4 (s.rd R.SEC_STATE.FW_FLOOR)
    ++ (List.range 8).flatMap slot ++ (List.range 4).flatMap anchor

/-- The bytes of index 0x11 (R542): owner and measurement of every clearing that holds an image, owners ascending. -/
def State.residentBytes (s : State) : List Byte :=
  let os := sortBy (fun a b => decide (a.1 < b.1)) (s.mgt.resident.filter fun e => s.holdsImage e.1)
  os.flatMap fun e => leBytes 2 e.1 ++ digestBytes e.2.digest

/-- A measurement block of Table 17.5. -/
def State.measurement (s : State) (ix : Nat) : Option (List Byte) :=
  match ix with
  | 0x01 => some ((List.range 48).map Config.romDigest)
  | 0x02 => s.mgt.manifest.map Manifest.measure
  | 0x03 => s.mgt.running.map FwImage.measure
  | 0x04 => some (Sha.sha384 s.securityBytes)
  | 0x10 => some s.mgt.log
  | 0x11 => some (Sha.sha384 s.residentBytes)
  | _ => none

/-- The blocks a request names; index 0xFF names all of them. -/
def State.measurements (s : State) (ix : Nat) : List (Nat × List Byte) :=
  let all := [0x01, 0x02, 0x03, 0x04, 0x10, 0x11].filterMap fun k => (s.measurement k).map fun v => (k, v)
  if ix = 0xFF then all else all.filter fun x => x.1 = ix

/-- The sessions each path may hold (17.6). -/
def pathSessions (p : SpdmPath) : Nat :=
  match p with
  | .doe => 4
  | .mctp => 2

/-- Whether a session is open on a path. -/
def State.sessionOpen (s : State) (p : SpdmPath) (n : Nat) : Bool := s.mgt.spdm.sessions.contains (p, n)

/-- The PCI-SIG registry of vendor identifiers, and Folnex's identifier in it (Table 16.2; log entry 123). -/
def folnexVendor : Nat × Nat := (0x03, 0x1F9C)

/-- The two signatures of an answer over one transcript hash, of the connection's requests on a path (R539). -/
def State.signatures (s : State) (id : Identity) (p : SpdmPath) : SpdmSig :=
  let h := Config.transcriptHash ((s.mgt.spdm.transcript.filter fun x => x.1 = p).map fun x => x.2.code) s.freeCtr
  { rsa := Config.rsaSign id.rsaSeed h s.freeCtr
    elem := { registry := folnexVendor.1, vendor := folnexVendor.2, slh := Config.slhSign id.slhSeed h s.freeCtr } }

/-- The signed answers of a request (R539). -/
def State.signed (s : State) (p : SpdmPath) (r : SpdmReq) : SpdmRsp :=
  match s.mgt.identity, r with
  | some id, .challenge n => .challengeAuth n (s.signatures id p)
  | some id, .measurements ix => .measurements (s.measurements ix) (s.signatures id p)
  | _, _ => .error

/-- Mewait's answer to a request on a path (17.6, R520). A signed answer needs an SLH-DSA signature: it is first
ResponseNotReady, and RESPOND_IF_READY collects it. Without identity every answer is an error (R536, R545). -/
def State.respond (s : State) (p : SpdmPath) (r : SpdmReq) : State × SpdmRsp :=
  if !s.chiefRuns ∨ !s.flag R.SEC_STATE.IDENTITY_READY ∨ s.flag R.SEC_STATE.DEBUG then (s, .error)
  else
    let old := s.mgt.spdm.transcript.filter fun x => r ≠ .version || x.1 ≠ p
    let sp : SpdmSt := { s.mgt.spdm with transcript := if r = .respondIfReady then old else old ++ [(p, r)] }
    let s : State := { s with mgt := { s.mgt with spdm := sp } }
    let put (x : SpdmSt) : State := { s with mgt := { s.mgt with spdm := x } }
    let later : State × SpdmRsp := (put { sp with deferred := (p, r) :: sp.deferred.filter fun x => x.1 ≠ p }, .notReady 2)
    match r with
    | .version => (s, .version 1 3)
    | .capabilities => (s, .capabilities)
    | .algorithms => (s, .algorithms)
    | .digests => (s, .digests [0, 1])
    | .certificate n => (s, if n ≤ 1 then .certificate n ((s.mgt.manifest.bind fun m => m.chains.find n).getD []) else .error)
    | .challenge n => if n ≤ 1 then later else (s, .error)
    | .measurements ix => if (s.measurements ix).isEmpty then (s, .error) else later
    | .respondIfReady =>
      match sp.deferred.find? fun x => x.1 = p with
      | some (_, q) =>
        let t := put { sp with deferred := sp.deferred.filter fun x => x.1 ≠ p }
        ({ t with freeCtr := t.freeCtr + 1 }, t.signed p q)
      | none => (s, .error)
    | .keyExchange =>
      if pathSessions p ≤ (sp.sessions.filter fun x => x.1 = p).length then (s, .error)
      else (put { sp with sessions := sp.sessions ++ [(p, sp.next)], next := sp.next + 1 }, .session sp.next)
    | .finish n | .keyUpdate n => (s, if s.sessionOpen p n then .done else .error)
    | .endSession n =>
      if s.sessionOpen p n then (put { sp with sessions := sp.sessions.filter fun x => x ≠ (p, n) }, .done) else (s, .error)
    | .ideKeys n cache =>
      if p = .doe ∧ s.sessionOpen p n then
        ((if cache then s.wr R.HST_IDE.CACHE_STATE 1 else s.wr R.HST_IDE.IO_STATE 1).flushHost, .done)
      else (s, .error)
    | .other => (s, .error)

/-- DOE_OBJECT (R520): a data object of up to 64 KiB for the Discovery, CMA/SPDM and Secured CMA/SPDM protocols. -/
def execDoeObject (o : DoeObject) (s : State) : Out :=
  if 65536 < o.len ∨ !s.configOpen then .next s
  else
    let hold (s : State) (a : DoeAnswer) : State :=
      { s with host := { s.host with doe := some o, answers := s.host.answers ++ [.doe a] } }
    match o.body with
    | .discovery i => .next (if i ≤ 2 then hold s (.discovery i ((i + 1) % 3)) else s)
    | .spdm r =>
      let (t, a) := s.respond .doe r
      .next (hold t (.spdm a))
    | .secured n r =>
      if !s.sessionOpen .doe n then .next s
      else
        let (t, a) := s.respond .doe r
        .next (hold t (.secured n a))
    | .unknown => .next s

/-- DOE_ABORT (R520): the object in progress ends, and the mailbox holds none. -/
def execDoeAbort (s : State) : Out :=
  let sp := s.mgt.spdm
  .next { s with host := { s.host with doe := none }
                 mgt := { s.mgt with spdm := { sp with deferred := sp.deferred.filter fun x => x.1 ≠ .doe } } }

/-! ### I3C and MCTP (R546, R547) -/

/-- Whether the I3C target answers: the ROM or Mewait runs it. -/
def State.i3cRuns (s : State) : Bool := !s.held && s.mgt.manifest.isSome

/-- ENTDAA (R546): the controller gives the target a dynamic address, by its provisional ID. -/
def execEntdaa (addr : BitVec 7) (s : State) : Out :=
  if !s.i3cRuns ∨ s.rd R.MGT_I3C.DYN_ADDR ≠ 0 then .next s else .next (s.wr R.MGT_I3C.DYN_ADDR addr.toNat)

/-- SETDASA (R546): a dynamic address by the manifest's static address. -/
def execSetdasa (static_ addr : BitVec 7) (s : State) : Out :=
  if !s.i3cRuns ∨ s.rd R.MGT_I3C.DYN_ADDR ≠ 0 ∨ (s.mgt.manifest.map Manifest.i3cStatic) ≠ some static_.toNat then .next s
  else .next (s.wr R.MGT_I3C.DYN_ADDR addr.toNat)

/-- RSTDAA (R546). -/
def execRstdaa (s : State) : Out := if !s.i3cRuns then .next s else .next (s.wr R.MGT_I3C.DYN_ADDR 0)

/-- An answer to the baseboard controller; each pending message raises an in-band interrupt. -/
def State.mctpAnswer (s : State) (a : MgtAnswer) : State := { s with mgt := { s.mgt with answers := s.mgt.answers ++ [a] } }

/-- GETSTATUS (R546): the target answers with its pending messages. -/
def execGetstatus (s : State) : Out :=
  if !s.i3cRuns then .next s else .next (s.mctpAnswer (.i3cStatus s.mgt.answers.length))

/-- SET_ENDPOINT_ID (R546). -/
def execSetEndpointId (eid : BitVec 8) (s : State) : Out :=
  if !s.i3cRuns then .next s else .next ((s.wr R.MGT_I3C.EID eid.toNat).mctpAnswer (.control 1))

/-- What a PLDM sensor reads, with its state by the thresholds of R564. -/
def State.sensor (s : State) (n : Nat) : Option (Nat × Nat) :=
  let level (v warn crit fatal : Nat) : Nat := if fatal ≤ v then 3 else if crit ≤ v then 2 else if warn ≤ v then 1 else 0
  if 1 ≤ n ∧ n ≤ 8 then
    let v := s.rd R.DIE_THERM_DC.DIE_C (n - 1)
    some (v, level v (s.rd R.GLB_PWR_CTRL.WARN_C) (s.rd R.GLB_PWR_CTRL.THROTTLE_C) 95)
  else if 9 ≤ n ∧ n ≤ 24 then
    let v := s.rd R.HBM_STATE.TEMP (n - 9)
    some (v, level v (s.rd R.GLB_PWR_CTRL.HBM_THROTTLE_C) 93 95)
  else if n = 25 then
    let v := s.rd R.GLB_PWR_STATUS.POWER_W
    some (v, if s.rd R.GLB_PWR_CTRL.PWR_LIMIT_W ≤ v then 2 else 0)
  else if n = 26 then some (s.rd R.ERR_HEALTH.STATE, 0)
  else none

/-- MCTP_MESSAGE (R546, R547): control, PLDM types 0 and 2, SPDM and secured messages are answered; the device supports no
other type. -/
def execMctpMessage (m : MctpMsg) (s : State) : Out :=
  if !s.i3cRuns then .next s
  else match m with
    | .control op => .next (s.mctpAnswer (.control op))
    | .pldm t sensor =>
      match t, sensor with
      | 0, _ => .next (s.mctpAnswer (.pldm 0))
      | 2, some n =>
        .next (match s.sensor n with
          | some (v, st) => s.mctpAnswer (.reading n v st)
          | none => s.mctpAnswer (.pldm 2))
      | 2, none => .next (s.mctpAnswer (.pldm 2))
      | _, _ => .next s
    | .spdm r =>
      let (t, a) := s.respond .mctp r
      .next (t.mctpAnswer (.spdm a))
    | .secured n r =>
      if !s.sessionOpen .mctp n then .next s
      else
        let (t, a) := s.respond .mctp r
        .next (t.mctpAnswer (.secured n a))
    | .other _ => .next s

/-! ### JTAG (R544) -/

/-- The value of the IDCODE register. -/
def jtagId : Nat := 0x15A819A7

/-- The register an instruction puts between TDI and TDO: the identification register, the one-bit bypass register, or the
boundary scan register. -/
def State.jtagData (s : State) : Nat :=
  match s.jtag.ir with
  | .idcode => jtagId
  | .bypass | .clamp | .highz => 0
  | .samplePreload | .extest => s.jtag.boundary

/-- The instruction register takes an instruction; the pins leave the test modes. -/
def State.jtagSelect (s : State) (i : JtagInstr) : State := { s with jtag := { s.jtag with ir := i, driven := none, floating := false } }

/-- IDCODE. -/
def execIdcode (s : State) : Out := .next (s.jtagSelect .idcode)

/-- BYPASS. -/
def execBypass (s : State) : Out := .next (s.jtagSelect .bypass)

/-- SAMPLE/PRELOAD: the boundary scan register captures the pins or is loaded; `pins` is the value it then holds. -/
def execSamplePreload (pins : Nat) (s : State) : Out :=
  let t := s.jtagSelect .samplePreload
  .next { t with jtag := { t.jtag with boundary := pins } }

/-- EXTEST, only while the package is held in reset: the pins follow the boundary scan register. -/
def execExtest (s : State) : Out :=
  if !s.held then .next s
  else
    let t := s.jtagSelect .extest
    .next { t with jtag := { t.jtag with driven := some t.jtag.boundary } }

/-- CLAMP, only while the package is held in reset: the pins hold the boundary scan register's values, and the bypass register
is selected. -/
def execClamp (s : State) : Out :=
  if !s.held then .next s
  else
    let t := s.jtagSelect .clamp
    .next { t with jtag := { t.jtag with driven := some t.jtag.boundary } }

/-- HIGHZ, only while the package is held in reset: the outputs float. -/
def execHighz (s : State) : Out :=
  if !s.held then .next s
  else
    let t := s.jtagSelect .highz
    .next { t with jtag := { t.jtag with floating := true } }

/-- TAP_RESET (R567): TRST_N low resets the test access port, and nothing else. -/
def execTapReset (s : State) : Out := .next { s with jtag := { s.jtag with ir := .idcode, driven := none, floating := false } }

end Sys2Proof.Machine
end

