-- ==== Sys2Proof/Machine/Reset.lean ====
section
/-!
DEFINITION. The resets of the package (18.5): what a power-on reset leaves, what a warm reset keeps (R568 and the rules it
names).
-/
namespace Sys2Proof.Machine

/-- The package in the reset of POR_N: the flash alone survives (R567). The model's own counters, and what has left the
package, stand. -/
def State.powerOff (s : State) (ph : BootPhase) : State :=
  { State.reset with
    pending := s.pending, elapsed := s.elapsed, freeCtr := s.freeCtr
    mgt := { flash := s.mgt.flash, answers := s.mgt.answers }
    host := { sent := s.host.sent, writes := s.host.writes, answers := s.host.answers }
    boot := { phase := ph, start := s.elapsed }
    tim := { gapAt := s.elapsed }
    pow := { trip := decide (ph = .tripped) } }

/-- POWER_ON_RESET (R567): POR_N falls. It overrides a warm reset in progress. -/
def execPowerOnReset (s : State) : Out := .next (s.powerOff .por)

/-- THERMTRIP (R563): a comparator drives THERMTRIP_N low, and all clocks stop until POR_N falls. Nothing runs or answers any
more, so the model keeps nothing of the package but the flash (log entry 70). -/
def execThermtrip (_d : Die) (s : State) : Out := .next (s.powerOff .tripped)

/-- POR_RELEASE (R525): POR_N rises and boot begins at stage 0x0. -/
def execPorRelease (s : State) : Out :=
  if s.boot.phase ≠ .por then .next s
  else .next { s with boot := { phase := .stages, start := s.elapsed } }

/-- Registers that keep their value through warm reset: rws fields (R7), and those that R302, R334, R335, R412, R440, R468,
R568 and Tables 12.9 and 14.9 name; debug stays open until power-on (R545). -/
def keepsWarm (k : FKey) : Bool :=
  match k.reg with
  | .SCH_TEN_BUDGET | .SCH_TEN_SHARE | .SCH_TEN_DRAIN | .SCH_TEN_ENGINE | .SCH_TEN_VIOL | .SCH_TEN_RESET | .SCH_POOL
  | .QUE_EPOCH | .RAD_Q_MODE | .RAD_Q_MAC | .TIM_FREQ | .GLB_DET_ND_COUNT => true
  | .SCH_TEN_CFG => k.lo ≠ R.SCH_TEN_CFG.IMAGE.lo
  | .QUE_JNL => k.lo = R.QUE_JNL.MIRROR.lo || k.lo = R.QUE_JNL.REBUILD.lo
  | .TIM_STATUS => k.lo = R.TIM_STATUS.VALID.lo
  | .WOR_CTRL => k.lo = R.WOR_CTRL.NODE.lo
  | .WOR_STATUS => k.lo = R.WOR_STATUS.INCARN.lo
  | .WOR_ATOM_TABLE => k.lo = R.WOR_ATOM_TABLE.USED.lo
  | .ERR_STATUS => k.lo = R.ERR_STATUS.NEXT_SEQ.lo || k.lo = R.ERR_STATUS.RING_HOME.lo || k.lo = R.ERR_STATUS.RING_MIRROR.lo
  | .HST_PORT => k.lo = R.HST_PORT.SWITCHES.lo
  | .GLB_PWR_RESET => k.lo = R.GLB_PWR_RESET.WARM_COUNT.lo
  | .SEC_STATE => k.lo = R.SEC_STATE.DEBUG.lo
  | _ => (k.reg.fields.find? fun f => f.lo = k.lo).any fun f => f.acc = .rws

/-- The acceptance records on their way are completed (R568 step 2), by dies that can: at most as many as are being written. -/
def State.endJournal (s : State) (q : Nat) (n : Nat) : State :=
  match n with
  | 0 => s
  | n + 1 => match execAcceptanceRecordAck q s with
    | .next t => t.endJournal q n
    | _ => s

/-- The dirty lines of the line caches, the writes that have arrived at them and the writes on their way reach HBM, but for the caches
of dies that cannot write them back (R221, R568 step 2); a bad pair written whole is good again (R215). -/
def State.writeAll (s : State) (lost : Nat) : State :=
  let ws : List (Nat × LineBytes) := (s.mem.wb.map fun w => (w.line, w.bytes)) ++ s.mem.lc.flatMap fun e =>
    if lost.testBit e.1 then []
    else
      (e.2.lines.filterMap fun l => match l.key, l.dirty with
        | .hbm n, true => some (n, fullBytes l.data)
        | _, _ => none)
      ++ (e.2.fills.flatMap (fun f => f.waiting) ++ e.2.inq).filterMap fun r => match r.key, r.write with
        | .hbm n, some b => some (n, b)
        | _, _ => none
  let m := ws.foldl (fun m w => w.2.foldl (fun m x => Mem.write m (w.1 * 256 + x.1) x.2) m) s.mem.hbm
  { s with mem := { s.mem with hbm := m, hbmBad := s.mem.hbmBad.filter fun a => !ws.any fun w => w.1 = a / 4 && decide (coveredOf w.2 (a % 4) = 64) } }

/-- What a site's state is after a warm reset, until its start-up test: an arbitration has ended without a verdict. -/
def siteAfterWarm (r : SiteRec) : SiteRec :=
  match r.state with
  | .suspect => { r with state := .good }
  | _ => r

/-- Steps 1 to 4 of R568. `five` says that a level-5 containment or a failed election began the reset; `lost` names the dies
that lose their dirty lines; `ph` is the phase that follows. -/
def State.warmReset (s : State) (five : Bool) (lost : Nat) (ph : BootPhase) : State :=
  let qs := s.que.queues.map fun e => e.1
  let s := qs.foldl (fun s q => match s.queue q with
    | some v =>
      if lost.testBit v.home ∨ (s.mirrorOf v.home).any (fun m => lost.testBit m) then s else s.endJournal q v.writing.length
    | none => s) s
  let s := s.writeAll lost
  let s := (s.sched.ctxs.filter fun e => e.2.onCores && e.2.kind ≠ .glade).foldl (fun s e => s.charge e.1 false) s
  let seq := s.rd R.ERR_STATUS.NEXT_SEQ - 1
  let s := qs.foldl (fun s q => (s.voidWriting q).rerunQueue q five seq) s
  let s := s.newIncarnation
  let t : State := { State.reset with
    pending := s.pending, elapsed := s.elapsed, freeCtr := s.freeCtr, count := s.count
    regs := s.regs.filter fun e => keepsWarm e.1
    host := { sent := s.host.sent, writes := s.host.writes, answers := s.host.answers }
    err := { ring := s.err.ring, last := s.err.last, sites := s.err.sites.mapVal fun _ r => siteAfterWarm r
             rowMask := s.err.rowMask }
    mem := { hbm := s.mem.hbm, hbmBad := s.mem.hbmBad, extents := s.mem.extents,
             lc := s.mem.lc.mapVal fun _ c => { lost := c.lost } }
    wor := { imports := s.wor.imports, exports := s.wor.exports, replay := s.wor.replay
             dests := s.wor.dests.mapVal fun _ d => { route := d.route } }
    ten := { resets := s.ten.resets }
    que := { queues := s.que.queues, mapGen := s.que.mapGen, dedup := s.que.dedup, noMirror := s.que.noMirror, sweep := s.que.sweep,
             brought := s.que.brought, epochRead := s.que.epochRead }
    tim := { lostAt := s.tim.lostAt, gapAt := s.tim.gapAt, ppsAt := s.tim.ppsAt }
    mgt := { flash := s.mgt.flash, answers := s.mgt.answers }
    boot := { phase := ph, warm := true, start := s.elapsed, electFails := s.boot.electFails, level5 := five
              lostStacks := s.boot.lostStacks, trained := s.boot.trained }
    jtag := s.jtag }
  let t := t.boot.trained.foldl (fun (t : State) k => t.wr R.HBM_STATE.SELF_REFRESH 1 k) t
  let t := qs.foldl State.resendEffects t
  (t.wr R.GLB_PWR_RESET.CAUSE (if five then 2 else 1)).tick R.GLB_PWR_RESET.WARM_COUNT

/-- WARM_RESET (R567, R568): WARM_RST_N falls (`pin`), and the package stays in reset until it rises; or a level-5 containment
asks for it, and boot restarts at once. One that falls while the package is held is ignored (R572). -/
def execWarmReset (pin : Bool) (lost : BitVec 8) (s : State) : Out :=
  if s.boot.phase ≠ .stages then .next s
  else if pin then .next (s.warmReset false lost.toNat .warm)
  else if s.err.packageStop then .next (s.warmReset true lost.toNat .stages)
  else .next s

/-- WARM_RESET_RELEASE (R567): WARM_RST_N rises, and boot restarts from stage 0x0. -/
def execWarmResetRelease (s : State) : Out :=
  if s.boot.phase ≠ .warm then .next s else .next { s with boot := { s.boot with phase := .stages, start := s.elapsed } }

end Sys2Proof.Machine
end

