-- ==== Sys2Proof/Machine/Boot.lean ====
section
/-!
DEFINITION. Boot (17.1 to 17.3, 17.5, 17.10, 18.6): the stages, the elections of the chief, recovery of the flash, and what
BRING_UP leaves.
-/
namespace Sys2Proof.Machine

/-! ### Stages (Table 17.1) -/

/-- The stage of a die. -/
def State.dieStage (s : State) (d : Nat) : Nat := s.rd R.DIE_STATE.STAGE d

/-- A die enters a stage; the package shows the stage of the die that reads the flash until it has a chief. -/
def State.setDieStage (s : State) (d st : Nat) : State :=
  let s := s.wr R.DIE_STATE.STAGE st d
  if d = s.boot.reader ∧ st ≤ 3 then s.wr R.MGT_STATUS.STAGE st else s

/-- Dies the manifest lists as good, as far as it has been read. -/
def State.goodDies (s : State) : List Nat := (List.range 8).filter fun d => !s.boot.off.contains d

/-- Good dies that have not stopped at a failed stage and that nothing has contained (R44). -/
def State.liveDies (s : State) : List Nat := s.goodDies.filter fun d => !s.boot.failed.contains d && !s.isOut (.die d)

/-- A die stops at its stage (R526). -/
def State.stopDie (s : State) (d : Nat) : State := { s with boot := { s.boot with failed := d :: s.boot.failed } }

/-- The package enters RECOVERY with a cause (R526, R530, R549): the flash reader's die alone goes on, with the host link. -/
def State.enterRecovery (s : State) (cause : Nat) : State :=
  let s := (s.wr R.MGT_STATUS.STAGE 8).wr R.MGT_STATUS.RCV_CAUSE cause
  let s := s.wr R.DIE_STATE.STAGE 8 s.boot.reader
  { s with mgt := { s.mgt with push := none } }

/-- Port A starts training at the start of stage 0x2, or port B where die 7 reads the flash (R503, R570). Beside an active port A
port B is held (R499). -/
def State.startPort (s : State) : State :=
  let t : State := { s with host := { s.host with down := some s.elapsed } }
  if s.boot.reader = 0 then ((t.wr R.HST_PORT.ACTIVE 0).wr R.HST_PORT.STATE_A 2).wr R.HST_PORT.STATE_B (if s.boot.failed.contains 7 then 5 else 1)
  else ((t.wr R.HST_PORT.ACTIVE 1).wr R.HST_PORT.STATE_B 2).wr R.HST_PORT.STATE_A (if s.boot.failed.contains 0 then 5 else 0)

/-- Whether ports that have not failed training join a die to another. -/
def State.joined (s : State) (a b : Nat) : Bool :=
  let next (seen : List Nat) : List Nat := (List.range 8).filter fun e => seen.contains e ||
    seen.any fun d => (ziuPortTo d e).any fun p => s.rd R.ZIU_PORT_STATE.STATE d p ≠ 2
  (((List.range 7).foldl (fun seen _ => next seen) [a])).contains b

/-- SELF_TEST_END (R525, R526, R566): stage 0x0 of a die ends, with the Ziura ports of the die that trained; it needs 1 ms of
REF_CLK without a gap, and a path of ports to the flash reader's die. -/
def execSelfTestEnd (d : Die) (ok : Bool) (ports : BitVec 3) (s : State) : Out :=
  if s.held ∨ s.dieStage d ≠ 0 ∨ s.boot.failed.contains d.val ∨ s.tim.lostAt.isSome ∨ s.elapsed < s.tim.gapAt + millis 1 then .next s
  else
    let s := (List.range 3).foldl (fun s p =>
      if (ziuPartner d p).isSome ∧ s.rd R.ZIU_PORT_STATE.STATE d p ≠ 2 then s.setLink d p (if ports.toNat.testBit p then 1 else 2) else s) s
    if ok ∧ s.joined d s.boot.reader then .next (s.setDieStage d 1) else .next (s.stopDie d)

/-- PUF_END (R525, R526): the key of a die is reconstructed. -/
def execPufEnd (d : Die) (ok : Bool) (s : State) : Out :=
  if s.held ∨ s.dieStage d ≠ 1 ∨ s.boot.failed.contains d.val ∨ s.boot.off.contains d.val then .next s
  else if !ok then .next (s.stopDie d)
  else
    let s : State := { (s.set1 R.DIE_STATE.PUF_OK d) with boot := { s.boot with puf := d.val :: s.boot.puf } }
    let s := s.setDieStage d 2
    if d.val = s.boot.reader then .next s.startPort
    else .next (if s.mgt.manifest.isSome then s.setDieStage d 3 else s)

/-- FLASH_READER_TAKEOVER (R525): die 0 has failed its self-test, or has not completed its first flash read within 20 ms. -/
def execFlashReaderTakeover (s : State) : Out :=
  let late := s.mgt.manifest.isNone && decide (s.boot.start + millis 20 ≤ s.elapsed)
  if s.held ∨ s.boot.reader ≠ 0 ∨ 2 < s.stage ∨ s.boot.failed.contains 7 ∨ !(s.boot.failed.contains 0 || late) then .next s
  else
    let t : State := { s with boot := { s.boot with reader := 7 } }
    let t := t.wr R.MGT_STATUS.STAGE (t.dieStage 7)
    .next (if t.dieStage 7 = 2 then t.startPort else t)

/-- MANIFEST_END (R525, R526, R528): the manifest has been read and verified, and goes to every good die; or the package enters
RECOVERY. -/
def execManifestEnd (s : State) : Out :=
  if s.held ∨ s.stage ≠ 2 ∨ s.dieStage s.boot.reader ≠ 2 then .next s
  else if !s.mgt.flash.readable then .next (s.enterRecovery 3)
  else match s.mgt.flash.manifest with
    | none => .next (s.enterRecovery 1)
    | some m =>
      if !m.genuine then .next (s.enterRecovery 1)
      else
        let s : State := { s with mgt := { s.mgt with manifest := some m }, boot := { s.boot with off := m.badDies } }
        let s := s.boot.off.foldl (fun s d => if s.dieStage d = 2 then s.wr R.DIE_STATE.STAGE 1 d else s) s
        let s := s.liveDies.foldl (fun s d => if s.dieStage d = 2 then s.setDieStage d 3 else s) s
        .next (s.wr R.MGT_STATUS.STAGE 3)

/-- FW_FLOOR as the flash holds it (R528, R529). -/
def State.flashFloor (s : State) : Nat := ((s.mgt.flash.newest).map fun x => x.1.fwFloor).getD 0

/-- FIRMWARE_END (R526, R527): a die has received its copy of the Mewait image (`ok`) and verified it. When no good die is left
in an earlier stage the election begins; when none has passed, the package enters RECOVERY. -/
def execFirmwareEnd (d : Die) (ok : Bool) (s : State) : Out :=
  if s.held ∨ s.stage ≠ 3 ∨ s.dieStage d ≠ 3 ∨ s.boot.failed.contains d.val ∨ s.boot.off.contains d.val then .next s
  else
    let s := match s.mgt.flash.image with
      | some f =>
        if ok ∧ f.genuine ∧ s.flashFloor ≤ f.secVer then
          let s := ((s.wr R.DIE_FW.VERSION f.version d).wr R.DIE_FW.SEC_VER f.secVer d).set1 R.DIE_STATE.CANDIDATE d
          let s := s.wr R.DIE_STATE.STAGE 4 d
          { s with mgt := { s.mgt with running := some f } }
        else s.stopDie d
      | none => s.stopDie d
    if s.liveDies.any fun e => decide (s.dieStage e < 4) then .next s
    else if s.liveDies.isEmpty then
      if s.mgt.flash.readable then .next (s.enterRecovery 2) else .next (s.enterRecovery 3)
    else
      let t : State := { s with boot := { s.boot with electStart := s.elapsed, roundDue := s.elapsed, heard := 0, rounds := 0 } }
      .next (t.wr R.MGT_STATUS.STAGE 4)

/-! ### The chief controller (17.3) -/

/-- The candidates of an election: dies that have passed stage 0x3; after the loss of a chief, the other dies in service
(R530, R531). -/
def State.candidateSet (s : State) : List Nat :=
  match s.boot.lostChief with
  | some _ => (List.range 8).filter fun d => (s.dieUp d || (s.stage ≠ 7 && s.liveDies.contains d)) && d ≠ s.rd R.GLB_DIE_STATE.CHIEF
  | none => s.liveDies.filter fun d => s.flag R.DIE_STATE.CANDIDATE d && s.dieStage d = 4

/-- Whether an election runs. -/
def State.electing (s : State) : Bool := !s.held && (s.stage = 4 || s.boot.lostChief.isSome)

/-- The pins of the flash and I3C sets that a die drives (R546). -/
def State.drivePins (s : State) (d : Nat) : State :=
  let s := [0, 7].foldl (fun s e => (s.wr R.DIE_PINS.FLASH 0 e).wr R.DIE_PINS.I3C 0 e) s
  (s.set1 R.DIE_PINS.FLASH d).set1 R.DIE_PINS.I3C d

/-- A die becomes chief of an election over a set of candidates. After the loss of a chief a mailbox command that ran ends Failed, and
a write of the persistent state that it had begun is made again with the state as it was (R531, R532, Table 17.7). The new chief
contains the lost die; where a chain had escalated to it, its record stands already (R473). -/
def State.elect (s : State) (c set_ : Nat) : State :=
  let s := (s.tick R.MGT_ELECT.ROUND).wr R.MGT_ELECT.CANDIDATES set_
  let s := (List.range 8).foldl (fun s d => s.wr R.DIE_STATE.CHIEF (if d = c then 1 else 0) d) s
  let old := s.rd R.GLB_DIE_STATE.CHIEF
  let s := (s.wr R.GLB_DIE_STATE.CHIEF c).wr R.TIM_STATUS.MASTER c
  let s := if c = old then s else s.tick R.GLB_CAP_GEN.GEN
  match s.boot.lostChief with
  | none =>
    let s := s.wr R.MGT_ELECT.LOST_CHIEF 0
    let s : State := { s with boot := { s.boot with electFails := 0 } }
    let s := (List.range 8).foldl (fun s d => if set_.testBit d then s.wr R.DIE_STATE.STAGE 5 d else s) s
    s.wr R.MGT_STATUS.STAGE 5
  | some sub =>
    let s := s.wr R.MGT_ELECT.LOST_CHIEF 1
    let s : State := { s with boot := { s.boot with lostChief := none, electFails := 0 } }
    let torn := match s.mgt.job with
      | some (.persist ..) => true
      | _ => false
    let s := if s.flag R.MGT_MBX_STATUS.BUSY then s.endMbx 3 else s
    let s := if torn then s.writePersist else s
    let s := if old = 0 then s.drivePins 7 else s
    let s := s.wr R.ERR_STATUS.RING_HOME c
    let s := match s.mirrorFor c with
      | some m => (s.wr R.ERR_STATUS.RING_MIRROR m).wr R.ERR_STATUS.MIRROR_OK 0
      | none => s.wr R.ERR_STATUS.MIRROR_OK 0
    if sub = 0 then ((s.contain (.die old) none).dropQuads).settleLoad else s.dieFault old sub c

/-- ELECTION_ROUND (R530, R531): the candidates send their numbers, every 10 µs; `heard` tells whom they hear. A set that stands for three
rounds in a row has its lowest die as chief. -/
def execElectionRound (heard : BitVec 8) (s : State) : Out :=
  if !s.electing ∨ s.elapsed < s.boot.roundDue then .next s
  else
    let set_ := s.candidateSet.foldl (fun n d => if heard.toNat.testBit d then n + 2 ^ d else n) 0
    if set_ = 0 then .next s
    else
      let n := if set_ = s.boot.heard then s.boot.rounds + 1 else 1
      let s : State := { s with boot := { s.boot with heard := set_, rounds := n, roundDue := s.boot.roundDue + micros 10 } }
      if n < 3 then .next s
      else match (List.range 8).find? fun d => set_.testBit d with
        | some c => .next (s.elect c set_)
        | none => .next s

/-- ELECTION_TIMEOUT (R530, R531): no confirmation within 1 ms of the start of stage 0x4, or within 20 µs after the loss of a
chief: a containment at level 5. After three elections that failed in a row the package enters RECOVERY. -/
def execElectionTimeout (s : State) : Out :=
  let limit := if s.boot.lostChief.isSome then micros 20 else millis 1
  if !s.electing ∨ s.elapsed ≤ s.boot.electStart + limit then .next s
  else
    let n := s.boot.electFails + 1
    let s : State := { s with boot := { s.boot with electFails := n, lostChief := none } }
    if 3 ≤ n then .next ({ s with boot := { s.boot with electFails := 0 } : State }.enterRecovery 4)
    else
      let i : ErrInfo := { cls := .package, sub := 3, die := s.boot.reader, recUnit := some .package }
      .next (s.detect i).1

/-! ### Identity (17.5) -/

/-- The dies whose copy of the device secret unwraps: the helper data and the copy are there, and the key was reconstructed. -/
def State.secretDies (s : State) : List Nat :=
  match s.mgt.manifest with
  | none => []
  | some m =>
    let c := s.rd R.GLB_DIE_STATE.CHIEF
    (c :: s.liveDies.filter fun d => d ≠ c).filter fun d => m.wrapped.contains d && m.helper.contains d && s.boot.puf.contains d

/-- The identity that the chief derives from the device secret (R537). -/
def identityOf (secret : List Byte) : Identity :=
  let ascii (l : List Nat) : List Byte := l.map (BitVec.ofNat 8)
  let head := [0x69, 0x64, 0x65, 0x6E, 0x74, 0x69, 0x74, 0x79, 0x2D]
  let slh := Sha.hkdf384 secret (ascii (head ++ [0x73, 0x6C, 0x68]))
  let rsa := Sha.hkdf384 secret (ascii (head ++ [0x72, 0x73, 0x61]))
  { slhSeed := slh, rsaSeed := rsa, slhPublic := Config.slhPublic slh, rsaPublic := Config.rsaPublic rsa }

/-- The Device Serial Number (R538): bytes 0 to 7 of SHA-384 of the SLH-DSA public key, little-endian. -/
def serialOf (i : Identity) : Nat := leNat ((Sha.sha384 i.slhPublic).take 8)

/-- IDENTITY_END (R335, R525, R529, R536 to R538): the secret is unwrapped, the persistent state read, and after power-on the
epoch advanced and written. While debug is open the identity stays absent (R545). -/
def execIdentityEnd (s : State) : Out :=
  if s.held ∨ s.stage ≠ 5 then .next s
  else
    let fresh := s.mgt.flash.newest.isNone
    let p := ((s.mgt.flash.newest).map fun x => x.1).getD {}
    let s := s.wr R.SEC_STATE.STATE_FRESH (if fresh then 1 else 0)
    let retired := p.retired.foldl (fun (t : Tab Nat SiteRec) k => t.put k { t.findD k {} with state := .retired }) s.err.sites
    let slot0 : Tab Nat KeySlot := match s.mgt.running with
      | some f => [(0, { key := f.slot0 })]
      | none => []
    let s : State := { s with mgt := { s.mgt with slots := slot0, log := List.replicate 48 0 }, err := { s.err with sites := retired } }
    let s := s.takePersist p
    let s := if s.que.epochRead then s
      else
        let s := { s with que := { s.que with epochRead := true } }
        let s := s.wr R.QUE_EPOCH.EPOCH (p.epoch + 1)
        let s := s.wr R.WOR_STATUS.INCARN ((p.epoch + 1) % 256 * 256)
        s.writePersist
    let ready := !s.secretDies.isEmpty && !s.flag R.SEC_STATE.DEBUG
    let s := s.wr R.SEC_STATE.IDENTITY_READY (if ready then 1 else 0)
    let id := if ready then s.mgt.manifest.map fun m => identityOf m.secret else none
    let s : State := { s with mgt := { s.mgt with identity := id } }
    let s := s.wr R.SEC_DSN.VALUE (id.elim 0 serialOf)
    let s := s.wr R.MGT_STATUS.FW_VERSION (((s.mgt.running).map FwImage.version).getD 0)
    let s := s.liveDies.foldl (fun s d => if s.dieStage d = 5 then s.wr R.DIE_STATE.STAGE 6 d else s) s
    .next ((s.drivePins s.boot.reader).wr R.MGT_STATUS.STAGE 6)

/-! ### BRING_UP (R482, R571) -/

/-- A mask of columns of a row that satisfy a condition. -/
def colMask (p : Nat → Bool) : Nat := (List.range 9).foldl (fun m c => if p c then m + 2 ^ c else m) 0

/-- Ones among the nine columns of a mask. -/
def maskCount (m : Nat) : Nat := ((List.range 9).filter fun c => m.testBit c).length

/-- The active sites of a row after power-on (R571): one site out of service is the excluded one, else column 8 is. -/
def powerOnMask (good : Nat → Bool) : Nat :=
  let m := colMask good
  if maskCount m = 9 then 0x0FF else m

/-- The active sites of a row after warm reset (R482): those that were active and pass, and others that pass, lowest first,
until the row has eight. -/
def warmMask (old : Nat) (good : Nat → Bool) : Nat :=
  let keep := colMask fun c => old.testBit c && good c
  (List.range 9).foldl (fun m c => if maskCount m < 8 && good c && !m.testBit c then m + 2 ^ c else m) keep

/-- The start-up test of a site that the manifest lists as good and that is not retired, on a die that runs (R571): what it
leaves of the site's record, and whether the site enters probation. -/
def State.siteStart (s : State) (b : BringUp) (bad : List Nat) (live : List Nat) (k : Nat) : SiteRec × Bool :=
  let r := s.siteRec k
  if r.state = .retired then (r, false)
  else if bad.contains k then ({ r with state := .disabled }, false)
  else if !live.contains (Unit.dieOf k) ∨ s.isOut (.row (Unit.rowIx k)) then ({ r with state := .contained }, false)
  else if b.badSites.contains k then ({ r with state := .failed }, false)
  else match r.state with
    | .failed => ({ r with state := .probation, probStart := s.elapsed, samples := 0 }, true)
    | .probation => (r, false)
    | _ => ({ r with state := .good }, false)

/-- The units a rail feeds, with what its failure records (Table 18.4). -/
def railUnits (d r : Nat) : List ErrInfo :=
  let stack (k : Nat) : ErrInfo := { cls := .stack, sub := 1, die := d, stack := k, unit := 7, recUnit := some (.stack k) }
  if r ≤ 3 then [{ cls := .quadrant, sub := 1, die := d, recUnit := some (.quadrant (4 * d + r)) }]
  else if r ≤ 5 then [{ cls := .cluster, sub := 1, die := d, recUnit := some (.cluster (2 * d + (r - 4))) }]
  else if r = 7 ∨ r = 8 then [stack (2 * d + (r - 7))]
  else if r = 9 ∨ r = 10 then [stack (2 * d), stack (2 * d + 1)]
  else if r = 11 ∨ r = 12 then [{ cls := .quad, die := d, quad := 2 * d + (r - 11), unit := 7, recUnit := some (.quad (2 * d + (r - 11))) }]
  else []

/-- A rail that is out of range takes its units out of service (R557). -/
def State.railFault (s : State) (d r : Nat) : State :=
  if r = 6 ∨ r = 14 then s.dieFault d 2 d
  else if r = 13 then
    (List.range 3).foldl (fun s p =>
      if (ziuPartner d p).isNone then s
      else
        let t : State := { s with ziu := { s.ziu with railOut := (d, p) :: s.ziu.railOut.filter fun x => x ≠ (d, p) } }
        if t.rd R.ZIU_PORT_STATE.STATE d p = 1 ∨ t.rd R.ZIU_PORT_STATE.STATE d p = 3 then t.linkDown d p else t) s
  else (railUnits d r).foldl (fun s i => match i.recUnit with
    | some u => if s.isOut u then s else s.reports { i with detail := if i.cls = .stack then s.dirtyLines i.stack else 0 }
    | none => s) s

/-- Whether the contents lost in self-refresh held both copies of some queue's journal, or of the error ring (R569). -/
def State.copiesLost (s : State) : Bool :=
  let out (k : Nat) : Bool := s.boot.lostStacks.contains k
  (s.que.queues.any fun e => out (2 * e.2.home + e.1 % 2) && match s.mirrorOf e.2.home with
      | some m => out (2 * m + e.1 % 2) || s.flag R.QUE_JNL.REBUILD 0 e.2.home
      | none => true)
    || (out (2 * s.rd R.ERR_STATUS.RING_HOME) && out (2 * s.rd R.ERR_STATUS.RING_MIRROR))

/-- The units in service, the sites and their rows, as the start-up test found them. DESIGN CHOICE (log entry 129): GEN of a cluster's routes
counts once, however many of its TNS_ROUTE_r change (R85); a row keeps its mapping over a warm reset, so only a mapping that changes counts
(log entry 95). -/
def State.bringUnits (s : State) (b : BringUp) (m : Manifest) : State :=
  let live := s.liveDies
  let outs : List RecUnit := ((List.range 8).filter fun d => !live.contains d).map RecUnit.die
    ++ m.badStacks.map RecUnit.stack ++ m.badQuads.map RecUnit.quad ++ m.badFec.map RecUnit.fec
  let s : State := { s with err := { s.err with out := (s.err.out ++ outs).eraseDups } }
  let one (x : Bool) : Nat := if x then 1 else 0
  let s := (List.range 8).foldl (fun s d => s.wr (R.GLB_DIE_STATE.DIE d) (if live.contains d then 1 else if s.goodDies.contains d then 2 else 0)) s
  let s := (List.range 8).foldl (fun s d => s.wr R.HBM_LC_STATE.IN_SERVICE (one (live.contains d)) d) s
  let s := (List.range 16).foldl (fun s k =>
    let s := s.wr R.CLU_STATE.IN_SERVICE (one (!s.isOut (.cluster k))) k
    let s := s.wr R.FEC_CTRL.IN_SERVICE (one (!s.isOut (.fec k))) k
    (s.wr R.HBM_STATE.IN_SERVICE (one (!s.isOut (.stack k))) k).wr R.HBM_STATE.SELF_REFRESH 0 k) s
  let degraded := s.flag R.GLB_DIE_STATE.DEGRADED || s.goodDies.any fun d => !live.contains d
  let s := s.wr R.GLB_DIE_STATE.DEGRADED (one degraded)
  let starts := (List.range 1152).map fun k => (k, s.siteStart b m.badSites live k)
  let sites := starts.filterMap fun x => if x.2.1 = ({} : SiteRec) then none else some (x.1, x.2.1)
  let good (k : Nat) : Bool := match (Tab.findD sites k {}).state with | .good | .probation => true | _ => false
  let masks := (List.range 128).filterMap fun r =>
    let v := if s.que.brought then warmMask (s.rowMask r) (fun c => good (9 * r + c)) else powerOnMask fun c => good (9 * r + c)
    if v = 0x0FF then none else some (r, v)
  let moved (c : Nat) : Bool := (List.range 8).any fun r => s.rowMask (8 * c + r) ≠ Tab.findD masks (8 * c + r) 0x0FF
  let s := ((List.range 16).filter moved).foldl (fun s c => s.tick R.TNS_ROUTE_GEN.GEN c) s
  let s := (starts.filter fun x => (s.siteRec x.1).state ≠ x.2.1.state).foldl (fun s _ => s.tick R.ERR_GEN.GEN) s
  let s : State := { s with err := { s.err with sites := sites, rowMask := masks } }
  (starts.filter fun x => x.2.2).foldl (fun s x =>
    (s.detect { s.atSite .suspect 0 x.1 0 none with action := some 0x0B, recUnit := none }).1) s

/-- Homes, mirrors and the error ring when the package becomes ready (R307, R308, R331, R334, R469). -/
def State.bringJournals (s : State) : State :=
  let c := s.rd R.GLB_DIE_STATE.CHIEF
  let s := s.wr R.ERR_STATUS.RING_HOME c
  let s := match s.mirrorFor c with
    | some m => (s.wr R.ERR_STATUS.RING_MIRROR m).wr R.ERR_STATUS.MIRROR_OK 1
    | none => s.wr R.ERR_STATUS.MIRROR_OK 0
  if s.que.brought then
    let s := s.moveJournals fun k => !s.stackIn k
    (List.range 8).foldl (fun s h =>
      if s.dieUp h ∧ (s.mirrorOf h).isNone then
        let m := s.mirrorFor h
        (s.setMirror h m).wr R.QUE_JNL.REBUILD (if m.isSome then 1 else 0) 0 h
      else s) s
  else
    let s := s.wr R.ERR_STATUS.NEXT_SEQ (max 1 (s.rd R.ERR_STATUS.NEXT_SEQ))
    (List.range 8).foldl (fun s h => s.setMirror h (if s.dieUp h then s.mirrorFor h else none))
      { s with que := { s.que with brought := true } }

/-- BRING_UP_END (R571): the units are brought up, GLB_DIE_STATE and GLB_CAPACITY are filled, and the package is ready. Where the
contents of HBM that were lost held both copies of a journal or of the error ring, the device restarts as after loss of package
power (R569). -/
def execBringUpEnd (b : BringUp) (s : State) : Out :=
  match s.mgt.manifest with
  | none => .next s
  | some m =>
    if s.held ∨ s.stage ≠ 6 then .next s
    else if s.copiesLost then .next (s.powerOff .stages)
    else
      let before := s
      let s := s.bringUnits b m
      let s : State := { s with eng := { s.eng with ftab := ((s.mgt.running).map FwImage.ftab).getD [], ftabSet := ((s.mgt.running).map FwImage.ftabSet).getD 0 }
                                boot := { s.boot with trained := (List.range 16).filter fun k => s.stackIn k && !b.badStacks.contains k } }
      let s := s.bringJournals
      let s := s.refreshCapacity before
      let fails := b.badStacks.foldl (fun s k => s.wr R.HBM_ERR.TRAIN_FAIL 1 k) s
      let bad := (b.badStacks ++ s.boot.lostStacks).eraseDups
      let s := bad.foldl (fun s k =>
        if s.isOut (.stack k) then s
        else s.reports { cls := .stack, sub := 1, die := k / 2, stack := k, unit := 7, recUnit := some (.stack k) }) fails
      let s := (List.range 16).foldl (fun s q =>
        let mode := s.rd R.RAD_Q_MODE.MODE q
        if s.isOut (.quad q) ∨ (mode ≠ 1 ∧ mode ≠ 2) then s
        else if mode = 1 then s.wr R.RAD_Q_LINK.STATE 3 q
        else (s.wr R.RAD_Q_LINK.STATE 3 q).wr R.WOR_P_STATE.STATE (if s.flag R.WOR_P_CTRL.EN q then 1 else 5) q) s
      let s := (List.range 8).foldl (fun (s : State) (d : Nat) => (List.range 3).foldl (fun (s : State) (p : Nat) =>
        let fed : Nat × Nat → Bool := fun e => s.dieUp e.1 && decide (s.rd R.DIE_RAIL.STATE e.1 13 ≠ 2) && !s.ziu.railOut.contains e && !s.ziu.owed.contains e
        if s.rd R.ZIU_PORT_STATE.STATE d p = 2 ∧ fed (d, p) = true ∧ (ziuFarEnd d p).any fed = true then s.setLink d p 3 else s) s) s
      let t : State := { s with ziu := { s.ziu with due := true } }
      let t := t.ten.resets.foldl (fun (t : State) e => t.finishReset e.1 false) t
      let t := t.liveDies.foldl (fun t d => t.wr R.DIE_STATE.STAGE 7 d) t
      let t := t.wr R.MGT_STATUS.STAGE 7
      .next ((List.range 8).foldl (fun s d => (List.range 16).foldl (fun s r =>
        if s.rd R.DIE_RAIL.STATE d r = 2 ∧ s.liveDies.contains d then s.railFault d r else s) s) t)

/-! ### Recovery of the flash (R549) -/

/-- The bytes a target region takes. -/
def regionEnd (manifest : Bool) : Nat := if manifest then 65536 else 33550336

/-- Whether the device takes recovery commands. -/
def State.inRecovery (s : State) : Bool := s.answers && decide (s.stage = 8)

/-- BEGIN (R549). -/
def execBegin (manifest : Bool) (s : State) : Out :=
  if !s.inRecovery ∨ s.flag R.MGT_RCV_STATUS.BUSY then .next s
  else
    let s := (s.wr R.MGT_RCV_STATUS.OFFSET 0).wr R.MGT_RCV_STATUS.RESULT 0
    .next { s with mgt := { s.mgt with push := some { manifest := manifest } } }

/-- APPEND (R549): a chunk of MGT_RCV_DATA goes to the region, which then holds no container that verifies; one that would pass
the end of the region writes nothing. -/
def execAppend (len : BitVec 16) (s : State) : Out :=
  match s.mgt.push with
  | none => .next s
  | some p =>
    let n := len.toNat
    if !s.inRecovery ∨ s.flag R.MGT_RCV_STATUS.BUSY ∨ n = 0 ∨ 32768 < n then .next s
    else if regionEnd p.manifest < p.done + n then .next { s with mgt := { s.mgt with push := some { p with passed := true } } }
    else
      let f : Flash := if p.manifest then { s.mgt.flash with manifest := none } else { s.mgt.flash with image := none }
      let t : State := { s with mgt := { s.mgt with flash := f, job := some (.chunk p.manifest n) } }
      .next (t.set1 R.MGT_RCV_STATUS.BUSY)

/-- END (R549): the ROM verifies the region, whose contents are `c` and begin with the bytes that the chunks brought, and boot resumes at stage 0x2; or RESULT reads Failed and
the device stays in RECOVERY. -/
def execEnd (c : Pushed) (s : State) : Out :=
  match s.mgt.push with
  | none => .next s
  | some p =>
    if !s.inRecovery ∨ s.flag R.MGT_RCV_STATUS.BUSY then .next s
    else
      let ok := !p.passed && decide (0 < p.done) && if p.manifest then c.manifest.any fun m => m.genuine && m.bytes.isPrefixOf p.bytes
        else c.image.any fun f => f.genuine && f.bytes.isPrefixOf p.bytes && decide (s.flashFloor ≤ f.secVer)
      if !ok then .next ({ s with mgt := { s.mgt with push := none } : State }.wr R.MGT_RCV_STATUS.RESULT 3)
      else
        let f : Flash := if p.manifest then { s.mgt.flash with manifest := c.manifest } else { s.mgt.flash with image := c.image }
        let s : State := { s with mgt := { s.mgt with flash := f, push := none, manifest := none }
                                  boot := { s.boot with failed := s.boot.failed.filter fun d => s.dieStage d ≠ 3 } }
        let s := (s.wr R.MGT_RCV_STATUS.RESULT 0).wr R.MGT_STATUS.RCV_CAUSE 0
        let s := (List.range 8).foldl (fun s d => if 2 ≤ s.dieStage d ∧ !s.boot.failed.contains d then (s.wr R.DIE_STATE.STAGE 2 d).wr R.DIE_STATE.CANDIDATE 0 d else s) s
        .next (s.wr R.MGT_STATUS.STAGE 2)

end Sys2Proof.Machine
end

