-- ==== Sys2Proof/Machine/ConfigSpace.lean ====
section
/-!
DEFINITION. What a read of configuration space shows (16.3): the identity fields of Table 16.2, the capabilities of Table 16.3, the
values of R507, and what the host has set. The layouts inside the header and the capabilities are PCI Express's and CXL's (log
entry 80).
-/
namespace Sys2Proof

/-- A capability of the first 256 bytes: its ID and the offset of the next (Table 16.3). -/
def capHeader (id next : Nat) : Nat := id + next * 2 ^ 8

/-- An extended capability: its ID, version 1, and the offset of the next (Table 16.3). -/
def extHeader (id next : Nat) : Nat := id + 2 ^ 16 + next * 2 ^ 20

/-- The extended capabilities of the PF, by offset and ID (Table 16.3). -/
def pfExtended : List (Nat × Nat) :=
  [(0x100, 0x0001), (0x148, 0x0003), (0x158, 0x000E), (0x160, 0x0010), (0x1A0, 0x000F), (0x1B0, 0x0019), (0x1E0, 0x0025),
   (0x200, 0x0026), (0x240, 0x002A), (0x280, 0x0031), (0x300, 0x002E), (0x340, 0x0030), (0x400, 0x0023), (0x440, 0x0023), (0x480, 0x0023)]

/-- The same of a VF: ARI and ATS, reached from an empty header at 0x100 (R506). -/
def vfExtended : List (Nat × Nat) := [(0x100, 0x0000), (0x158, 0x000E), (0x1A0, 0x000F)]

/-- The header of the extended capability at an offset, if one lies there. -/
def extendedAt (l : List (Nat × Nat)) (off : Nat) : Option Nat :=
  (l.findIdx? fun e => e.1 = off).map fun k =>
    let next := ((l[k + 1]?).map fun e => e.1).getD 0
    let id := ((l[k]?).map fun e => e.2).getD 0
    if id = 0 then next * 2 ^ 20 else extHeader id next

/-- The DVSEC of an offset (Table 16.3): its DVSEC ID and its length in bytes. -/
def dvsecAt (off : Nat) : Option (Nat × Nat) :=
  match off with
  | 0x400 => some (0x0000, 0x3C)
  | 0x440 => some (0x0007, 0x14)
  | 0x480 => some (0x0008, 0x14)
  | _ => none

namespace Machine

/-- TotalVFs (R507). -/
def State.totalVfs (s : State) : Nat := if s.rd R.MGT_STATUS.STAGE = 8 then 0 else 1023

/-- What a VF has of the words that every function has: its identity (Table 16.2) and its capabilities (R506). -/
def State.functionWord (s : State) (fn off : Nat) : Nat :=
  let m := s.mgt.manifest
  let ext := if fn = 0 then pfExtended else vfExtended
  if off = 0x00 then (if fn = 0 then 0x5A811F9C else 0xFFFFFFFF)
  else if off = 0x04 then 2 ^ 20
  else if off = 0x08 then 0x120000A1
  else if off = 0x2C then (m.elim 0 fun v => v.subVendor % 2 ^ 16 + v.subId % 2 ^ 16 * 2 ^ 16)
  else if off = 0x34 then (if fn = 0 then 0x40 else 0x50)
  else if off = 0x40 then (if fn = 0 then capHeader 0x01 0x50 else 0)
  else if off = 0x50 then capHeader 0x11 0x60 + (if fn = 0 then 7 else 3) * 2 ^ 16
  else if off = 0x54 then (if fn = 0 then 0x302000 else 0x180000 + 2)
  else if off = 0x58 then (if fn = 0 then 0x303000 else 0x181000 + 2)
  else if off = 0x60 then capHeader 0x10 0 + 2 * 2 ^ 16
  else if off = 0x64 then 0b010 + 2 ^ 28
  else if 0x100 ≤ off then (extendedAt ext off).getD 0
  else 0

/-- A 32-bit word of the configuration space of function `fn` (0 the PF, n VF n), at an offset (R505 to R507). -/
def State.configWord (s : State) (fn off : Nat) : Nat :=
  let c := s.host.cfg
  let bit (b : Bool) (k : Nat) : Nat := if b then 2 ^ k else 0
  let serial := s.rd R.SEC_DSN.VALUE
  if fn ≠ 0 then s.functionWord fn off
  else if off = 0x04 then bit c.memEnable 1 + 2 ^ 20
  else if off = 0x10 then c.bar0 % 2 ^ 32 + 0xC
  else if off = 0x14 then c.bar0 / 2 ^ 32
  else if off = 0x14C then serial % 2 ^ 32
  else if off = 0x150 then serial / 2 ^ 32
  else if off = 0x168 then bit c.vfEnable 0 + bit c.vfMem 3 + bit c.ari 4
  else if off = 0x16C then (if s.totalVfs = 0 then 0 else 1023 + 1023 * 2 ^ 16)
  else if off = 0x170 then c.numVfs
  else if off = 0x174 then 1 + 2 ^ 16
  else if off = 0x178 then 0x5A82 * 2 ^ 16
  else if off = 0x17C then 0x201
  else if off = 0x18C then c.vfBar % 2 ^ 32 + 0xC
  else if off = 0x190 then c.vfBar / 2 ^ 32
  else match dvsecAt (off - 4), dvsecAt (off - 8) with
    | some (_, len), _ => 0x1E98 + len * 2 ^ 20
    | none, some (id, _) => id + (if off = 0x408 then 2 ^ 16 + 2 ^ 17 else 0)
    | none, none => if off = 0x48C then 0x00310000 + 0x100 else s.functionWord 0 off

/-- A configuration read of 1, 2 or 4 bytes. -/
def State.readConfig (s : State) (fn addr size : Nat) : Nat :=
  s.configWord fn (addr / 4 * 4) / 2 ^ (8 * (addr % 4)) % 2 ^ (8 * size)

end Machine
end Sys2Proof
end

