-- ==== Sys2Proof/Machine/Power.lean ====
section
/-!
DEFINITION. Rails, temperature, throttling and clock loss (18.2 to 18.4, 18.7).
-/
namespace Sys2Proof

/-- The reading of a sensor. -/
def ThermalSample.read_ (t : ThermalSample) : Sensor → Nat
  | .quadrant q => (t.quad[q]).toNat
  | .common d => (t.common[d]).toNat
  | .stack k => (t.stack[k]).toNat

namespace Machine

/-- Whether rail `r` of the monitors of die `d` exists (R573). -/
def hasRail (d r : Nat) : Bool := decide (r < 15) || (r = 15 && (d = 0 || d = 7))

/-- RAIL_OUT_OF_RANGE (R556, R557): a rail has read outside its range in ten consecutive samples. Before the package is ready its
units are recorded when BRING_UP ends (R572); VDD_IO contains nothing. -/
def execRailOutOfRange (d : Die) (r : Fin 16) (mv : BitVec 13) (da : BitVec 16) (s : State) : Out :=
  if s.held ∨ !hasRail d r ∨ s.rd R.DIE_RAIL.STATE d r = 2 then .next s
  else
    let s := ((s.wr R.DIE_RAIL.STATE 2 d r).wr R.DIE_RAIL.MV mv.toNat d r).wr R.DIE_RAIL.DA da.toNat d r
    .next (if s.stage = 7 ∨ r.val = 13 then s.railFault d r else s)

/-- RAIL_IN_RANGE (R557): a rail returns within its range. The Ziura ports of VDD_ZIU may train again, and train where PORT_EN has been
cleared and set at both ends while the rail was out (R38). -/
def execRailInRange (d : Die) (r : Fin 16) (mv : BitVec 13) (da : BitVec 16) (s : State) : Out :=
  if !hasRail d r then .next s
  else
    let s := ((s.wr R.DIE_RAIL.STATE 1 d r).wr R.DIE_RAIL.MV mv.toNat d r).wr R.DIE_RAIL.DA da.toNat d r
    if r.val ≠ 13 then .next s
    else
      let s : State := { s with ziu := { s.ziu with railOut := s.ziu.railOut.filter fun x => x.1 ≠ d.val } }
      .next ((List.range 3).foldl (fun s p => if s.rd R.ZIU_PORT_STATE.STATE d p = 2 ∧ s.mayTrain d p then s.setLink d p 3 else s) s)

/-- HBM_LOST (R569): an HBM rail leaves its range while its stacks are in self-refresh; their contents are lost. -/
def execHbmLost (d : Die) (r : Fin 4) (s : State) : Out :=
  let ks := match r.val with
    | 0 => [2 * d.val]
    | 1 => [2 * d.val + 1]
    | _ => [2 * d.val, 2 * d.val + 1]
  let ks := ks.filter fun k => s.flag R.HBM_STATE.SELF_REFRESH k
  if ks.isEmpty then .next s
  else
    let t : State := { s with
      mem := { s.mem with hbm := ks.foldl (fun m k => Mem.zero m (k * 2 ^ 36) (2 ^ 36)) s.mem.hbm
                          hbmBad := s.mem.hbmBad.filter fun n => !ks.contains (n / 2 ^ 30) }
      boot := { s.boot with lostStacks := (s.boot.lostStacks ++ ks).eraseDups, trained := s.boot.trained.filter fun k => !ks.contains k } }
    .next (t.set1 R.GLB_PWR_RESET.HBM_LOST)

/-! ### Thermal samples (R559 to R563) -/

/-- Every sensor of the package. -/
def sensors : List Sensor :=
  (List.range 32).map (fun q => .quadrant (Fin.ofNat 32 q)) ++ (List.range 8).map (fun d => .common (Fin.ofNat 8 d))
    ++ (List.range 16).map fun k => .stack (Fin.ofNat 16 k)

/-- A step of K by the rule of R559: down at `hot` or more, up at `cool` or less, between 8 and 16. -/
def stepK (k temp hot cool : Nat) : Nat := if hot ≤ temp then max 8 (k - 1) else if temp ≤ cool then min 16 (k + 1) else k

/-- The quadrant of each core that a glade holds. -/
def State.gladeQuads (s : State) : List Nat :=
  (s.regs.filter fun e => e.1.reg = .STR_SITE && e.1.lo = R.STR_SITE.OWNER.lo && s.isGlade e.2).map fun e => e.1.unit / 36

/-- THERMAL_SAMPLE (R559 to R563): every 100 µs the wardens read the sensors and set K; power above the limit lowers K of the
cores that no glade holds at each sample. -/
def execThermalSample (t : ThermalSample) (s : State) : Out :=
  if s.held ∨ s.elapsed < s.pow.due then .next s
  else
    let gq := s.gladeQuads
    let thr := s.rd R.GLB_PWR_CTRL.THROTTLE_C
    let capped := decide (s.rd R.GLB_PWR_CTRL.PWR_LIMIT_W < t.power.toNat)
    let quad (q : Nat) : Nat := t.read_ (.quadrant (Fin.ofNat 32 q))
    let dieC (d : Nat) : Nat := [quad (4 * d), quad (4 * d + 1), quad (4 * d + 2), quad (4 * d + 3)].foldl max (t.read_ (.common (Fin.ofNat 8 d)))
    let s := (List.range 32).foldl (fun s q =>
      let d := q / 4
      let i := q % 4
      let temp := quad q
      let k := s.rd R.DIE_THERM.K d i
      let g := s.rd R.DIE_THERM.GLADE_K d i
      let k' := if capped then max 8 (k - 1) else stepK k temp thr (thr - 3)
      let g' := if 93 ≤ temp then max 8 (g - 1) else if temp ≤ thr - 3 then min 16 (g + 1) else g
      let s := ((s.wr R.DIE_THERM.TEMP temp d i).wr R.DIE_THERM.K k' d i).wr R.DIE_THERM.GLADE_K g' d i
      let s := if thr ≤ temp ∧ k' < k then s.set1 R.GLB_PWR_EVENTS.THROTTLE else s
      if 93 ≤ temp ∧ gq.contains q then s.set1 R.GLB_PWR_EVENTS.GLADE_THROTTLE else s) s
    let s := (List.range 8).foldl (fun s d =>
      let s := (s.wr R.DIE_THERM_DC.TEMP (t.read_ (.common (Fin.ofNat 8 d))) d).wr R.DIE_THERM_DC.DIE_C (dieC d) d
      if s.rd R.GLB_PWR_CTRL.WARN_C ≤ dieC d then s.set1 R.GLB_PWR_EVENTS.WARN else s) s
    let s := (List.range 16).foldl (fun s k =>
      let v := t.read_ (.stack (Fin.ofNat 16 k))
      let s := s.wr R.HBM_STATE.TEMP v k
      if s.rd R.GLB_PWR_CTRL.HBM_THROTTLE_C ≤ v then s.set1 R.GLB_PWR_EVENTS.HBM_HOT else s) s
    let slow := (List.range 32).any fun q => decide (s.rd R.DIE_THERM.K (q / 4) (q % 4) < 16 ∧ (gq.filter fun x => x = q).length < 36)
    let gslow := (List.range 32).any fun q => decide (s.rd R.DIE_THERM.GLADE_K (q / 4) (q % 4) < 16) && gq.contains q
    let one (x : Bool) : Nat := if x then 1 else 0
    let s := (s.wr R.GLB_PWR_STATUS.POWER_W t.power.toNat).wr R.GLB_PWR_STATUS.CAPPED (one capped)
    let s := (s.wr R.GLB_PWR_STATUS.DIE_MAX_C ((List.range 8).foldl (fun m d => max m (dieC d)) 0)).wr R.GLB_PWR_STATUS.HBM_MAX_C
      ((List.range 16).foldl (fun m k => max m (t.read_ (.stack (Fin.ofNat 16 k)))) 0)
    let s := (s.wr R.GLB_PWR_STATUS.THROTTLED (one (slow || gslow))).wr R.GLB_PWR_STATUS.GLADE_THROTTLED (one gslow)
    let s := if capped then s.set1 R.GLB_PWR_EVENTS.POWER_CAP else s
    let s := if slow ∨ gslow then s.bump R.GLB_PWR_THR_US.THR_US 0 0 100 else s
    let s := if gslow then s.bump R.GLB_PWR_THR_US.GLADE_US 0 0 100 else s
    let hot := sensors.foldl (fun (h : Tab Sensor Nat) x =>
      if 95 ≤ t.read_ x then (if h.has x then h else h.put x s.elapsed) else h.del x) s.pow.hot
    .next { s with pow := { s.pow with hot := hot, due := s.elapsed + micros 100 } }

/-- How many of a window of 64 transfers of a stack's pseudo-channel inference may take (R562). -/
def State.inferenceTransfers (s : State) (k : Nat) : Nat :=
  let t := s.rd R.HBM_STATE.TEMP k
  if 93 ≤ t then 16 else if s.rd R.GLB_PWR_CTRL.HBM_THROTTLE_C ≤ t then 32 else 64

/-- The pin READY (Table 18.2): high in stage 0x7. -/
def State.readyPin (s : State) : Bool := !s.held && decide (s.stage = 7)

/-- Whether ALERT_N is driven low (Table 18.2): a bit of GLB_PWR_EVENTS is set. -/
def State.alertPin (s : State) : Bool := (RegName.fields .GLB_PWR_EVENTS).any fun f => s.flag f

/-- Whether THERMTRIP_N is driven low (R563). -/
def State.thermtripPin (s : State) : Bool := s.pow.trip

/-- THERMAL_CONTAINMENT (R563): a sensor has read 95 °C or more for 1 ms. -/
def execThermalContainment (x : Sensor) (s : State) : Out :=
  match s.pow.hot.find x with
  | none => .next s
  | some since =>
    if s.elapsed < since + millis 1 then .next s
    else
      let s : State := { s with pow := { s.pow with hot := s.pow.hot.del x } }
      match x with
      | .quadrant q =>
        if s.isOut (.quadrant q) then .next s
        else .next (s.reports { cls := .quadrant, sub := 3, die := q / 4, recUnit := some (.quadrant q) })
      | .common d => .next (s.dieFault d 3 d)
      | .stack k => .next (s.dieFault (k / 2) 3 (k / 2))

/-- PLL_LOCK_LOSS (R572): REF_CLK has been lost for 1 ms; the island PLLs lose their lock, and the dies are contained. -/
def execPllLockLoss (s : State) : Out :=
  match s.tim.lostAt with
  | none => .next s
  | some t =>
    if s.held ∨ s.stage = 0 ∨ s.elapsed < t + millis 1 then .next s
    else .next ((List.range 8).foldl (fun s d => if s.dieUp d ∧ !s.isOut (.die d) then
      s.reports { cls := .die, sub := 2, die := d, recUnit := some (.die d) } else s) s)

end Machine
end Sys2Proof
end

