-- ==== Sys2Proof/Machine/RegWrite.lean ====
section
/-!
DEFINITION. REGISTER_WRITE: a write of the host to BAR 0, to the BAR 2 of a virtual function or to configuration space (R5 to R9,
R505 to R512, R570). Where the register is a command register, the write has the effect of its command.
-/
namespace Sys2Proof

/-- A field of a word is narrower than its width says. -/
theorem bitsAt_lt (v lo w : Nat) : bitsAt v lo w < 2 ^ w := Nat.mod_lt _ (Nat.two_pow_pos w)

/-- The part of a 64-bit register a write addresses (R6): all of it, one half, or none for any other size or alignment. -/
def writeMask (addr size : Nat) : Option Nat :=
  if size = 8 ∧ addr % 8 = 0 then some (2 ^ 64 - 1)
  else if size = 4 ∧ addr % 8 = 0 then some (2 ^ 32 - 1)
  else if size = 4 ∧ addr % 8 = 4 then some ((2 ^ 32 - 1) * 2 ^ 32)
  else none

/-- The data of a write in its place of the 64-bit word. -/
def writeData (addr size : Nat) (data : Word) : Nat :=
  if size = 4 then data.toNat % 2 ^ 32 * 2 ^ (8 * (addr % 8)) else data.toNat

/-- The register of a block at an offset, and its repeat index. -/
def Block.regAt (b : Block) (off : Nat) : Option (RegName × Nat) :=
  b.regs.findSome? fun r =>
    let p := r.place
    if off < p.offset then none
    else if p.count = 1 then (if off = p.offset then some (r, 0) else none)
    else
      let i := (off - p.offset) / p.stride
      if (off - p.offset) % p.stride = 0 ∧ i < p.count then some (r, i) else none

/-- The block, unit and offset within it of an offset of a cluster (Table 1.6 and the addresses of 2.10, 3.11, 4.10, 5.8, 6.8):
`c` is the package cluster. -/
def clusterBlock (c off : Nat) : Option (Block × Nat × Nat) :=
  if off < 72 * 0x10000 then
    let s := c * 72 + off / 0x10000
    let o := off % 0x10000
    if 0x2000 ≤ o ∧ o < 0x2800 then some (.tns, s, o - 0x2000)
    else if 0x2800 ≤ o ∧ o < 0x3000 then some (.cor, s, o - 0x2800)
    else if 0x3000 ≤ o ∧ o < 0x4000 then some (.vec, s, o - 0x3000)
    else if 0x4000 ≤ o ∧ o < 0x5000 then some (.sigEngine, s * 2 + (o - 0x4000) / 0x800, o % 0x800)
    else if 0x5000 ≤ o ∧ o < 0x6000 then some (.strSite, s, o - 0x5000)
    else if 0x6000 ≤ o ∧ o < 0x7000 then some (.mov, s, o - 0x6000)
    else none
  else if 0x700000 ≤ off ∧ off < 0x720000 then some (.clu, c, off - 0x700000)
  else if 0x720000 ≤ off ∧ off < 0x730000 then some (.strCluster, c, off - 0x720000)
  else if 0x730000 ≤ off ∧ off < 0x740000 then some (.tnsCluster, c, off - 0x730000)
  else if 0x740000 ≤ off ∧ off < 0x750000 then some (.fec, c, off - 0x740000)
  else none

/-- The block, unit and offset within it of an offset of a die window (R39). -/
def dieBlock (d off : Nat) : Option (Block × Nat × Nat) :=
  if off < 0x100000 then some (.die, d, off)
  else if off < 0x200000 then some (.hbm, d * 2 + (off - 0x100000) / 0x80000, off % 0x80000)
  else if off < 0x300000 then
    let q := d * 2 + (off - 0x200000) / 0x80000
    let o := off % 0x80000
    if o < 0x10000 then some (.quad, q, o) else if o < 0x20000 then some (.worp, q, o - 0x10000) else none
  else if off < 0x400000 then some (.ziu, d, off - 0x300000)
  else if off < 0x500000 then some (.lc, d, off - 0x400000)
  else if 0x800000 ≤ off ∧ off < 0x1800000 then
    clusterBlock (d * 2 + (off - 0x800000) / 0x800000) ((off - 0x800000) % 0x800000)
  else none

/-- The block, unit and offset within it of an offset of BAR 0 (R509). -/
def bar0Block (a : Nat) : Option (Block × Nat × Nat) :=
  if a < 0x100000 then some (.glb, 0, a)
  else if a < 0x200000 then some (.err, 0, a - 0x100000)
  else if a < 0x300000 then some (.tim, 0, a - 0x200000)
  else if a < 0x302000 then some (.hst, 0, a - 0x300000)
  else if a < 0x400000 then none
  else if a < 0x500000 then some (.sch, 0, a - 0x400000)
  else if a < 0x600000 then some (.que, 0, a - 0x500000)
  else if a < 0x700000 then some (.wor, 0, a - 0x600000)
  else if a < 0x800000 then some (.rad, 0, a - 0x700000)
  else if 0x1000000 ≤ a ∧ a < 0x11000000 then dieBlock ((a - 0x1000000) / 0x2000000) ((a - 0x1000000) % 0x2000000)
  else none

/-- The register at an 8-byte boundary of BAR 0, its unit and its repeat index; nothing at an unassigned offset (R9). -/
def bar0Reg (a : Nat) : Option (RegName × Nat × Nat) :=
  match bar0Block a with
  | some (b, u, off) => (b.regAt off).map fun x => (x.1, u, x.2)
  | none => none

/-- What a write sets a field to (the clamps of the field tables, R41, R230, R373, R405, R410, R427, R459 to R461, R497, R523, R573). -/
def Fld.fit (f : Fld) (v : Nat) : Nat :=
  match f.reg, f.lo with
  | .HBM_SCRUB, _ => Machine.clamp 1 168 v
  | .SCH_TEN_SHARE, _ => max 1 v
  | .SCH_TEN_DRAIN, _ => Machine.clamp 10 50000 v
  | .RAD_CTRL, 0 => min 999999999 v
  | .RAD_CTRL, _ => max 1 v
  | .RAD_Q_TXCFG, 32 => Machine.clamp 100 1000000 v
  | .RAD_Q_CBS, 0 => min 400000 v
  | .RAD_Q_GATE_CTRL, 1 => max 1 v
  | .RAD_Q_GATE_CYCLE, _ => Machine.clamp 1000 1000000000 v
  | .RAD_Q_GCL, 0 => v ||| 0x80
  | .WOR_CTRL, 16 => Machine.clamp 5 10000 v
  | .ERR_CTRL, 0 => max 1 v
  | .ERR_CTRL, _ => Machine.clamp 1 168 v
  | .HST_CTRL, 0 => Machine.clamp 1 1000 v
  | .GLB_SENT_CTRL, 0 => if v = 0 then 0 else Machine.clamp 8 20 v
  | .GLB_PWR_CTRL, 0 => Machine.clamp 70 92 v
  | .GLB_PWR_CTRL, 16 => Machine.clamp 70 90 v
  | .GLB_PWR_CTRL, 32 => Machine.clamp 600 1900 v
  | .TIM_FREQ, _ => if v < 2 ^ 31 then min 2097152000 v else max (2 ^ 32 - 2097152000) v
  | _, _ => v

/-- The bits of a command argument that the field tables name (R459); the others are reserved (R9). -/
def Fld.named (f : Fld) (i : Nat) : Nat :=
  match f.reg, i with
  | .WOR_WIN_ARG, 0 => 2 ^ 56 - 1
  | .WOR_WIN_ARG, 1 => (2 ^ 28 - 1) + (2 ^ 12 - 1) * 2 ^ 32
  | .WOR_WIN_ARG, _ => 2 ^ 40 - 1
  | .WOR_INV_ARG, 0 => 2 ^ 56 - 1
  | .WOR_INV_ARG, _ => (2 ^ 12 - 1) + (2 ^ 13 - 1) * 2 ^ 16
  | _, _ => 2 ^ f.w - 1

namespace Machine

/-- Where a register that shows a selected entry keeps it: the repeat index that its selector gives (R192). -/
def State.shownIx (s : State) (r : RegName) (i : Nat) : Nat :=
  match r with
  | .GLB_DET_ND_COUNT => s.rd R.GLB_DET_SEL.OWNER
  | .RAD_CELL_CNT => s.rd R.RAD_CELL_SEL.CELL
  | .RAD_GLADE_DRUM | .RAD_GLADE_FEC => s.rd R.RAD_GLADE_SEL.OWNER
  | _ => i

/-- Whether a write leaves a field as it is although its code is rw or rwl (R8, R244, R270, R285, R373, R379, R399, R405, R422, R430,
R497). -/
def State.ignores (s : State) (f : Fld) (u i v : Nat) : Bool :=
  match f.reg with
  | .SCH_ARG => s.flag R.SCH_CMD_STATUS.BUSY
  | .QUE_ARG => s.flag R.QUE_CMD_STATUS.BUSY
  | .WOR_WIN_ARG => s.flag R.WOR_WIN_STATUS.BUSY
  | .MGT_MBX_ARG => s.flag R.MGT_MBX_STATUS.BUSY
  | .SCH_TEN_SHARE | .SCH_TEN_DRAIN => s.tenState i = 0
  | .GLB_DET_ND_COUNT | .RAD_GLADE_DRUM | .RAD_GLADE_FEC => decide (1024 ≤ i)
  | .RAD_CTRL => f.lo = 0 && s.gladeHeld
  | .RAD_Q_MAC => s.rad.flows.any fun e => e.1.1 = u
  | .RAD_Q_CBS => i = 7
  | .RAD_Q_GCL | .RAD_Q_GATE_BASE | .RAD_Q_GATE_CYCLE => s.flag R.RAD_Q_GATE_CTRL.EN u
  | .WOR_CTRL => f.lo = 0 && s.flag R.WOR_CTRL.EN
  | .ERR_RING_ACK => decide (v < s.rd R.ERR_RING_ACK.ACK ∨ s.rd R.ERR_STATUS.NEXT_SEQ ≤ v)
  | .TIM_TOLL_START | .TIM_TOLL_PERIOD => s.flag R.TIM_TOLL_CTRL.EN 0 i
  | .SEC_CTRL => s.flag R.SEC_CTRL.LOCK
  | _ => false

/-- One field takes a write by its access code (R7): `data` is the word written, `mask` the part of it that the write addresses, `before`
the state at the write, by which the field is held back or not. -/
def State.writeField (s before : State) (u i data mask : Nat) (f : Fld) : State :=
  let m := bitsAt mask f.lo f.w
  let old := s.rd f u i
  let given := bitsAt data f.lo f.w &&& m
  if m = 0 then s
  else match f.acc with
    | .rw | .rws | .rwl =>
      let v := f.fit ((given ||| (old &&& (2 ^ f.w - 1 - m))) &&& f.named i)
      if before.ignores f u i v then s else s.wr f v u i
    | .w1c => s.wr f (old &&& (2 ^ f.w - 1 - given)) u i
    | .ro | .wo => s

/-- The word a register holds in its rw fields. -/
def State.heldWord (s : State) (r : RegName) (u i : Nat) : Nat :=
  r.fields.foldl (fun n f => if f.acc = .rw ∨ f.acc = .rws ∨ f.acc = .rwl then n + s.rd f u i * 2 ^ f.lo else n) 0

/-- The route of the selected fabric node is set, and the node moves to the port that now serves it (R431). -/
def State.writeRoute (s : State) (data mask : Nat) : State :=
  let n := s.rd R.WOR_NODE_SEL.NODE
  let d := s.dest n
  let m := mask % 2 ^ 16
  if m = 0 then s
  else
    let route := data % 2 ^ 16
    if route = d.route then s
    else
      let up (q : Nat) : Bool := s.rd R.WOR_P_STATE.STATE q = 3
      (((s.setDest n ({ d with route := route }.reroute up)).tick R.WOR_GEN.GEN)).fillWindow n

/-- The fields of a register without a command of its own take a write; a change of a clearing's weight or drain limit is a change of
the tenant table (R304), and one of the source of a recovered clock holds it low for a time (R418). -/
def State.writeFields (s : State) (r : RegName) (u i data mask : Nat) : State :=
  let t := r.fields.foldl (fun t f => t.writeField s u i data mask f) s
  if t.heldWord r u i = s.heldWord r u i then t
  else match r with
    | .SCH_TEN_SHARE | .SCH_TEN_DRAIN => t.tick R.SCH_TEN_GEN.GEN
    | .TIM_SYNCE =>
      let src (x : State) : Nat × Nat := (x.rd R.TIM_SYNCE.QUAD 0 i, x.rd R.TIM_SYNCE.LANE 0 i)
      if src t = src s then t else { t with tim := { t.tim with synceAt := t.tim.synceAt.put i t.elapsed } }
    | _ => t

/-- A write to a gate or shaper register (R399, R400): the credits are brought up to now before it and the gates of now taken
after it; EN set to 1 starts the list. -/
def State.writeGate (s : State) (r : RegName) (u i data mask : Nat) : State :=
  let was := s.flag R.RAD_Q_GATE_CTRL.EN u
  let s := (s.creditTo u).writeFields r u i data mask
  let en := s.flag R.RAD_Q_GATE_CTRL.EN u
  let s := if en && !was then s.startGates u
    else if was && !en then s.setTxPort u { s.txPort u with gateFrom := none } else s
  s.creditTo u

/-- The mailbox commands that need nothing from host memory (Table 17.3). The others come with rows of their own. -/
def State.mailbox (s : State) (op : Nat) : Out :=
  match op with
  | 2 => execFwCommit s
  | 3 => execFwFloor s
  | 5 => execKeyClear s
  | 6 => execKeyFloor s
  | 1 | 4 | 7 | 8 => .next s
  | _ => .next s.reservedMbx

/-- The command that a write of a register is, or nothing where the register has none: `w` is the word written with what the
register's other half holds. -/
def State.command (s : State) (r : RegName) (u i : Nat) (w : Word) : Option Out :=
  let v := w.toNat
  let owner : Fin 2048 := ⟨bitsAt v 16 11, bitsAt_lt v 16 11⟩
  let die : Die := Fin.ofNat 8 u
  let quad : Quad := Fin.ofNat 16 u
  match r with
  | .ZIU_CTRL => some (execPortEnWrite die w s)
  | .ZIU_VC1_RESERVE => some (execZiuVc1ReserveWrite die w s)
  | .HBM_RESERVE => some (execHbmReserveWrite (Fin.ofNat 16 u) w s)
  | .HBM_LC_CTRL => some (execHbmLcCtrlWrite die w s)
  | .GLB_IMG_SRC => some (execImgArgWrite .src w s)
  | .GLB_IMG_LEN => some (execImgArgWrite .len w s)
  | .GLB_IMG_TARGET => some (execImgArgWrite .target w s)
  | .GLB_IMG_ACT_TIME => some (execImgArgWrite .actTime w s)
  | .GLB_IMG_DRAIN => some (execImgArgWrite .drain w s)
  | .GLB_IMG_CMD => some (match bitsAt v 0 2 with
    | 1 => execStart s
    | 2 => execAbort s
    | _ => .next s)
  | .GLB_DET_BAR_CMD => some (match bitsAt v 0 2 with
    | 1 => execArm s
    | 2 => execCancel s
    | _ => .next s)
  | .GLB_SENT_LAST => some (if v.testBit 50 then execPendingClear s else .next s)
  | .SCH_CMD => some (match bitsAt v 0 4 with
    | 1 => execCreate owner s
    | 2 => execMapExtent owner s
    | 3 => execUnmapExtent owner s
    | 4 => execBudget owner s
    | 5 => execReset owner s
    | 6 => execRemove owner s
    | op => .next (s.reservedTenCmd op owner))
  | .QUE_CMD =>
    let loc : Fin 65536 := ⟨bitsAt v 32 16, bitsAt_lt v 32 16⟩
    some (match bitsAt v 0 4 with
    | 1 => execQueueMap owner loc s
    | 2 => execQueueUnmap owner loc s
    | op => .next (s.endQueCmd op owner (s.mapCause op owner loc)))
  | .SCH_CTRL => some (execSchCtrlWrite w s)
  | .SCH_LEND_CTRL => some (execSchLendCtrlWrite w s)
  | .RAD_MOVE_CMD => some (match bitsAt v 0 2 with
    | 1 => execCellMove s
    | 2 => execMoveCancel s
    | _ => .next s)
  | .RAD_Q_MODE => some (execRadQModeWrite quad w s)
  | .TIM_SNAP => some (if v.testBit 0 then execSnap s else .next s)
  | .TIM_ADJ_CMD => some (match bitsAt v 0 2 with
    | 1 => execSet s
    | 2 => execStep s
    | _ => .next s)
  | .TIM_TOLL_CTRL => some (if v.testBit 0 then execTollArm (Fin.ofNat 8 i) w s else execTollDisarm (Fin.ofNat 8 i) w s)
  | .TIM_Q_TS_POP => some (if v.testBit 0 then execPop (Fin.ofNat 16 i) s else .next s)
  | .TIM_Q_TXIDX => some (.next s)
  | .WOR_P_CTRL => some (execWorPortEnWrite quad w s)
  | .WOR_NODE_STATE => some (if v.testBit 0 then execDeadClear s else .next s)
  | .WOR_WIN_CMD =>
    let idx : Fin 256 := ⟨bitsAt v 8 8, bitsAt_lt v 8 8⟩
    some (match bitsAt v 0 4 with
    | 1 => execMapImport owner idx s
    | 2 => execMapExport owner idx s
    | 3 => execUnmap owner idx (v.testBit 7) s
    | op => .next (s.winCommand op owner idx (v.testBit 7) id))
  | .WOR_INV_CMD => some (if v.testBit 0 then execSend s else .next s)
  | .HST_CMD => some (if bitsAt v 0 2 = 1 then execSwitch s else .next s)
  | .MGT_MBX_CMD => some (s.mailbox (bitsAt v 0 4))
  | .MGT_RCV_CMD => some (match bitsAt v 0 2 with
    | 1 => execBegin (v.testBit 2) s
    | 2 => execAppend (BitVec.ofNat 16 (bitsAt v 16 16)) s
    | _ => .next s)
  | _ => none

/-- Whether a write addresses something of a register that a write can act on: a part of a field that is not ro, and in QUE_CMD the
operation itself (R6, R9; log entry 24). A write that addresses reserved bits alone performs nothing. -/
def acts (r : RegName) (mask : Nat) : Bool :=
  match r with
  | .QUE_CMD => mask.testBit 0
  | _ => r.fields.any fun f => f.acc ≠ .ro && bitsAt mask f.lo f.w ≠ 0

/-- A write to a register: the command it is, or its fields by their access codes. -/
def State.writeReg (s : State) (r : RegName) (u i data mask : Nat) : Out :=
  if !acts r mask then .next s else
  let i := s.shownIx r i
  let word := (data &&& mask) ||| (s.heldWord r u i &&& (2 ^ 64 - 1 - mask))
  match s.command r u i (BitVec.ofNat 64 word) with
  | some o => o
  | none => .next (match r with
    | .WOR_NODE_ROUTE => s.writeRoute data mask
    | .RAD_Q_CBS | .RAD_Q_GATE_CTRL => s.writeGate r u i data mask
    | .HST_CTRL => (s.writeFields r u i data mask).flushHost
    | _ => s.writeFields r u i data mask)

/-- Whether an offset of BAR 0 answers until the package is ready (R570). -/
def answersEarly (r : RegName) : Bool :=
  match r with
  | .MGT_MBX_CMD | .MGT_MBX_ARG | .MGT_MBX_STATUS | .MGT_RCV_CMD => true
  | _ => false

/-- The bytes of one write. -/
def bytesOf (v n : Nat) : List Byte := (List.range n).map fun k => BitVec.ofNat 8 (v / 2 ^ (8 * k))

/-- A write to MGT_RCV_DATA (R549): taken in RECOVERY while BUSY is 0. -/
def State.writeRcv (s : State) (off size : Nat) (data : Word) : State :=
  if !s.inRecovery ∨ s.flag R.MGT_RCV_STATUS.BUSY then s
  else
    let m := (bytesOf data.toNat size).zipIdx.foldl (fun (m : Mem) x => Mem.write m (off + x.2) x.1) s.mgt.rcvData
    { s with mgt := { s.mgt with rcvData := m } }

/-- A 32-bit word of an MSI-X table takes a write (R510). -/
def State.writeMsix (s : State) (fn off n size : Nat) (data : Word) : State :=
  if (size ≠ 4 ∧ size ≠ 8) ∨ off % size ≠ 0 ∨ n * 16 ≤ off then s
  else
    let t := s.host.msix.put (fn, off) (data.toNat % 2 ^ 32)
    let t := if size = 8 then t.put (fn, off + 4) (data.toNat / 2 ^ 32) else t
    { s with host := { s.host with msix := t } }

/-- A write to BAR 0 (R6, R9, R509, R570). -/
def State.writeBar0 (s : State) (addr size : Nat) (data : Word) : Out :=
  if !s.answers then .next s
  else if 0x302000 ≤ addr ∧ addr < 0x303000 then
    .next (if s.managed then s.writeMsix 0 (addr - 0x302000) 8 size data else s)
  else match writeMask addr size with
    | none => .next s
    | some mask =>
      if 0x8000 ≤ addr ∧ addr < 0x10000 then .next (s.writeRcv (addr - 0x8000) size data)
      else match bar0Reg (addr / 8 * 8) with
        | none => .next s
        | some (r, u, i) => if s.managed ∨ answersEarly r then s.writeReg r u i (writeData addr size data) mask else .next s

/-- A write to the BAR 2 of a virtual function (R6, R292, R296, R511). -/
def State.writeBar2 (s : State) (vf addr size : Nat) (data : Word) : Out :=
  if !(s.answers && s.vfOn vf) then .next s
  else match (if s.managed then s.vfOwner vf else none) with
    | none => .next (s.bump R.SCH_VIOL_UNBOUND.COUNT)
    | some o =>
      if 0x180000 ≤ addr ∧ addr < 0x182000 then .next (s.writeMsix vf (addr - 0x180000) 4 size data)
      else match writeMask addr size with
        | none => .next (s.violate R.SCH_TEN_VIOL.REG o)
        | some mask =>
          let off := addr / 8 * 8
          let data := writeData addr size data
          if off = 0 then execDoorbell (.vf vf) (BitVec.ofNat 64 data) s
          else if 0x10000 ≤ off ∧ off < 0x90000 then
            .next (if (s.localQueue o ((off - 0x10000) / 8)).isNone then s.violate R.SCH_TEN_VIOL.QUEUE o else s)
          else match Block.regAt .vf off with
            | none => .next (s.violate R.SCH_TEN_VIOL.REG o)
            | some (r, _) => .next (s.writeFields r 0 vf data mask)

/-! ### Configuration space (16.3; log entry 80) -/

/-- The PF's configuration space changed. -/
def State.setCfg (s : State) (c : ConfigSt) : State := { s with host := { s.host with cfg := c } }

/-- A 32-bit word of the PF's configuration space is written: the memory enable, BAR 0 of 512 MiB, the reset bit of Device Control,
the SR-IOV control bits, NumVFs up to TotalVFs, VF BAR 2 of 2 MiB. -/
def State.writeConfigWord (s : State) (off v : Nat) : Out :=
  let c := s.host.cfg
  if off = 0x04 then .next (s.setCfg { c with memEnable := v.testBit 1 })
  else if off = 0x10 then .next (s.setCfg { c with bar0 := c.bar0 / 2 ^ 32 * 2 ^ 32 + v / 2 ^ 29 * 2 ^ 29 })
  else if off = 0x14 then .next (s.setCfg { c with bar0 := v * 2 ^ 32 + c.bar0 % 2 ^ 32 })
  else if off = 0x68 then (if v.testBit 15 then execPfFlr s else .next s)
  else if off = 0x168 then
    let s := s.setCfg { c with vfMem := v.testBit 3, ari := v.testBit 4 }
    if v.testBit 0 then .next (s.setCfg { s.host.cfg with vfEnable := true }) else execVfDisable none s
  else if off = 0x170 then
    let n := v % 2 ^ 16
    if s.totalVfs < n then .next s
    else if n < c.numVfs then execVfDisable (some (Fin.ofNat 1024 n)) s
    else .next (s.setCfg { c with numVfs := n })
  else if off = 0x18C then .next (s.setCfg { c with vfBar := c.vfBar / 2 ^ 32 * 2 ^ 32 + v / 2 ^ 21 * 2 ^ 21 })
  else if off = 0x190 then .next (s.setCfg { c with vfBar := v * 2 ^ 32 + c.vfBar % 2 ^ 32 })
  else .next s

/-- A write to configuration space (R505 to R507, R521, R522): one to four bytes within an aligned 32-bit word; of a virtual function the
reset bit of Device Control alone has an effect. -/
def State.writeConfig (s : State) (fn addr size : Nat) (data : Word) : Out :=
  if !s.configOpen ∨ size = 0 ∨ 4 < addr % 4 + size then .next s
  else
    let off := addr / 4 * 4
    let m := (2 ^ (8 * size) - 1) * 2 ^ (8 * (addr % 4))
    let given := data.toNat * 2 ^ (8 * (addr % 4)) &&& m
    let word := given ||| (s.configWord fn off &&& (2 ^ 32 - 1 - m))
    if fn = 0 then s.writeConfigWord off word
    else if off = 0x68 ∧ given.testBit 15 then execVfFlr (Fin.ofNat 1024 fn) s
    else .next s

/-- REGISTER_WRITE (R5 to R11): the host writes `size` bytes at an address of a space. -/
def execRegisterWrite (sp : HostSpace) (addr size : Nat) (data : Word) (s : State) : Out :=
  match sp with
  | .bar0 => s.writeBar0 addr size data
  | .bar2 vf => s.writeBar2 vf addr size data
  | .config fn => s.writeConfig fn addr size data

end Machine
end Sys2Proof
end

