-- ==== Sys2Proof/Machine/Dispatch.lean ====
section
/-!
DEFINITION. What each command does: one direct call of its meaning.
-/
namespace Sys2Proof.Machine

/-- The effect of a command on everything but the queue. -/
def exec (i : Instr) (s : State) : Host.Outcome State Fault Refusal :=
  match i with
  | .registerWrite sp addr size data => Sys2Proof.Machine.execRegisterWrite sp addr size data s
  | .ziuraFlitArrive f half ecc srcHalf srcEcc => Sys2Proof.Machine.execZiuraFlitArrive f half ecc srcHalf srcEcc s
  | .ziuraLinkRetry d p => Sys2Proof.Machine.execZiuraLinkRetry d p s
  | .ziuraPortDown d p near far => Sys2Proof.Machine.execZiuraPortDown d p near far s
  | .ziuraReroute => Sys2Proof.Machine.execZiuraReroute s
  | .portEnWrite d v => Sys2Proof.Machine.execPortEnWrite d v s
  | .ziuraTrainingEnd d p ok => Sys2Proof.Machine.execZiuraTrainingEnd d p ok s
  | .ziuVc1ReserveWrite d v => Sys2Proof.Machine.execZiuVc1ReserveWrite d v s
  | .tensorStep anchor fault => Sys2Proof.Machine.execTensorStep anchor fault s
  | .passRelease anchor => Sys2Proof.Machine.execPassRelease anchor s
  | .fieldStopped anchor => Sys2Proof.Machine.execFieldStopped anchor s
  | .vecAdd c a b => Sys2Proof.Machine.execVecAdd c a b s
  | .vecSub c a b => Sys2Proof.Machine.execVecSub c a b s
  | .vecMul c a b => Sys2Proof.Machine.execVecMul c a b s
  | .vecFma c a b d => Sys2Proof.Machine.execVecFma c a b d s
  | .vecMin c a b => Sys2Proof.Machine.execVecMin c a b s
  | .vecMax c a b => Sys2Proof.Machine.execVecMax c a b s
  | .vecAbs c a => Sys2Proof.Machine.execVecAbs c a s
  | .vecNeg c a => Sys2Proof.Machine.execVecNeg c a s
  | .vecCompare c r a b => Sys2Proof.Machine.execVecCompare c r a b s
  | .vecSelect c cond a b => Sys2Proof.Machine.execVecSelect c cond a b s
  | .vecFormatConversion c a => Sys2Proof.Machine.execVecFormatConversion c a s
  | .reduceSum c a n piece => Sys2Proof.Machine.execReduceSum c a n piece s
  | .reduceMax c a n => Sys2Proof.Machine.execReduceMax c a n s
  | .reduceMin c a n => Sys2Proof.Machine.execReduceMin c a n s
  | .argmax c a n => Sys2Proof.Machine.execArgmax c a n s
  | .argmin c a n => Sys2Proof.Machine.execArgmin c a n s
  | .exp2 c slot a => Sys2Proof.Machine.execExp2 c slot a s
  | .log2 c slot a => Sys2Proof.Machine.execLog2 c slot a s
  | .reciprocal c slot a => Sys2Proof.Machine.execReciprocal c slot a s
  | .reciprocalSquareRoot c slot a => Sys2Proof.Machine.execReciprocalSquareRoot c slot a s
  | .intervalFunction c slot func a => Sys2Proof.Machine.execIntervalFunction c slot func a s
  | .softmax c slotExp slotRecip a n => Sys2Proof.Machine.execSoftmax c slotExp slotRecip a n s
  | .layerNormalisation c slotRsqrt eps a g b n => Sys2Proof.Machine.execLayerNormalisation c slotRsqrt eps a g b n s
  | .combiningNodeArrive site src ecc => Sys2Proof.Machine.execCombiningNodeArrive site src ecc s
  | .mac e a b ecc item => Sys2Proof.Machine.execMac e a b ecc item s
  | .msu e a b ecc item => Sys2Proof.Machine.execMsu e a b ecc item s
  | .macz e a b ecc item => Sys2Proof.Machine.execMacz e a b ecc item s
  | .msuz e a b ecc item => Sys2Proof.Machine.execMsuz e a b ecc item s
  | .stacc e dst ecc item => Sys2Proof.Machine.execStacc e dst ecc item s
  | .move e dst src ecc item => Sys2Proof.Machine.execMove e dst src ecc item s
  | .sigAdd e d a b ecc item => Sys2Proof.Machine.execSigAdd e d a b ecc item s
  | .sigSub e d a b ecc item => Sys2Proof.Machine.execSigSub e d a b ecc item s
  | .sigArithmeticShift e d a left n ecc item => Sys2Proof.Machine.execSigArithmeticShift e d a left n ecc item s
  | .sigLogicalShift e d a left n ecc item => Sys2Proof.Machine.execSigLogicalShift e d a left n ecc item s
  | .sigAnd e d a b ecc item => Sys2Proof.Machine.execSigAnd e d a b ecc item s
  | .sigOr e d a b ecc item => Sys2Proof.Machine.execSigOr e d a b ecc item s
  | .sigXor e d a b ecc item => Sys2Proof.Machine.execSigXor e d a b ecc item s
  | .setag e g f v ecc item => Sys2Proof.Machine.execSetag e g f v ecc item s
  | .in_ e dst last ecc item => Sys2Proof.Machine.execIn e dst last ecc item s
  | .out e src endItem ecc item => Sys2Proof.Machine.execOut e src endItem ecc item s
  | .br e target ecc item => Sys2Proof.Machine.execBr e target ecc item s
  | .brz e n target ecc item => Sys2Proof.Machine.execBrz e n target ecc item s
  | .brnz e n target ecc item => Sys2Proof.Machine.execBrnz e n target ecc item s
  | .repeat e n ecc item => Sys2Proof.Machine.execRepeat e n ecc item s
  | .waitbeat e ecc item => Sys2Proof.Machine.execWaitbeat e ecc item s
  | .fecDescriptor c k item => Sys2Proof.Machine.execFecDescriptor c k item s
  | .decodeStart c k => Sys2Proof.Machine.execDecodeStart c k s
  | .decodeDone c k ecc store => Sys2Proof.Machine.execDecodeDone c k ecc store s
  | .encodeStart c => Sys2Proof.Machine.execEncodeStart c s
  | .encodeDone c ecc store => Sys2Proof.Machine.execEncodeDone c ecc store s
  | .fecResultEmit c stream => Sys2Proof.Machine.execFecResultEmit c stream s
  | .flitSend p new ecc => Sys2Proof.Machine.execFlitSend p new ecc s
  | .flitForward site d ecc => Sys2Proof.Machine.execFlitForward site d ecc s
  | .reservationWindow c => Sys2Proof.Machine.execReservationWindow c s
  | .flitArrive a ecc => Sys2Proof.Machine.execFlitArrive a ecc s
  | .creditReturn p => Sys2Proof.Machine.execCreditReturn p s
  | .descriptorPost site off item ecc => Sys2Proof.Machine.execDescriptorPost site off item ecc s
  | .descriptorStart site ecc => Sys2Proof.Machine.execDescriptorStart site ecc s
  | .copy site ecc => Sys2Proof.Machine.execCopy site ecc s
  | .feed site scales ecc => Sys2Proof.Machine.execFeed site scales ecc s
  | .load site scales ecc => Sys2Proof.Machine.execLoad site scales ecc s
  | .gather site ecc => Sys2Proof.Machine.execGather site ecc s
  | .scatter site ecc => Sys2Proof.Machine.execScatter site ecc s
  | .zero site => Sys2Proof.Machine.execZero site s
  | .hbmRequestIssue site ecc => Sys2Proof.Machine.execHbmRequestIssue site ecc s
  | .hbmResponse site ecc => Sys2Proof.Machine.execHbmResponse site ecc s
  | .descriptorComplete site => Sys2Proof.Machine.execDescriptorComplete site s
  | .lineCacheRequest d ext ecc ahead => Sys2Proof.Machine.execLineCacheRequest d ext ecc ahead s
  | .lineFill d key way victim => Sys2Proof.Machine.execLineFill d key way victim s
  | .hbmRead k line pair ecc => Sys2Proof.Machine.execHbmRead k line pair ecc s
  | .hbmWrite k line pair ecc => Sys2Proof.Machine.execHbmWrite k line pair ecc s
  | .scrubLine k pair ecc => Sys2Proof.Machine.execScrubLine k pair ecc s
  | .hbmReserveWrite k v => Sys2Proof.Machine.execHbmReserveWrite k v s
  | .hbmLcCtrlWrite d v => Sys2Proof.Machine.execHbmLcCtrlWrite d v s
  | .imgArgWrite a v => Sys2Proof.Machine.execImgArgWrite a v s
  | .start => Sys2Proof.Machine.execStart s
  | .abort => Sys2Proof.Machine.execAbort s
  | .imageHeaderArrive h => Sys2Proof.Machine.execImageHeaderArrive h s
  | .fetchEnd k p => Sys2Proof.Machine.execFetchEnd k p s
  | .verifyEnd rsa slh => Sys2Proof.Machine.execVerifyEnd rsa slh s
  | .admitEnd => Sys2Proof.Machine.execAdmitEnd s
  | .distributeEnd => Sys2Proof.Machine.execDistributeEnd s
  | .drainEnd => Sys2Proof.Machine.execDrainEnd s
  | .drainLimitExpire => Sys2Proof.Machine.execDrainLimitExpire s
  | .switchWindowEnd c ns => Sys2Proof.Machine.execSwitchWindowEnd c ns s
  | .gladeActivate => Sys2Proof.Machine.execGladeActivate s
  | .arm => Sys2Proof.Machine.execArm s
  | .cancel => Sys2Proof.Machine.execCancel s
  | .barrierRelease => Sys2Proof.Machine.execBarrierRelease s
  | .sentinelSample site upset env busy => Sys2Proof.Machine.execSentinelSample site upset env busy s
  | .sentinelCheckStart d k => Sys2Proof.Machine.execSentinelCheckStart d k s
  | .sentinelCheckDone d k upset env => Sys2Proof.Machine.execSentinelCheckDone d k upset env s
  | .sentinelArbiterDone d k upset env => Sys2Proof.Machine.execSentinelArbiterDone d k upset env s
  | .sentinelTimeout d k => Sys2Proof.Machine.execSentinelTimeout d k s
  | .pendingClear => Sys2Proof.Machine.execPendingClear s
  | .create owner => Sys2Proof.Machine.execCreate owner s
  | .mapExtent owner => Sys2Proof.Machine.execMapExtent owner s
  | .extentZeroDone ok => Sys2Proof.Machine.execExtentZeroDone ok s
  | .moversIdle => Sys2Proof.Machine.execMoversIdle s
  | .moversBusy => Sys2Proof.Machine.execMoversBusy s
  | .unmapExtent owner => Sys2Proof.Machine.execUnmapExtent owner s
  | .budget owner => Sys2Proof.Machine.execBudget owner s
  | .reset owner => Sys2Proof.Machine.execReset owner s
  | .remove owner => Sys2Proof.Machine.execRemove owner s
  | .vfFlr vf => Sys2Proof.Machine.execVfFlr vf s
  | .vfDisable n => Sys2Proof.Machine.execVfDisable n s
  | .resetDrainEnd owner => Sys2Proof.Machine.execResetDrainEnd owner s
  | .squash owner => Sys2Proof.Machine.execSquash owner s
  | .vfUnboundAccess vf off size => Sys2Proof.Machine.execVfUnboundAccess vf off size s
  | .queueMap owner loc => Sys2Proof.Machine.execQueueMap owner loc s
  | .queueUnmap owner loc => Sys2Proof.Machine.execQueueUnmap owner loc s
  | .doorbell src v => Sys2Proof.Machine.execDoorbell src v s
  | .acceptAttempt q ctrlWord => Sys2Proof.Machine.execAcceptAttempt q ctrlWord s
  | .submissionEntryRead q words poison => Sys2Proof.Machine.execSubmissionEntryRead q words poison s
  | .acceptanceRecordAck q => Sys2Proof.Machine.execAcceptanceRecordAck q s
  | .itemRelease q => Sys2Proof.Machine.execItemRelease q s
  | .itemFinish q n => Sys2Proof.Machine.execItemFinish q n s
  | .commit q => Sys2Proof.Machine.execCommit q s
  | .effectLogWrite q n shape e => Sys2Proof.Machine.execEffectLogWrite q n shape e s
  | .effectEmit q => Sys2Proof.Machine.execEffectEmit q s
  | .effectAck src => Sys2Proof.Machine.execEffectAck src s
  | .messageReceive src => Sys2Proof.Machine.execMessageReceive src s
  | .messageReoffer src => Sys2Proof.Machine.execMessageReoffer src s
  | .mirrorRebuildEnd d => Sys2Proof.Machine.execMirrorRebuildEnd d s
  | .sweep q => Sys2Proof.Machine.execSweep q s
  | .schedulerDecision cluster => Sys2Proof.Machine.execSchedulerDecision cluster s
  | .quantumExpiry owner shape => Sys2Proof.Machine.execQuantumExpiry owner shape s
  | .contextBlocked owner shape => Sys2Proof.Machine.execContextBlocked owner shape s
  | .contextUrgent owner shape => Sys2Proof.Machine.execContextUrgent owner shape s
  | .saveDone owner shape => Sys2Proof.Machine.execSaveDone owner shape s
  | .restoreDone owner shape => Sys2Proof.Machine.execRestoreDone owner shape s
  | .pendingEntryEnd owner shape j id data failed => Sys2Proof.Machine.execPendingEntryEnd owner shape j id data failed s
  | .lendStart glade shape => Sys2Proof.Machine.execLendStart glade shape s
  | .recall glade shape => Sys2Proof.Machine.execRecall glade shape s
  | .returnDone glade shape => Sys2Proof.Machine.execReturnDone glade shape s
  | .schCtrlWrite v => Sys2Proof.Machine.execSchCtrlWrite v s
  | .schLendCtrlWrite v => Sys2Proof.Machine.execSchLendCtrlWrite v s
  | .radQModeWrite q v => Sys2Proof.Machine.execRadQModeWrite q v s
  | .frameReceive q x => Sys2Proof.Machine.execFrameReceive q x s
  | .drumbeat glade => Sys2Proof.Machine.execDrumbeat glade s
  | .uplinkCutoff cell => Sys2Proof.Machine.execUplinkCutoff cell s
  | .radioItemOffer k => Sys2Proof.Machine.execRadioItemOffer k s
  | .radioItemDiscard k => Sys2Proof.Machine.execRadioItemDiscard k s
  | .frameTransmit q => Sys2Proof.Machine.execFrameTransmit q s
  | .frameSent q => Sys2Proof.Machine.execFrameSent q s
  | .txDrop q k => Sys2Proof.Machine.execTxDrop q k s
  | .gateInterval q => Sys2Proof.Machine.execGateInterval q s
  | .queueSample q => Sys2Proof.Machine.execQueueSample q s
  | .fecUseWindow => Sys2Proof.Machine.execFecUseWindow s
  | .moveCancel => Sys2Proof.Machine.execMoveCancel s
  | .quadDown q => Sys2Proof.Machine.execQuadDown q s
  | .set => Sys2Proof.Machine.execSet s
  | .step => Sys2Proof.Machine.execStep s
  | .snap => Sys2Proof.Machine.execSnap s
  | .holdover => Sys2Proof.Machine.execHoldover s
  | .refClkRestore => Sys2Proof.Machine.execRefClkRestore s
  | .ppsEdge => Sys2Proof.Machine.execPpsEdge s
  | .ppsLoss => Sys2Proof.Machine.execPpsLoss s
  | .txRingProdWrite q prod slots bad => Sys2Proof.Machine.execTxRingProdWrite q prod slots bad s
  | .synceSquelch k => Sys2Proof.Machine.execSynceSquelch k s
  | .pop q => Sys2Proof.Machine.execPop q s
  | .tollArm t v => Sys2Proof.Machine.execTollArm t v s
  | .tollDisarm t v => Sys2Proof.Machine.execTollDisarm t v s
  | .tollEdge t => Sys2Proof.Machine.execTollEdge t s
  | .tollPulseEnd t => Sys2Proof.Machine.execTollPulseEnd t s
  | .tollHandover => Sys2Proof.Machine.execTollHandover s
  | .worPortEnWrite q v => Sys2Proof.Machine.execWorPortEnWrite q v s
  | .portSecured q root => Sys2Proof.Machine.execPortSecured q root s
  | .keyUpdate q => Sys2Proof.Machine.execKeyUpdate q s
  | .packetSend q n req rsp ctl => Sys2Proof.Machine.execPacketSend q n req rsp ctl s
  | .read k => Sys2Proof.Machine.execRead k s
  | .write k => Sys2Proof.Machine.execWrite k s
  | .atomic k => Sys2Proof.Machine.execAtomic k s
  | .inv k => Sys2Proof.Machine.execInv k s
  | .readRsp k => Sys2Proof.Machine.execReadRsp k s
  | .writeAck k => Sys2Proof.Machine.execWriteAck k s
  | .invAck k => Sys2Proof.Machine.execInvAck k s
  | .atomicRsp k => Sys2Proof.Machine.execAtomicRsp k s
  | .nack k => Sys2Proof.Machine.execNack k s
  | .probe k => Sys2Proof.Machine.execProbe k s
  | .probeAck k => Sys2Proof.Machine.execProbeAck k s
  | .spdm p => Sys2Proof.Machine.execSpdm p s
  | .probeInterval n => Sys2Proof.Machine.execProbeInterval n s
  | .reroute q => Sys2Proof.Machine.execReroute q s
  | .deadTarget n => Sys2Proof.Machine.execDeadTarget n s
  | .deadClear => Sys2Proof.Machine.execDeadClear s
  | .mergeApply k c => Sys2Proof.Machine.execMergeApply k c s
  | .replayEntryFree src epoch gen queue => Sys2Proof.Machine.execReplayEntryFree src epoch gen queue s
  | .mapImport owner idx => Sys2Proof.Machine.execMapImport owner idx s
  | .mapExport owner idx => Sys2Proof.Machine.execMapExport owner idx s
  | .unmap owner idx exp => Sys2Proof.Machine.execUnmap owner idx exp s
  | .send => Sys2Proof.Machine.execSend s
  | .errorDetect e => Sys2Proof.Machine.execErrorDetect e s
  | .coreHang site restore => Sys2Proof.Machine.execCoreHang site restore s
  | .heartbeat answered => Sys2Proof.Machine.execHeartbeat answered s
  | .recoveryStart => Sys2Proof.Machine.execRecoveryStart s
  | .recoveryEnd => Sys2Proof.Machine.execRecoveryEnd s
  | .standbyRelease glade group => Sys2Proof.Machine.execStandbyRelease glade group s
  | .ceLimitReached site => Sys2Proof.Machine.execCeLimitReached site s
  | .probationEnd site => Sys2Proof.Machine.execProbationEnd site s
  | .linkTimeout => Sys2Proof.Machine.execLinkTimeout s
  | .switch => Sys2Proof.Machine.execSwitch s
  | .portSwitch x16 gt64 => Sys2Proof.Machine.execPortSwitch x16 gt64 s
  | .irqHoldoffEnd vf v => Sys2Proof.Machine.execIrqHoldoffEnd vf v s
  | .atsTranslation x victim => Sys2Proof.Machine.execAtsTranslation x victim s
  | .atsInvalidate fn page n => Sys2Proof.Machine.execAtsInvalidate fn page n s
  | .snoop => Sys2Proof.Machine.execSnoop s
  | .hostReadData site id data poison => Sys2Proof.Machine.execHostReadData site id data poison s
  | .globalObservation site id => Sys2Proof.Machine.execGlobalObservation site id s
  | .doeObject o => Sys2Proof.Machine.execDoeObject o s
  | .doeAbort => Sys2Proof.Machine.execDoeAbort s
  | .ideFail cache => Sys2Proof.Machine.execIdeFail cache s
  | .linkReset => Sys2Proof.Machine.execLinkReset s
  | .pfFlr => Sys2Proof.Machine.execPfFlr s
  | .selfTestEnd d ok ports => Sys2Proof.Machine.execSelfTestEnd d ok ports s
  | .pufEnd d ok => Sys2Proof.Machine.execPufEnd d ok s
  | .flashReaderTakeover => Sys2Proof.Machine.execFlashReaderTakeover s
  | .manifestEnd => Sys2Proof.Machine.execManifestEnd s
  | .firmwareEnd d ok => Sys2Proof.Machine.execFirmwareEnd d ok s
  | .electionRound heard => Sys2Proof.Machine.execElectionRound heard s
  | .electionTimeout => Sys2Proof.Machine.execElectionTimeout s
  | .identityEnd => Sys2Proof.Machine.execIdentityEnd s
  | .bringUpEnd b => Sys2Proof.Machine.execBringUpEnd b s
  | .fwStage img => Sys2Proof.Machine.execFwStage img s
  | .fwCommit => Sys2Proof.Machine.execFwCommit s
  | .fwFloor => Sys2Proof.Machine.execFwFloor s
  | .keySet key => Sys2Proof.Machine.execKeySet key s
  | .keyClear => Sys2Proof.Machine.execKeyClear s
  | .keyFloor => Sys2Proof.Machine.execKeyFloor s
  | .anchorSet cert => Sys2Proof.Machine.execAnchorSet cert s
  | .debugUnlock r => Sys2Proof.Machine.execDebugUnlock r s
  | .nonceRead => Sys2Proof.Machine.execNonceRead s
  | .begin manifest => Sys2Proof.Machine.execBegin manifest s
  | .append len => Sys2Proof.Machine.execAppend len s
  | .end_ c => Sys2Proof.Machine.execEnd c s
  | .entdaa addr => Sys2Proof.Machine.execEntdaa addr s
  | .setdasa static_ addr => Sys2Proof.Machine.execSetdasa static_ addr s
  | .rstdaa => Sys2Proof.Machine.execRstdaa s
  | .getstatus => Sys2Proof.Machine.execGetstatus s
  | .setEndpointId eid => Sys2Proof.Machine.execSetEndpointId eid s
  | .mctpMessage m => Sys2Proof.Machine.execMctpMessage m s
  | .idcode => Sys2Proof.Machine.execIdcode s
  | .bypass => Sys2Proof.Machine.execBypass s
  | .samplePreload pins => Sys2Proof.Machine.execSamplePreload pins s
  | .extest => Sys2Proof.Machine.execExtest s
  | .clamp => Sys2Proof.Machine.execClamp s
  | .highz => Sys2Proof.Machine.execHighz s
  | .tapReset => Sys2Proof.Machine.execTapReset s
  | .powerOnReset => Sys2Proof.Machine.execPowerOnReset s
  | .porRelease => Sys2Proof.Machine.execPorRelease s
  | .warmReset pin lost => Sys2Proof.Machine.execWarmReset pin lost s
  | .warmResetRelease => Sys2Proof.Machine.execWarmResetRelease s
  | .railOutOfRange d r mv da => Sys2Proof.Machine.execRailOutOfRange d r mv da s
  | .hbmLost d r => Sys2Proof.Machine.execHbmLost d r s
  | .thermalSample t => Sys2Proof.Machine.execThermalSample t s
  | .thermalContainment x => Sys2Proof.Machine.execThermalContainment x s
  | .thermtrip d => Sys2Proof.Machine.execThermtrip d s
  | .pllLockLoss => Sys2Proof.Machine.execPllLockLoss s
  | .cellMove => Sys2Proof.Machine.execCellMove s
  | .quadTrainingEnd q ok lanes => Sys2Proof.Machine.execQuadTrainingEnd q ok lanes s
  | .cxlLinkL0 x16 gt64 => Sys2Proof.Machine.execCxlLinkL0 x16 gt64 s
  | .railInRange d r mv da => Sys2Proof.Machine.execRailInRange d r mv da s
  | .flashWriteEnd ok => Sys2Proof.Machine.execFlashWriteEnd ok s

end Sys2Proof.Machine
end

