-- ==== Sys2Proof/Machine/Views.lean ====
section
/-!
DEFINITION. What a read of a register returns (R5, R6, R9): the fields the machine stores, and the fields that show other state
(the selected views of R192 among them). A read of a register has no effect, so no command is a read; the reads that have one
(NONCE_READ, the violations of BAR 2) are commands of their own.
-/
namespace Sys2Proof

/-- OUT of a route entry (Table 5.7). -/
def RouteEnt.outCode (r : RouteEnt) : Nat :=
  match r.out with
  | .east => 1 | .west => 2 | .north => 3 | .south => 4 | .localPort => 5

/-- A truth value as a bit. -/
def bit1 (b : Bool) : Nat := if b then 1 else 0

/-- STATE of ERR_CORE_STATE (Table 15.6). -/
def SiteState.code : SiteState → Nat
  | .good => 0 | .suspect => 1 | .probation => 2 | .retired => 3 | .failed => 4 | .disabled => 5 | .contained => 6

/-- RES of SCH_CTX_STATE (Table 11.1). -/
def CtxRes.code : CtxRes → Nat
  | .saved => 1 | .restoring => 2 | .resident => 3 | .saving => 4 | .parked => 5

/-- MU of a numerology (RAD_CELL_VIEW). -/
def muCode (mu : Nat) : Nat := if mu = 3 then 2 else mu

/-- A signed number of nanoseconds in 32 bits. -/
def ns32 (v : Int) : Nat := (v % 2 ^ 32).toNat

/-- STREAM, BOUND, DEPTH_LOG2 and LEVEL or CREDITS of a port register, by the lowest bit of the field; a port that is not
bound reads 0 (R191). Exit streams of a queue carry no stream number (log entry 71). -/
def Port.shown (p : Option Port) (producer : Bool) (lo : Nat) : Nat :=
  match p with
  | none => 0
  | some p =>
    if 4096 ≤ p.stream then 0
    else match lo with
      | 0 => p.stream
      | 12 => 1
      | 13 => p.depthLog2
      | _ => if producer then p.credits else p.fifo.length

namespace Machine

/-- South link of logical column `j` of a package row to the row below it (Table 2.9). -/
def State.southLink (s : State) (row j : Nat) : Nat :=
  if row % 8 = 7 then 0
  else match s.logicalSite row j, s.logicalSite (row + 1) j with
    | some a, some b =>
      if !s.joinable row j then 3
      else if Unit.colOf b = Unit.colOf a then 0 else if Unit.colOf b = Unit.colOf a + 1 then 1 else 2
    | _, _ => 3

/-- TNS_ROUTE_r of a package row. -/
def State.routeFld (s : State) (row lo : Nat) : Nat :=
  let m := s.rowMask row
  match lo with
  | 0 => ((List.range 9).find? fun c => !m.testBit c).getD 8
  | 24 => m
  | _ => s.southLink row ((lo - 8) / 2)

/-- TNS_STATE of an engine's site (Table 2.7). -/
def State.engineFld (s : State) (site : Nat) (f : Fld) : Nat :=
  match s.fieldOf site with
  | none => f.rst
  | some (_, v, b, c) => match f.lo with
    | 0 => v.bankState b c false
    | 2 => v.bankState b c true
    | 4 => v.recAt b c
    | 7 => bit1 (v.hold && c = 0)
    | 8 => bit1 (v.drained b c)
    | _ => bit1 v.stopped

/-- The stream and route entry STR_RT_SEL shows at a site. -/
def State.rtEntryFld (s : State) (site lo : Nat) : Nat :=
  match s.str.routes.find (site, s.rd R.STR_RT_SEL.STREAM site) with
  | none => 0
  | some r => match lo with
    | 0 => r.outCode
    | 3 => if r.out = .localPort then r.port else 0
    | 7 => bit1 r.glade
    | _ => r.res

/-- The reservations of the link direction STR_LINK_SEL shows (no owner is left out: 0x7FF has no streams). -/
def State.linkFld (s : State) (c lo : Nat) : Nat :=
  let n := s.rd R.STR_LINK_SEL.SITE c
  let d : Dir := match s.rd R.STR_LINK_SEL.DIR c with | 0 => .east | 1 => .west | 2 => .north | _ => .south
  let site := c * 72 + n
  if n < 72 ∧ (neighbour site d).isSome then
    match lo with
    | 0 => (s.linkSlots 0x7FF site d).1
    | 8 => (s.linkSlots 0x7FF site d).2
    | _ => 1
  else 0

/-- The block CLU_OWN_SEL shows. -/
def State.blockFld (s : State) (c lo : Nat) : Nat :=
  match s.mem.blockOwner.find (c, s.rd R.CLU_OWN_SEL.BLOCK c) with
  | none => 0
  | some o => match lo with
    | 0 => o
    | 11 => 1
    | _ => bit1 (s.isGlade o)

/-- The extent HBM_XT_SEL of a die shows. -/
def State.extentFld (s : State) (d : Nat) (r : RegName) (lo : Nat) : Nat :=
  match s.mem.extents.find (s.rd R.HBM_XT_SEL.OWNER d, s.rd R.HBM_XT_SEL.INDEX d) with
  | none => 0
  | some e => match r, lo with
    | .HBM_XT_MAP, 0 => e.clPage
    | .HBM_XT_MAP, 32 => 1
    | .HBM_XT_MAP, _ => bit1 e.write
    | _, 0 => e.devPage
    | _, _ => e.pages

/-- The signature of the clearing GLB_DET_SEL shows (8.2, R264). -/
def State.signatureFld (s : State) (r : RegName) (lo : Nat) : Nat :=
  match s.loaded (s.rd R.GLB_DET_SEL.OWNER) with
  | none => 0
  | some l =>
    let n := l.img.numeric
    match r, lo with
    | .GLB_DET_SIG_B, _ => n.seed
    | _, 0 => partNumber / 2 ^ 16 % 2 ^ 16
    | _, 16 => s.rd R.MGT_STATUS.FW_VERSION
    | _, 48 => [(R.COR_NUMCFG.FORMAT, n.format), (R.COR_NUMCFG.SLICE, n.slice), (R.COR_NUMCFG.OUT_FMT, n.outFmt),
        (R.COR_NUMCFG.ROUND, n.round), (R.COR_NUMCFG.SAT, bit1 n.sat), (R.COR_NUMCFG.ARRIVAL, bit1 n.arrival),
        (R.COR_NUMCFG.DETERMINISM, bit1 n.determinism)].foldl (fun k x => k + x.2 * 2 ^ x.1.lo) 0
    | _, _ => 1

/-- The queue QUE_SEL shows (10.7). -/
def State.queueFld (s : State) (r : RegName) (lo : Nat) : Nat :=
  let q := s.rd R.QUE_SEL.GLOBAL
  match (s.queue q).filter fun v => !v.leaving with
  | none => if r = .QUE_VIEW_COMMIT ∧ lo = 48 then s.que.mapGen.findD q 0 else 0
  | some v => match r, lo with
    | .QUE_VIEW_Q, 0 => v.owner
    | .QUE_VIEW_Q, 11 => 1
    | .QUE_VIEW_Q, 12 => v.loc
    | .QUE_VIEW_Q, 28 => v.home
    | .QUE_VIEW_Q, 32 => (s.mirrorOf v.home).getD 0
    | .QUE_VIEW_Q, 36 => s.hold q v
    | .QUE_VIEW_Q, _ => bit1 v.msgFed
    | .QUE_VIEW_ACC, 0 => v.accepted
    | .QUE_VIEW_ACC, _ => min (v.db - v.accepted) 0xFFFF
    | .QUE_VIEW_COMMIT, 0 => v.committed
    | .QUE_VIEW_COMMIT, _ => s.que.mapGen.findD q 0
    | _, 0 => v.emitPos.1
    | _, _ => v.emitPos.2

/-- Counts of the contexts of the cluster SCH_CL_SEL shows. -/
def State.clusterFld (s : State) (lo : Nat) : Nat :=
  let l := s.ctxsOf (s.rd R.SCH_CL_SEL.CLUSTER)
  let count (p : Ctx → Bool) : Nat := (l.filter fun e => e.2.kind ≠ .glade && p e.2).length
  match lo with
  | 0 => count fun c => c.res = .resident
  | 16 => count fun c => c.ready && c.rests
  | 32 => count fun c => c.res = .resident && c.blocked.isSome
  | _ => count fun c => c.urgent.isSome

/-- The context SCH_CTX_SEL shows (11.7). -/
def State.ctxFld (s : State) (lo : Nat) : Nat :=
  match s.ctx (s.rd R.SCH_CTX_SEL.OWNER, s.rd R.SCH_CTX_SEL.CONTEXT) with
  | none => 0
  | some c => match lo with
    | 0 => c.res.code
    | 3 => bit1 (c.ready && c.rests)
    | 4 => bit1 (c.res = .resident && c.blocked.isSome)
    | 5 => c.waitClass
    | 7 => bit1 c.urgent.isSome
    | 8 => bit1 (c.kind = .borrow)
    | 9 => c.cluster / 2
    | 12 => c.cluster % 2
    | 13 => c.row * 8 + c.col
    | 19 => c.code
    | 22 => c.slot
    | _ => s.pendingOf c

/-- The cell RAD_CELL_SEL shows (12.11). -/
def State.cellFld (s : State) (lo : Nat) : Nat :=
  let k := s.rd R.RAD_CELL_SEL.CELL
  match s.rad.cells.find k with
  | none => 0
  | some c => match lo with
    | 0 => c.owner
    | 11 => 1
    | 12 => (c.next.map fun n => n.1).getD 0
    | 23 => bit1 c.next.isSome
    | 24 => if c.absent then 2 else 1
    | 26 => muCode (s.muOf c.owner)
    | 28 => ((s.cellCfg c.owner k).bind fun v => s.groupCluster c.owner v.group).getD 0
    | _ => (c.next.map fun n => ns32 n.2).getD 0

/-- The glade RAD_GLADE_SEL shows: its numerology, its cells with those it may take over, its slot entries. -/
def State.gladeFld (s : State) (lo : Nat) : Nat :=
  let o := s.rd R.RAD_GLADE_SEL.OWNER
  match (s.loaded o).bind fun l => l.img.radio.map fun r => (l, r) with
  | none => 0
  | some (l, r) => match lo with
    | 0 => muCode r.mu
    | 8 => (r.cells.filter fun c => c.takeOver || (s.rad.cells.find c.cell).any fun v => v.owner = o).length
    | _ => l.groupsAt.foldl (fun n g => n + (r.groupUse g.1).entries) 0

/-- Units admitted on a FEC block (R378). -/
def State.fecUseFld (s : State) (b lo : Nat) : Nat :=
  let u := s.radioUse 0x7FF b
  if lo = 0 then u.dec else u.enc

/-- The flow RAD_Q_FLOW_SEL of a quad shows. -/
def State.flowFld (s : State) (q : Nat) (r : RegName) (lo : Nat) : Nat :=
  match s.rad.flows.find (q, s.flag R.RAD_Q_FLOW_SEL.EGRESS q, s.rd R.RAD_Q_FLOW_SEL.INDEX q) with
  | none => 0
  | some e =>
    let f := e.flow
    match r, lo with
    | .RAD_Q_FLOW_KEY, 0 => f.mac
    | .RAD_Q_FLOW_KEY, 48 => f.vlan
    | .RAD_Q_FLOW_KEY, 60 => f.pcp
    | .RAD_Q_FLOW_KEY, _ => 1
    | .RAD_Q_FLOW_MAP, 0 => f.eaxc
    | .RAD_Q_FLOW_MAP, 16 => e.owner
    | .RAD_Q_FLOW_MAP, 27 => f.cell
    | .RAD_Q_FLOW_MAP, 36 => f.iq
    | .RAD_Q_FLOW_MAP, 40 => f.tc
    | .RAD_Q_FLOW_MAP, _ => f.nPrb
    | .RAD_Q_FLOW_POL, 0 => f.rate
    | .RAD_Q_FLOW_POL, _ => f.burstKB
    | .RAD_Q_FLOW_WIN, 0 => ns32 f.winStart
    | .RAD_Q_FLOW_WIN, _ => ns32 f.winEnd
    | _, 0 => e.accepted
    | _, _ => e.dropped

/-- The head of the timestamp queue of a quad (R420). -/
def State.stampFld (s : State) (q : Nat) (r : RegName) (lo : Nat) : Nat :=
  match (s.tim.stamps.findD q []).head? with
  | none => 0
  | some e => match r, lo with
    | .TIM_Q_TS_HEAD, 0 => e.id
    | .TIM_Q_TS_HEAD, 16 => 1
    | .TIM_Q_TS_HEAD, 17 => bit1 e.timing
    | .TIM_Q_TS_HEAD, _ => e.at_ % secUnit / nsUnit
    | _, 0 => e.at_ / secUnit % 2 ^ 48
    | _, _ => e.at_ % nsUnit / fracUnit

/-- The node WOR_NODE_SEL shows. -/
def State.nodeFld (s : State) (r : RegName) (lo : Nat) : Nat :=
  match s.wor.dests.find (s.rd R.WOR_NODE_SEL.NODE) with
  | none => 0
  | some d => match r, lo with
    | .WOR_NODE_ROUTE, _ => d.route
    | _, 0 => bit1 d.dead
    | _, 1 => bit1 d.port.isSome
    | _, 4 => d.port.getD 0
    | _, 8 => d.inPlay
    | _, _ => d.next

/-- Word `a` of the window WOR_WIN_SEL shows: the layout of WOR_WIN_ARG with VALID at bit 31 of word 1. -/
def State.windowWord (s : State) (a : Nat) : Nat :=
  let k := s.rd R.WOR_WIN_SEL.INDEX
  let access (r w at_ : Bool) : Nat := bit1 r * 2 ^ 24 + bit1 w * 2 ^ 25 + bit1 at_ * 2 ^ 26 + 2 ^ 31
  if s.flag R.WOR_WIN_SEL.EXPORT then
    match s.wor.exports.find k with
    | none => 0
    | some v => match a with
      | 0 => v.base
      | 1 => v.pages + access v.read v.write v.atomic + bit1 v.anyNode * 2 ^ 27 + v.node * 2 ^ 32
      | _ => v.clBase
  else
    match s.wor.imports.find (s.rd R.WOR_WIN_SEL.OWNER, k) with
    | none => 0
    | some v => match a with
      | 0 => v.base
      | 1 => v.pages + access v.read v.write v.atomic
      | _ => 0

/-- The site ERR_CORE_SEL shows (15.8, R479, R494). -/
def State.coreStateFld (s : State) (lo : Nat) : Nat :=
  let n := s.rd R.ERR_CORE_SEL.SITE
  let site := (2 * s.rd R.ERR_CORE_SEL.DIE + s.rd R.ERR_CORE_SEL.CLUSTER) * 72 + n
  if 72 ≤ n then 0
  else
    let r := s.siteRec site
    match lo with
    | 0 => r.state.code
    | 3 => bit1 (s.spareOf (Unit.rowIx site) = some site)
    | 8 => if r.state = .probation then
        (hours (s.rd R.ERR_CTRL.PROBATION_H) - (s.elapsed - r.probStart) + hours 1 - 1) / hours 1 else 0
    | 32 => min r.samples 0xFFFF
    | _ => min (s.ceHour site) 0xFFFF

/-- A byte of a string of bytes read as little-endian 64-bit words. -/
def wordAt (bs : List Byte) (w : Nat) : Nat := leNat ((bs.drop (8 * w)).take 8)

/-- The slot SEC_KEY_SEL shows (17.4). -/
def State.keyFld (s : State) (r : RegName) (lo : Nat) : Nat :=
  let k := s.rd R.SEC_KEY_SEL.SLOT
  match s.mgt.slots.find k with
  | none => 0
  | some v => match r, lo with
    | .SEC_KEY_VIEW, _ => v.key
    | _, 0 => v.floor
    | _, 32 => 1
    | _, _ => bit1 (k = 0)

/-- The resident image of the owner SEC_IMG_SEL shows (R541, R542). -/
def State.residentFld (s : State) (r : RegName) (lo w : Nat) : Nat :=
  match s.mgt.resident.find (s.rd R.SEC_IMG_SEL.OWNER) with
  | none => 0
  | some v => match r, lo with
    | .SEC_IMG_D, _ => wordAt (digestBytes v.digest) w
    | _, 0 => v.seq
    | _, 32 => 1
    | _, _ => v.slot

/-- What a field reads as: of unit `u`, repeat index `i`. A wo field reads 0 (R7). -/
def State.viewFld (s : State) (f : Fld) (u i : Nat) : Nat :=
  if f.acc = .wo then 0
  else match f.reg with
    | .TNS_ROUTE => s.routeFld (8 * u + i) f.lo
    | .TNS_STATE => s.engineFld u f
    | .VEC_FTAB_GEN => s.eng.ftabSet
    | .VEC_FTAB => match s.eng.ftab.find i with
      | none => 0
      | some h => match f.lo with | 0 => h.kind | 8 => h.func | _ => h.maxErr
    | .FEC_CTRL => if f.lo = 0 then
        bit1 (s.str.streams.any fun e => decide (e.1.1 = u) && e.2.glade && (e.2.producer.isFec || e.2.consumer.isFec)) else s.rd f u i
    | .STR_SITE => if f.lo = 11 then bit1 (!(s.rowMask (Unit.rowIx u)).testBit (Unit.colOf u)) else s.rd f u i
    | .STR_RT_ENTRY => s.rtEntryFld u f.lo
    | .STR_IN => Port.shown (s.port (sitePort u i)) false f.lo
    | .STR_OUT => Port.shown (s.port (sitePort u (8 + i))) true f.lo
    | .STR_SIG_IN => Port.shown (s.port (sitePort u (16 + i))) false f.lo
    | .STR_SIG_OUT => Port.shown (s.port (sitePort u (18 + i))) true f.lo
    | .STR_LINK_ENTRY => s.linkFld u f.lo
    | .CLU_OWN_ENTRY => s.blockFld u f.lo
    | .HBM_XT_MAP | .HBM_XT_DEV => s.extentFld u f.reg f.lo
    | .GLB_DET_SIG_A | .GLB_DET_SIG_B => s.signatureFld f.reg f.lo
    | .QUE_VIEW_Q | .QUE_VIEW_ACC | .QUE_VIEW_COMMIT | .QUE_VIEW_EMIT => s.queueFld f.reg f.lo
    | .QUE_JNL => match f.lo with
      | 0 => s.records i none
      | 28 => bit1 (s.canHome i 0 || s.canHome i 1)
      | _ => s.rd f u i
    | .SCH_CL_VTIME => s.sched.vtime.findD (s.rd R.SCH_CL_SEL.CLUSTER) 0
    | .SCH_CL_TAG => s.tag (s.rd R.SCH_CL_SEL.OWNER) (s.rd R.SCH_CL_SEL.CLUSTER)
    | .SCH_CL_STATE => s.clusterFld f.lo
    | .SCH_CTX_STATE => s.ctxFld f.lo
    | .RAD_CAPACITY => s.freeEntries 0x7FF
    | .RAD_CELL_VIEW => s.cellFld f.lo
    | .RAD_GLADE_VIEW => s.gladeFld f.lo
    | .RAD_FEC_USE => s.fecUseFld i f.lo
    | .RAD_Q_FLOW_KEY | .RAD_Q_FLOW_MAP | .RAD_Q_FLOW_POL | .RAD_Q_FLOW_WIN | .RAD_Q_FLOW_CNT => s.flowFld u f.reg f.lo
    | .TIM_Q_TS_HEAD | .TIM_Q_TS_SEC => s.stampFld i f.reg f.lo
    | .TIM_Q_TS_STAT => if f.lo = 0 then (s.tim.stamps.findD i []).length else s.rd f u i
    | .WOR_NODE_ROUTE | .WOR_NODE_STATE => s.nodeFld f.reg f.lo
    | .WOR_WIN_VIEW => s.windowWord i
    | .ERR_RD => match s.err.ring.find (s.rd R.ERR_RD_SEL.SEQ % 65536) with
      | some r => if r.seq = s.rd R.ERR_RD_SEL.SEQ then r.word i else 0
      | none => 0
    | .ERR_RECOVERY => match f.lo with
      | 0 => (s.err.running.map fun c => c.first).getD 0
      | 48 => s.err.queue.length
      | _ => (s.err.running.map fun c => c.level).getD 0
    | .ERR_CORE_STATE => s.coreStateFld f.lo
    | .ERR_LAST => ((s.err.last.find (i / 8)).map fun r => r.word (i % 8)).getD 0
    | .HST_OUTSTANDING => s.hostRequests (f.lo ≠ 0)
    | .SEC_KEY_VIEW | .SEC_KEY_FLOOR => s.keyFld f.reg f.lo
    | .SEC_IMG_ID | .SEC_IMG_D => s.residentFld f.reg f.lo i
    | _ => s.rd f u (s.shownIx f.reg i)

/-- The 64-bit word a register reads as; bits no field names read 0 (R9). -/
def State.view (s : State) (r : RegName) (u i : Nat) : Nat :=
  r.fields.foldl (fun n f => n + s.viewFld f u i % 2 ^ f.w * 2 ^ f.lo) 0

/-- What an access of `size` bytes returns of a 64-bit word: all of it, one half, and 0 for any other size or alignment (R6). -/
def readPart (addr size word : Nat) : Nat :=
  if size = 8 ∧ addr % 8 = 0 then word
  else if size = 4 ∧ addr % 8 = 0 then word % 2 ^ 32
  else if size = 4 ∧ addr % 8 = 4 then word / 2 ^ 32
  else 0

/-- What a read of an MSI-X table of `n` entries returns (R510); a vector is masked at reset, as the standard has it. -/
def State.readMsix (s : State) (fn off n size : Nat) : Nat :=
  let w (o : Nat) : Nat := s.host.msix.findD (fn, o) (if o % 16 = 12 then 1 else 0)
  if (size ≠ 4 ∧ size ≠ 8) ∨ off % size ≠ 0 ∨ n * 16 ≤ off then 0
  else w off + (if size = 8 then w (off + 4) * 2 ^ 32 else 0)

/-- Whether a register answers a read before the package is ready (R570). -/
def readsEarly (r : RegName) : Bool :=
  match r with
  | .GLB_PART | .GLB_SHAPE | .MGT_STATUS | .MGT_ELECT | .MGT_MBX_CMD | .MGT_MBX_ARG | .MGT_MBX_STATUS | .MGT_RCV_CMD
  | .MGT_RCV_STATUS | .MGT_I3C => true
  | _ => false

/-- What a read of BAR 0 returns, once it reaches the package: 0 at an unassigned offset (R9), and until the package is ready 0
everywhere but at GLB_PART, GLB_SHAPE and the MGT_ block (R570). -/
def State.readBar0 (s : State) (addr size : Nat) : Nat :=
  if 0x302000 ≤ addr ∧ addr < 0x303000 then (if s.managed then s.readMsix 0 (addr - 0x302000) 8 size else 0)
  else match bar0Reg (addr / 8 * 8) with
  | none => 0
  | some (r, u, i) => if s.managed ∨ readsEarly r then readPart addr size (s.view r u i) else 0

/-- What a read of the BAR 2 of a virtual function returns (R292, R296, R511). -/
def State.readBar2 (s : State) (vf addr size : Nat) : Nat :=
  match (if s.managed && s.vfOn vf then s.vfOwner vf else none) with
  | none => 0
  | some o =>
    if 0x180000 ≤ addr ∧ addr < 0x182000 then s.readMsix vf (addr - 0x180000) 4 size
    else readPart addr size ((s.bar2Word o (addr / 8 * 8) false).getD 0)

end Machine
end Sys2Proof
end

