-- ==== Sys2Proof/WellFormed.lean ====
section
/-!
DEFINITION. Well-formed commands: every operand within the width the spec gives it. A register write of any size is a command, since
R6 says what becomes of it. The meanings are total, so an ill-formed command is refused only here.
-/
namespace Sys2Proof

/-- A tag within the widths of Table 5.2. -/
def Tag.wf (t : Tag) : Bool :=
  decide (t.owner < 2 ^ 11 ∧ t.stream < 2 ^ 12 ∧ t.granule < 2 ^ 16 ∧ t.seq < 2 ^ 20)

/-- An entry: a flit has four payload words, a mover transfer eight (R172, Table 5.1). -/
def Entry.wf (e : Entry) : Bool :=
  e.tag.wf && decide (e.words.length ≤ 8) && e.words.all fun w => decide (w < 2 ^ 64)

/-- Output of a unit: at most four payload words (R172), of the site's core store or of one of its 32 registers. -/
def OutFlit.wf (o : OutFlit) : Bool := decide (o.results ≤ 32) && match o.src with
  | .store a n => decide (n ≤ 4 ∧ a + 8 * n ≤ 0x180000)
  | .reg r i n => decide (r < 32 ∧ n ≤ 4 ∧ i + 2 * n ≤ 128)
  | .results | .zero => true

/-- What a code found in an entry of `n` payload words. -/
def EntryEcc.wf (n : Nat) (e : EntryEcc) : Bool := match e with | .payload w => decide (w < n) | _ => true

/-- An item reference: a global queue and a 48-bit sequence (R307, R309). -/
def ItemRef.wf (r : ItemRef) : Bool := decide (r.queue < 2 ^ 20 ∧ r.item < 2 ^ 48)

/-- An optional item. -/
def itemWf (r : Option ItemRef) : Bool := r.all ItemRef.wf

/-- A vector operand: a core store address lies in core store and is aligned to the element (4.1). -/
def VOpnd.wf (o : VOpnd) : Bool :=
  match o.loc with
  | .reg _ => true
  | .store a => decide (a < 0x180000 ∧ a % (if o.bf16 then 2 else 4) = 0)

/-- The common part of a vector operation. -/
def VCtl.wf (c : VCtl) : Bool := c.dst.wf && itemWf c.item

/-- A Ziura flit carries at most 256 bytes (R31), on an order that R33 defines for its pair of dies. -/
def ZFlit.wf (f : ZFlit) : Bool :=
  decide (f.words.length ≤ 32 ∧ (f.order = .detour → f.src.val % 2 = f.dst.val % 2 ∧ f.src ≠ f.dst)) && f.words.all fun w => decide (w < 2 ^ 64)

/-- A fabric packet within the widths of Tables 14.1 and 14.2. -/
def Packet.wf (p : Packet) : Bool :=
  decide (p.src < 2 ^ 12 ∧ p.dst < 2 ^ 12 ∧ p.incarn < 2 ^ 16 ∧ p.seq < 2 ^ 32 ∧ p.cum < 2 ^ 32 ∧ p.addr < 2 ^ 56
    ∧ p.len ≤ 256 ∧ p.lines < 2 ^ 13 ∧ p.mask < 2 ^ 256 ∧ p.data.length ≤ 256)

/-- A packet as it comes in: LINK_CTR has 48 bits (R456). -/
def InPkt.wf (i : InPkt) : Bool := i.pkt.wf && decide (i.ctr < 2 ^ 48)

/-- A received frame within the widths of Table 12.5. -/
def RxFrame.wf (f : RxFrame) : Bool :=
  decide (f.etherType < 2 ^ 16 ∧ f.dst < 2 ^ 48 ∧ f.src < 2 ^ 48 ∧ f.vlan < 2 ^ 12 ∧ f.pcp < 2 ^ 3 ∧ f.msgType < 2 ^ 8
    ∧ f.payload < 2 ^ 16 ∧ f.pcId < 2 ^ 16 ∧ f.frameId < 2 ^ 8 ∧ f.subframe < 2 ^ 4 ∧ f.slot < 2 ^ 6 ∧ f.symbol < 2 ^ 6)

/-- Scale codes are bytes (R96). -/
def scalesWf (l : List (Nat × Nat)) : Bool := l.all fun x => decide (x.1 < 256 ∧ x.2 < 256)

/-- A request to a line cache from outside the movers: its written bytes lie in the line. -/
def LcReq.wf (r : LcReq) : Bool := (r.write.all fun b => b.all fun x => decide (x.1 < 256)) && decide (r.owner < 2 ^ 11)

/-- An effect of Table 10.3 within its widths. -/
def Effect.wf : Effect → Bool
  | .message dst arg => decide (dst < 2 ^ 20 ∧ arg.length = 7)
  | .atomic dst addr op _ a b ret => decide (dst < 2 ^ 12 ∧ addr < 2 ^ 56 ∧ op < 16 ∧ a < 2 ^ 64 ∧ b < 2 ^ 64 ∧ ret < 2 ^ 64)
  | .frame words => decide (words.length ≤ 8)

/-- Whether a command is well formed. -/
def Instr.wf : Instr → Bool
  | .registerWrite _ addr size _ => decide (addr < 2 ^ 64 ∧ 0 < size ∧ size ≤ 8)
  | .ziuraFlitArrive f _ _ _ _ => f.wf && itemWf f.item
  | .ziuraPortDown _ _ near far => near.all ZFlit.wf && far.all ZFlit.wf
  | .vecAdd c a b | .vecSub c a b | .vecMul c a b | .vecMin c a b | .vecMax c a b => c.wf && a.wf && b.wf
  | .vecFma c a b d => c.wf && a.wf && b.wf && d.wf
  | .vecAbs c a | .vecNeg c a | .vecFormatConversion c a => c.wf && a.wf
  | .vecCompare c _ a b => c.wf && a.wf && b.wf
  | .vecSelect c k a b => c.wf && k.wf && a.wf && b.wf
  | .reduceSum c a n p => c.wf && a.wf && decide (0 < n) && (match p with
    | none => true
    | some p => decide (p.first % 2 ^ p.level = 0 ∧ p.first < 2 ^ 16 ∧ p.level ≤ 16 ∧ p.stream < 2 ^ 12))
  | .reduceMax c a n | .reduceMin c a n | .argmax c a n | .argmin c a n => c.wf && a.wf && decide (0 < n)
  | .exp2 c slot a | .log2 c slot a | .reciprocal c slot a | .reciprocalSquareRoot c slot a => c.wf && a.wf && decide (slot < 16)
  | .intervalFunction c slot func a => c.wf && a.wf && decide (slot < 16 ∧ func < 256)
  | .softmax c e r a n => c.wf && a.wf && decide (e < 16 ∧ r < 16 ∧ 0 < n)
  | .layerNormalisation c r eps a g b n => c.wf && a.wf && g.wf && b.wf && decide (r < 16 ∧ eps < 2 ^ 32 ∧ 0 < n)
  | .mac _ _ _ _ it | .msu _ _ _ _ it | .macz _ _ _ _ it | .msuz _ _ _ _ it | .stacc _ _ _ it | .move _ _ _ _ it => itemWf it
  | .sigArithmeticShift _ _ _ _ n _ it | .sigLogicalShift _ _ _ _ n _ it => decide (n < 64) && itemWf it
  | .sigAdd _ _ _ _ _ it | .sigSub _ _ _ _ _ it | .sigAnd _ _ _ _ _ it | .sigOr _ _ _ _ _ it | .sigXor _ _ _ _ _ it => itemWf it
  | .setag _ _ _ _ _ it | .in_ _ _ _ _ it | .out _ _ _ _ it | .br _ _ _ it | .brz _ _ _ _ it | .brnz _ _ _ _ it
  | .waitbeat _ _ it => itemWf it
  | .repeat _ n _ it => decide (1 ≤ n ∧ n ≤ 65536) && itemWf it
  | .fecDescriptor _ k it => decide (k < 16) && itemWf it
  | .fecResultEmit _ k => decide (k < 2 ^ 12)
  | .flitSend _ e ecc => e.all OutFlit.wf && ecc.wf 4
  | .flitForward _ _ ecc => ecc.wf 4
  | .flitArrive a ecc => ecc.wf 8 && match a with
    | .port _ => ecc.wf 4
    | .coreStore _ e _ => e.wf
    | .mover _ e _ => e.wf
  | .descriptorPost _ off it _ => decide (off % 64 = 0 ∧ off + 64 ≤ 0x180000) && itemWf it
  | .feed _ scales _ => scalesWf scales
  | .load _ scales _ => scales.all scalesWf
  | .lineCacheRequest _ r _ _ => r.all LcReq.wf
  | .doorbell src _ => match src with
    | .vf n => decide (n < 1024)
    | .node n o => decide (n < 4096 ∧ o < 1024)
  | .acceptAttempt q w => decide (q < 2 ^ 20 ∧ w < 2 ^ 64)
  | .submissionEntryRead q _ _ | .acceptanceRecordAck q | .itemRelease q | .commit q | .sweep q => decide (q < 2 ^ 20)
  | .itemFinish q n => decide (q < 2 ^ 20 ∧ n < 2 ^ 48)
  | .effectLogWrite q n _ e => decide (q < 2 ^ 20 ∧ n < 2 ^ 48) && e.wf
  | .pendingEntryEnd _ _ _ _ data _ => decide (data.length ≤ 256)
  | .frameReceive _ f => f.wf
  | .txRingProdWrite _ _ slots _ => slots.all fun x => decide (x.length = 256)
  | .read i | .write i | .atomic i | .inv i | .readRsp i | .writeAck i | .invAck i | .atomicRsp i | .nack i | .probe i | .probeAck i | .spdm i => i.wf
  | .replayEntryFree _ epoch gen queue => decide (epoch < 2 ^ 32 ∧ gen < 2 ^ 16 ∧ queue < 2 ^ 20)
  | .atsTranslation x _ => decide (x.fn < 1024 ∧ x.page < 2 ^ 52 ∧ x.tr < 2 ^ 52)
  | .atsInvalidate _ page n => decide (page < 2 ^ 52 ∧ n < 2 ^ 52)
  | .errorDetect e => match e with
    | .cell _ _ _ _ it _ => itemWf it
    | _ => true
  | .anchorSet cert => decide (cert.length ≤ 2048)
  | .samplePreload pins => decide (pins < 2 ^ 1024)
  | _ => true

end Sys2Proof
end

