-- ==== Sys2Proof/Safety.lean ====
section
/-!
DEFINITION. The terms the statements use: frames over the parts of the state, what a step must never break, and what a safe run is.
-/
namespace Sys2Proof

/-- The key of a field of unit `u`, repeat index `i`. -/
abbrev Fld.at_ (f : Fld) (u : Nat := 0) (i : Nat := 0) : FKey := ⟨f.reg, f.lo, u, i⟩

/-- Bytes of a memory outside `[a, a + n)` read as before. -/
def Mem.keptOutside (m m' : Mem) (a n : Nat) : Prop := ∀ b, b < a ∨ a + n ≤ b → m'.read b = m.read b

namespace Machine

/-- No register field changed but those listed. -/
def State.regsBut (s t : State) (ks : List FKey) : Prop := ∀ k, k ∉ ks → t.regs.find k = s.regs.find k

/-- Nothing of the state changed but the listed register fields. -/
def State.onlyRegs (s t : State) (ks : List FKey) : Prop := t = { s with regs := t.regs } ∧ s.regsBut t ks

/-- The byte memories are in canonical form. -/
def State.memOk (s : State) : Bool := Mem.wf s.coreStore && Mem.wf s.clusterStore && Mem.wf s.mem.hbm

/-- What every step keeps: the byte memories in canonical form, and every waiting command well formed. -/
def State.Inv (s : State) : Prop := s.memOk = true ∧ ∀ c ∈ s.pending, c.wf = true

/-- A safe run: no step of it stops. -/
def Safe (s : State) (n : Nat) : Prop := ∃ t, Sys2Proof.core.run n s = .next t

end Machine
end Sys2Proof
end

