-- ==== Sys2Proof/Certificates/Slice0/Obligations.lean ====
section
/-!
DEFINITION. The statements about the model, in the order of the opcode table. A statement names the rules it rests on; the log entries are
those of notes/assumptions.
-/
open Sys2Proof Sys2Proof.Machine

/-- With a command at the front of the queue, a step is that command's effect on the state whose queue is the rest. With none waiting, one
period of REF_CLK passes (log entry 4): elapsed time moves on by 6.4 ns, the time counter by 6.4 ns scaled by FREQ unless POR_N or a
thermal trip holds the package in reset (R412), a context that is resident, serves no glade and whose sites are all stalled keeps the time
since when, every other has none, and nothing else changes. -/
def Obligations.StepRunsFrontCommand : Prop :=
  (∀ (c : Instr) (rest : List Instr) (s : State), s.pending = c :: rest → step s = exec c { s with pending := rest }) ∧
  (∀ s : State, s.pending = [] → s.boot.phase = .por ∨ s.boot.phase = .tripped → step s = .next { s with elapsed := s.elapsed + 32 }) ∧
  (∀ s : State, s.pending = [] → s.boot.phase ≠ .por → s.boot.phase ≠ .tripped →
    let u : State := { s with elapsed := s.elapsed + 32, count := (s.count + 32 * ((2 ^ 16 * 10 ^ 9 : Int) + s.freq)).toNat }
    ∃ t, step s = .next t ∧ t = { u with sched := { u.sched with ctxs := t.sched.ctxs } } ∧
      ∀ k, t.ctx k = (s.ctx k).map fun c => { c with stall :=
        if c.res = .resident ∧ c.kind ≠ .glade ∧ (s.ctxSites c).all u.siteStalled then some (c.stall.getD u.elapsed) else none })

/-- Every command answers a next state in every state: none of the 274 commands faults or is refused. -/
def Obligations.NoCommandStops : Prop :=
  ∀ (c : Instr) (s : State), ∃ t, exec c s = .next t

/-- From every state that holds the invariant, a step leaves a state that holds it: core store, cluster store and HBM list their bytes in
canonical form (addresses strictly rising, no byte 0), and every waiting command is well formed. -/
def Obligations.StepKeepsInvariant : Prop :=
  ∀ s t : State, s.Inv → step s = .next t → t.Inv

/-- The state after reset holds the invariant that every step keeps, waits for nothing, and stands at the first boot stage. -/
def Obligations.ResetHoldsInvariant : Prop :=
  State.reset.Inv ∧ State.reset.pending = [] ∧ State.reset.boot.phase = .stages ∧ State.reset.stage = 0

/-- A write of BAR 0 of any size or alignment other than an aligned 64 or 32 bits changes nothing, and such a read returns 0 (R6). A write
to an unassigned offset outside the MSI-X table and the recovery buffer changes nothing, and a read of one returns 0 (R9). No write of a
register changes an ro or wo field of it through its access code (R7, R9). -/
def Obligations.IgnoredAccesses : Prop :=
  (∀ (addr size : Nat) (data : Word) (s : State), ¬ (size = 8 ∧ addr % 8 = 0) → ¬ (size = 4 ∧ addr % 4 = 0) →
    exec (.registerWrite .bar0 addr size data) s = .next s ∧ s.readBar0 addr size = 0) ∧
  (∀ (addr size : Nat) (data : Word) (s : State), bar0Reg (addr / 8 * 8) = none →
    ¬ (0x302000 ≤ addr ∧ addr < 0x303000) → ¬ (0x8000 ≤ addr ∧ addr < 0x10000) →
    exec (.registerWrite .bar0 addr size data) s = .next s ∧ s.readBar0 addr size = 0) ∧
  (∀ (r : RegName) (u i data mask : Nat) (s : State), ∀ f ∈ r.fields, f.acc = .ro ∨ f.acc = .wo →
    (s.writeFields r u i data mask).rd f u i = s.rd f u i)

/-- REGISTER_WRITE completes: a write of BAR 0 in a ready package, of 64 bits or of an aligned 32-bit half. In a register that has no command of
its own, each rw, rws and rwl field that lies in the addressed part takes the value given, by the clamp of its field table, unless the field
is held back; each w1c field loses the bits written as 1; a field outside the addressed part, and an ro or wo field, keeps its value; and
nothing but those fields changes (R6, R7). HST_CTRL, the shapers and the gate control also bring up to date what waits on them, and
WOR_NODE_ROUTE sets the route of the selected node. A 64-bit write of a register that has a command is that command. -/
def Obligations.RegisterWriteSetsFields : Prop :=
  (∀ (addr size : Nat) (data : Word) (s : State) (r : RegName) (u i mask : Nat),
    s.managed = true → bar0Reg (addr / 8 * 8) = some (r, u, i) → writeMask addr size = some mask →
    (∀ w, s.command r u (s.shownIx r i) w = none) → r ≠ .WOR_NODE_ROUTE →
    let j := s.shownIx r i
    ∃ t, exec (.registerWrite .bar0 addr size data) s = .next t ∧
      s.regsBut t (r.fields.map fun f => f.at_ u j) ∧
      t = { s with regs := t.regs, rad := t.rad, host := t.host } ∧
      (r ≠ .HST_CTRL → t.host = s.host) ∧ (r ≠ .RAD_Q_CBS ∧ r ≠ .RAD_Q_GATE_CTRL → t.rad = s.rad) ∧
      ∀ f ∈ r.fields,
        let m := bitsAt mask f.lo f.w
        let given := bitsAt (writeData addr size data) f.lo f.w &&& m
        let v := f.fit ((given ||| (s.rd f u j &&& (2 ^ f.w - 1 - m))) &&& f.named j)
        (f.acc = .ro ∨ f.acc = .wo ∨ m = 0 → t.rd f u j = s.rd f u j) ∧
        (f.acc = .rw ∨ f.acc = .rws ∨ f.acc = .rwl → m ≠ 0 → t.rd f u j = if s.ignores f u j v then s.rd f u j else v % 2 ^ f.w) ∧
        (f.acc = .w1c → m ≠ 0 → t.rd f u j = (s.rd f u j &&& (2 ^ f.w - 1 - given)) % 2 ^ f.w)) ∧
  (∀ (addr : Nat) (data : Word) (s : State) (u i : Nat), s.managed = true → addr % 8 = 0 →
    bar0Reg addr = some (.WOR_NODE_ROUTE, u, i) →
    ∃ t, exec (.registerWrite .bar0 addr 8 data) s = .next t ∧ (t.dest (s.rd R.WOR_NODE_SEL.NODE)).route = data.toNat % 2 ^ 16) ∧
  (∀ (addr : Nat) (data : Word) (s : State) (r : RegName) (u i : Nat) (o : Host.Outcome State Fault Refusal), s.managed = true →
    addr % 8 = 0 → bar0Reg addr = some (r, u, i) → (∃ f ∈ r.fields, f.acc ≠ .ro) → s.command r u (s.shownIx r i) data = some o →
    exec (.registerWrite .bar0 addr 8 data) s = o)

/-- The one lock bit of the spec is LOCK of SEC_CTRL. While it is 1, no write of any address, size and data in BAR 0 that reaches the register
clears it; a power-on reset and a warm reset by the pin of a running package do. -/
def Obligations.LockBitHolds : Prop :=
  (∀ (addr size : Nat) (data : Word) (s : State) (u i : Nat), s.rd R.SEC_CTRL.LOCK = 1 →
    bar0Reg (addr / 8 * 8) = some (.SEC_CTRL, u, i) →
    ∃ t, exec (.registerWrite .bar0 addr size data) s = .next t ∧ t.rd R.SEC_CTRL.LOCK = 1) ∧
  (∀ s : State, ∃ t, exec .powerOnReset s = .next t ∧ t.rd R.SEC_CTRL.LOCK = 0) ∧
  (∀ (lost : BitVec 8) (s : State), s.boot.phase = .stages →
    ∃ t, exec (.warmReset true lost) s = .next t ∧ t.rd R.SEC_CTRL.LOCK = 0)

/-- Registers of each kind read, in the state after reset, the values their tables give: the part number and shape of the package, the port
enables of the dies (0x7 less the absent ports), the route and state of a tensor engine, the owner of a site, the mover limits, the
policy of the scheduler, of errors, of the host link and of power. -/
def Obligations.ResetRegisterValues : Prop :=
  let v (r : RegName) (u : Nat) : Nat := State.reset.view r u 0
  v .GLB_PART 0 = 0x00000A1701415A38 ∧ v .GLB_SHAPE 0 = 0x22489828 ∧
  v .ZIU_CTRL 0 = 5 ∧ v .ZIU_CTRL 3 = 7 ∧ v .ZIU_CTRL 7 = 3 ∧
  v .TNS_ROUTE 0 = 0xFF000008 ∧ v .TNS_STATE 0 = 0x300 ∧ v .STR_SITE 5 = 0x7FF ∧
  v .MOV_LIMITS 0 = 0x20020100C30 ∧ v .SIG_MODE 0 = 0x215 ∧ v .GLB_SENT_CTRL 0 = 0x6C ∧
  v .SCH_CTRL 0 = 0x1400A007D0 ∧ v .SCH_LEND_CTRL 0 = 0x60A01 ∧ v .RAD_CAPACITY 0 = 384 ∧
  v .WOR_CTRL 0 = 0x320000 ∧ v .ERR_CTRL 0 = 0x180040 ∧ v .HST_CTRL 0 = 0x1000A ∧ v .MGT_STATUS 0 = 0 ∧
  v .GLB_PWR_CTRL 0 = 0x76C00555558

/-- ZIURA_FLIT_ARRIVE: a flit carries its sequence in its triple (source die, destination die, virtual channel). The one that is next goes to the
units of the destination die, followed by the held flits that continue the sequence without a gap, in order, until the next is missing. One
that comes early is held; one delivered before, or held already, is dropped. The flits held stay above the next sequence, in order. No
other triple and no other die's units change, and beside the mesh only what the codes of its two crossings, toward Ziura and from it,
found is counted, recorded and failed: with nothing found, only the mesh changes, and but for a header error of a flit for a core, which is
contained, only registers, records, interrupts and failed items. A flit on an order that R33 does not define for its pair, or that its
source has not given, does not come about. -/
def Obligations.ZiuraFlitsInOrder : Prop :=
  ∀ (f : ZFlit) (half : Fin 2) (ecc : EntryEcc) (from_ : Fin 2) (sent : EntryEcc) (s : State),
    let k := (f.src.val, f.dst.val, f.vc.val)
    let tr (s : State) := s.ziu.triples.findD k {}
    let out (s : State) (d : Nat) := s.ziu.released.findD d []
    let hit (e : EntryEcc) (h : ZFlit) : ZFlit := match e with
      | .payload w => { h with words := h.words.set w 0 }
      | .tagWord => { h with words := [] }
      | _ => h
    let g := hit ecc (hit sent f)
    (s.sent f = false → exec (.ziuraFlitArrive f half ecc from_ sent) s = .next s) ∧
    (s.sent f = true → (tr s).held.Pairwise (fun a b => a.seq < b.seq) → (∀ h ∈ (tr s).held, (tr s).next < h.seq) →
    ∃ t, exec (.ziuraFlitArrive f half ecc from_ sent) s = .next t ∧
      ((ecc ≠ .tagWord ∧ sent ≠ .tagWord) ∨ f.core = none →
        t = { s with ziu := t.ziu, regs := t.regs, err := t.err, host := t.host, failed := t.failed }) ∧
      (ecc = .clean → sent = .clean → t = { s with ziu := t.ziu }) ∧
      (∀ k', k' ≠ k → t.ziu.triples.find k' = s.ziu.triples.find k') ∧ (∀ d, d ≠ f.dst.val → out t d = out s d) ∧
      (tr t).held.Pairwise (fun a b => a.seq < b.seq) ∧ (∀ h ∈ (tr t).held, (tr t).next < h.seq) ∧
      (f.seq < (tr s).next ∨ (∃ h ∈ (tr s).held, h.seq = f.seq) → tr t = tr s ∧ out t f.dst = out s f.dst) ∧
      ((tr s).next < f.seq ∧ (∀ h ∈ (tr s).held, h.seq ≠ f.seq) →
        g ∈ (tr t).held ∧ (tr t).held.length = (tr s).held.length + 1 ∧ (tr t).next = (tr s).next ∧ out t f.dst = out s f.dst) ∧
      (f.seq = (tr s).next → ∃ run, out t f.dst = out s f.dst ++ g :: run ∧ (tr s).held = run ++ (tr t).held ∧
        (g :: run).map (fun h => h.seq) = List.range' f.seq (run.length + 1) ∧ (tr t).next = f.seq + (run.length + 1)))

/-- ZIURA_LINK_RETRY at an up port adds one to its retry count, saturating. ZIURA_PORT_DOWN after sixteen retries within 1 ms takes an up
port down at both ends and makes new orders due. ZIURA_REROUTE gives every die in service the first order of R33 whose path is clear, with
REACH for what is reached. PORT_EN_WRITE clearing the bit of an up port takes it down, setting it on a port that is down, at the second
end, starts training. ZIURA_TRAINING_END ends training with both ends up or both down. ZIU_VC1_RESERVE_WRITE sets the reservation of each
port that exists, at most 0x80, while no glade holds an image, and is ignored otherwise (R41). -/
def Obligations.ZiuraLinks : Prop :=
  let st := R.ZIU_PORT_STATE.STATE
  (∀ (d : Die) (p : Fin 3) (s : State), s.rd st d p = 1 →
    ∃ t, exec (.ziuraLinkRetry d p) s = .next t ∧ t = { s with regs := t.regs, ziu := t.ziu } ∧
      s.regsBut t [R.ZIU_PORT_RETRY.COUNT.at_ d p] ∧
      t.rd R.ZIU_PORT_RETRY.COUNT d p = min (s.rd R.ZIU_PORT_RETRY.COUNT d p + 1) (2 ^ 32 - 1) ∧
      (t.ziu.retries.findD (d.val, p.val) []).head? = some s.elapsed) ∧
  (∀ (d : Die) (p : Fin 3) (near far : List ZFlit) (s : State) (e q : Nat), s.rd st d p = 1 → ziuFarEnd d p = some (e, q) →
    16 ≤ ((s.ziu.retries.findD (d.val, p.val) []).filter fun t => s.elapsed < t + millis 1).length →
    ∃ t, exec (.ziuraPortDown d p near far) s = .next t ∧ t.rd st d p = 2 ∧ t.rd st e q = 2 ∧ t.ziu.due = true) ∧
  (∀ s : State, s.ziu.due = true → s.partitioned = false →
    ∃ t, exec .ziuraReroute s = .next t ∧ t = { s with regs := t.regs, ziu := t.ziu } ∧ t.ziu.due = false ∧
      ∀ d e, d < 8 → e < 8 → s.dieUp d → s.dieUp e → d ≠ e →
        t.rd (R.ZIU_ROUTE.REACH e) d = 1 ∧ (s.chooseOrder d e).map ZOrder.code = some (t.rd (R.ZIU_ROUTE.ORDER e) d)) ∧
  (∀ (d : Die) (v : Word) (s : State) (p : Fin 3), s.managed = true → (ziuPartner d p).isSome → s.rd st d p = 1 →
    s.flag (R.ZIU_CTRL.PORT_EN p) d = true → v.toNat = s.view .ZIU_CTRL d 0 - 2 ^ p.val →
    ∃ t, exec (.portEnWrite d v) s = .next t ∧ t.rd (R.ZIU_CTRL.PORT_EN p) d = 0 ∧ t.rd st d p = 2 ∧ t.ziu.due = true) ∧
  (∀ (d : Die) (v : Word) (s : State) (p : Fin 3) (e q : Nat), s.managed = true → ziuFarEnd d p = some (e, q) → s.rd st d p = 2 →
    s.flag (R.ZIU_CTRL.PORT_EN p) d = false → s.flag (R.ZIU_CTRL.PORT_EN q) e = true → s.dieUp d = true → s.dieUp e = true →
    (d.val, p.val) ∉ s.ziu.owed → (e, q) ∉ s.ziu.owed → (d.val, p.val) ∉ s.ziu.railOut → (e, q) ∉ s.ziu.railOut →
    v.toNat = s.view .ZIU_CTRL d 0 + 2 ^ p.val →
    ∃ t, exec (.portEnWrite d v) s = .next t ∧ t.rd (R.ZIU_CTRL.PORT_EN p) d = 1 ∧ t.rd st d p = 3 ∧ t.rd st e q = 3) ∧
  (∀ (d : Die) (p : Fin 3) (s : State) (e q : Nat), s.rd st d p = 3 → ziuFarEnd d p = some (e, q) →
    (∃ t, exec (.ziuraTrainingEnd d p true) s = .next t ∧ t.rd st d p = 1 ∧ t.rd st e q = 1 ∧ t.ziu.due = true) ∧
    (∃ t, exec (.ziuraTrainingEnd d p false) s = .next t ∧ t.rd st d p = 2 ∧ t.rd st e q = 2 ∧ t.ziu.due = true)) ∧
  (∀ (d : Die) (v : Word) (s : State), s.managed = true →
    (s.gladeHeld = true → exec (.ziuVc1ReserveWrite d v) s = .next s) ∧
    (s.gladeHeld = false → ∃ t, exec (.ziuVc1ReserveWrite d v) s = .next t ∧
      s.onlyRegs t ((List.range 3).map fun p => (R.ZIU_VC1_RESERVE.RES p).at_ d) ∧
      ∀ p, p < 3 → (ziuPartner d p).isSome → t.rd (R.ZIU_VC1_RESERVE.RES p) d = min 0x80 (bitsAt v.toNat (8 * p) 8)))

/-- TENSOR_STEP of a running field at whose west edge no pass stands, with room at its south edge, takes every position inside the array one
cell on, drops those that have left the last cell and releases none: the item count stays. While a pass is being released and every block row
has its next position, a step lets that position enter after the others, with the number of the step counted from the first (R575). While a
position is missing or an output lane has no room, no step fires. PASS_RELEASE begins the pass at the west edge of a field when its granule
is aligned, its pass record valid and, where the pass changes banks, its load complete in every column; where that load is not complete, or
that of a pass turned away which fills the same bank, it holds the pass (R68, R576), and a pass that is not aligned or whose record is not
valid sets GRANULE_ALIGN (R76). A pass of a borrow context waits until all its FEED descriptors have completed (R368). FIELD_STOPPED stops a
stopping field that has drained and finished its loads (R79). No other field changes. -/
def Obligations.FieldsStepAndStop : Prop :=
  let key (p : PosSt) : Nat × Nat × Nat := (p.e, p.seq, p.age)
  let moved (f : FieldSt) : List (Nat × Nat × Nat) :=
    (f.inArray.filter fun p => p.age + 2 < f.rows + f.cols).map fun p => (p.e, p.seq, p.age + 1)
  (∀ (a : Site) (s : State) (f : FieldSt), s.fields.find a.val = some f → f.stopped = false → f.passOpen = false → f.discard = [] →
    f.west.findD 0 [] = [] → f.outRoom = true →
    ∃ t f', exec (.tensorStep a none) s = .next t ∧ t.fields.find a.val = some f' ∧ f'.t = f.t ∧ f'.inArray.map key = moved f ∧
      ∀ b, b ≠ a.val → t.fields.find b = s.fields.find b) ∧
  (∀ (a : Site) (s : State) (f : FieldSt) (g : FeedSeg), s.fields.find a.val = some f → f.stopped = false → f.passOpen = true → 0 < f.h →
    (f.west.findD 0 []).head? = some g → f.positionReady = true → f.outRoom = true →
    ∃ t f', exec (.tensorStep a none) s = .next t ∧ t.fields.find a.val = some f' ∧ f'.t = f.t + 1 ∧ f'.started = true ∧
      f'.inArray.map key = moved f ++ [(f.t, g.seq, 1)] ∧ ∀ b, b ≠ a.val → t.fields.find b = s.fields.find b) ∧
  (∀ (a : Site) (s : State) (f : FieldSt), s.fields.find a.val = some f → f.stopped = false → f.passOpen = true →
    (f.positionReady = false ∨ f.outRoom = false) →
    ∃ t, exec (.tensorStep a none) s = .next t ∧ t = { s with fields := t.fields } ∧ ∀ b, t.fields.find b = s.fields.find b) ∧
  (∀ (a : Site) (s : State) (f : FieldSt) (g : FeedSeg), s.fields.find a.val = some f → f.stopped = false → f.stopping = false →
    f.passOpen = false → f.discard = [] → (f.west.findD 0 []).head? = some g →
    (s.borrowAt f.anchorSite = true → f.passFed = false →
      ∃ t, exec (.passRelease a) s = .next t ∧ t = { s with fields := t.fields } ∧ t.fields.find a.val = some { f with hold := false } ∧
        ∀ b, b ≠ a.val → t.fields.find b = s.fields.find b) ∧
    (s.borrowAt f.anchorSite = false ∨ f.passFed = true →
    (g.granule % f.h = 0 ∧ s.flag R.TNS_PASSREC.VALID f.anchorSite f.rec_ = true →
      ∃ t f', exec (.passRelease a) s = .next t ∧ t.fields.find a.val = some f' ∧
        t = { s with fields := t.fields, det := { s.det with passes := t.det.passes } } ∧
        (∀ b, b ≠ a.val → t.fields.find b = s.fields.find b) ∧
        ((f.isSwap g.bank = true ∧ f.loadDone (f.swaps + 1) = false) ∨ (∃ e ∈ f.owed, e.2 = g.bank) → f' = { f with hold := true }) ∧
        ((f.isSwap g.bank = false ∨ f.loadDone (f.swaps + 1) = true) ∧ (∀ e ∈ f.owed, e.2 ≠ g.bank) →
          f'.passOpen = true ∧ f'.hold = false ∧ f'.bank = g.bank ∧ f'.granule = g.granule ∧ f'.passes = f.passes + 1 ∧
          f'.swaps = f.swaps + (if f.isSwap g.bank then 1 else 0) ∧ f'.prevBank = some g.bank)) ∧
    (g.granule % f.h ≠ 0 ∨ s.flag R.TNS_PASSREC.VALID f.anchorSite f.rec_ = false →
      ∃ t, exec (.passRelease a) s = .next t ∧ t.flag R.TNS_ERR.GRANULE_ALIGN f.anchorSite = true))) ∧
  (∀ (a : Site) (s : State) (f : FieldSt), s.fields.find a.val = some f → f.stopping = true → f.passOpen = false → f.inArray = [] →
    (∀ e ∈ f.taken, e.2 = 0) →
    ∃ t, exec (.fieldStopped a) s = .next t ∧ t = { s with fields := t.fields } ∧
      t.fields.find a.val = some { f with stopping := false, stopped := true } ∧
      ∀ b, b ≠ a.val → t.fields.find b = s.fields.find b)

/-- The column lane of an INT8 granule, after any 64 or fewer rows from an empty lane, holds the exact sum of the products of the two's
complement elements: it never overflows and drops nothing, and its partial is the leaf n = S, x = 0, s = 0. -/
def Obligations.Int8LaneIsExact : Prop :=
  ∀ (xs : List (BitVec 8 × BitVec 8)), xs.length ≤ 64 →
    let ln := xs.foldl (fun ln x => laneProduct .int8 0 0 0 0 ln x.1.toNat x.2.toNat) ({} : Lane)
    ln.s1 = (xs.map fun x => x.1.toInt * x.2.toInt).sum ∧ ln.t = false ∧ ln.flags = {} ∧
      ∀ sc0 sc1, ln.leaf .int8 0 sc0 sc1 = { n := (xs.map fun x => x.1.toInt * x.2.toInt).sum, x := 0, s := false }

/-- In exact mode a zero node leaves every node it is added to unchanged (R104); two nodes whose aligned sum fits 128 bits add to that sum at
the lower exponent with the sticky bits joined; and every addition, in either mode, ORs the special flags (R93). -/
def Obligations.ExactTreeAddition : Prop :=
  (∀ r : Node, nodeAdd true {} r = r ∧ nodeAdd true r {} = r) ∧
  (∀ l r : Node, ¬ (l.n = 0 ∧ l.s = false) → ¬ (r.n = 0 ∧ r.s = false) →
    let x := min l.x r.x
    let v := l.n * 2 ^ (l.x - x).toNat + r.n * 2 ^ (r.x - x).toNat
    (-(2 ^ 127) ≤ v ∧ v < 2 ^ 127) → nodeAdd true l r = { n := v, x := x, s := l.s || r.s, flags := l.flags.or r.flags }) ∧
  (∀ (exact : Bool) (l r : Node), (nodeAdd exact l r).flags = l.flags.or r.flags)

/-- Of each floating format FP32, BF16 and FP16, every code but the NaNs encodes back to itself from the value it stands for, and every NaN gives
the quiet NaN: no bit of a code is dropped. -/
def Obligations.FloatCodesRoundTrip : Prop :=
  ∀ f ∈ [FFmt.fp32, FFmt.bf16, FFmt.fp16], ∀ b : Nat, b < 2 ^ f.bits →
    (f.decode b ≠ .nan → f.toBits (f.decode b) = b) ∧ (f.decode b = .nan → f.toBits (f.decode b) = f.quietNan)

/-- COMBINING_NODE_ARRIVE takes the oldest node of its source, a stage that forwards it, a column of a field, or the node that core store
holds, in every engine that runs, or whose context is being stopped with a field that has not drained (R358), with room in its combining area
and no uncorrectable word there. A node that no split plan of its stream names sets COMB_PLAN (R127) and fails its item; one that a
deterministic reduction's plan names and that finds no sibling waits in the area, and the first node of a reduction in arrival order begins
its sum (R109); one that completes the root of a plan whose results are converted there leaves as the converted element. No other stage
changes but that which gave the node. An uncorrectable word sets ECC_UNCORR and stops the engine (R141). An engine that does not run, whose
area is full, or whose source has no node takes none. -/
def Obligations.CombiningNodesArrive : Prop :=
  let room (s : State) (a : Site) : Prop := s.combRuns a = true ∧ s.rd R.VEC_STATE.COMB_USED a < s.rd R.VEC_COMB_CFG.SIZE a
  let planOf (s : State) (a : Site) (v : WaitNode) : Option SplitPlan :=
    (s.combOf a).plans.find? fun p => p.stream = v.tag.stream && p.nodes.contains (v.granule, v.level)
  let joined (s : State) (a : Site) (p : SplitPlan) (v : WaitNode) : WaitNode × Bool × List WaitNode :=
    combine ((OpFormat.ofCode (s.rd R.COR_NUMCFG.FORMAT a)).getD .int8).exact p (p.rootLevel + 1) { v with reduction := p.reduction }
      (s.combOf a).waiting
  let others (t u : State) (a : Site) : Prop :=
    t = { u with regs := t.regs, comb := t.comb } ∧ ∀ b, b ≠ a.val → t.combOf b = u.combOf b
  (∀ (a : Site) (src : NodeSrc) (ecc : Ecc) (s : State),
    s.combRuns a = false ∨ s.rd R.VEC_COMB_CFG.SIZE a ≤ s.rd R.VEC_STATE.COMB_USED a ∨ s.sourceNode a src = none →
    exec (.combiningNodeArrive a src ecc) s = .next s) ∧
  (∀ (a k : Site) (ecc : Ecc) (s : State) (v : WaitNode) (rest : List WaitNode), room s a → ecc ≠ .uncorrectable → a ≠ k →
    (s.combOf k).forward = v :: rest →
    ∃ t, exec (.combiningNodeArrive a (.stage k) ecc) s = .next t ∧ (t.combOf k).forward = rest) ∧
  (∀ (a b : Site) (col : Fin 512) (ecc : Ecc) (s : State) (f : FieldSt) (r : FieldResult) (rest : List FieldResult), room s a →
    ecc ≠ .uncorrectable → s.fields.find b.val = some f → f.out.findD col.val [] = r :: rest →
    ∃ t f', exec (.combiningNodeArrive a (.field b col) ecc) s = .next t ∧ t.fields.find b.val = some f' ∧ f'.out.findD col.val [] = rest) ∧
  (∀ (a : Site) (src : NodeSrc) (s u : State) (v : WaitNode), room s a → s.sourceNode a src = some (v, u) → planOf u a v = none →
    ∃ t, exec (.combiningNodeArrive a src .clean) s = .next t ∧ t.flag R.VEC_ERR.COMB_PLAN a = true ∧ t.comb = u.comb ∧
      t.fields = u.fields ∧ (∀ it, v.item = some it → (t.failed.find it).isSome)) ∧
  (∀ (a : Site) (src : NodeSrc) (s u : State) (v w : WaitNode) (wait : List WaitNode) (p : SplitPlan), room s a →
    s.sourceNode a src = some (v, u) → planOf u a v = some p → p.unaligned = false → u.flag R.COR_NUMCFG.ARRIVAL a = false →
    joined u a p v = (w, false, wait) →
    ∃ t, exec (.combiningNodeArrive a src .clean) s = .next t ∧ t.combOf a = { u.combOf a with waiting := wait ++ [w] } ∧ others t u a) ∧
  (∀ (a : Site) (src : NodeSrc) (s u : State) (v : WaitNode) (p : SplitPlan), room s a →
    s.sourceNode a src = some (v, u) → planOf u a v = some p → p.unaligned = true ∨ u.flag R.COR_NUMCFG.ARRIVAL a = true →
    (∀ x ∈ (u.combOf a).arrival, x.1.sameElement { v with reduction := p.reduction } = false) → p.nodes.length ≠ 1 →
    ∃ t, exec (.combiningNodeArrive a src .clean) s = .next t ∧
      t.combOf a = { u.combOf a with arrival := (u.combOf a).arrival ++ [({ v with reduction := p.reduction }, 1)] } ∧ others t u a) ∧
  (∀ (a : Site) (src : NodeSrc) (s u : State) (v w : WaitNode) (wait : List WaitNode) (p : SplitPlan), room s a →
    s.sourceNode a src = some (v, u) → planOf u a v = some p → p.unaligned = false → u.flag R.COR_NUMCFG.ARRIVAL a = false →
    joined u a p v = (w, true, wait) → p.final = true → p.slice = none → p.vector = none →
    let form := OutFormat.ofCode (u.rd R.COR_NUMCFG.OUT_FMT a)
    let code := convertRoot form (RoundMode.ofCode (u.rd R.COR_NUMCFG.ROUND a)) (u.flag R.COR_NUMCFG.SAT a)
      (ditherU (u.rd R.COR_SR_SEED.SEED a) p.tensor w.row w.col) w.node
    ∃ t, exec (.combiningNodeArrive a src .clean) s = .next t ∧
      t.combOf a = { u.combOf a with waiting := wait, out := (u.combOf a).out ++ [({ w.tag with granule := p.rootGranule }, code, w.row, w.col, form.width)] } ∧
      others t u a) ∧
  (∀ (a : Site) (src : NodeSrc) (s u : State) (v : WaitNode), room s a → s.sourceNode a src = some (v, u) →
    ∃ t, exec (.combiningNodeArrive a src .uncorrectable) s = .next t ∧ t.flag R.VEC_ERR.ECC_UNCORR a = true ∧
      t.flag R.VEC_STATE.STOPPED a = true)

/-- Each elementwise operation of a running vector engine whose operands read clean writes, for each of the 128 elements, the IEEE 754 result
of the operation on the elements of its operands, rounded to BF16 where the destination is BF16. VEC_SUB adds the negated operand, VEC_FMA
rounds once, VEC_SELECT takes the first operand where the condition holds what a compare writes for true. -/
def Obligations.VectorElementwise : Prop :=
  ∀ (c : VCtl) (s : State), s.flag R.VEC_STATE.STOPPED c.site = false → c.ecc = .clean → c.store = .clean →
    let out (f : FVal → FVal → FVal) (a b : VOpnd) := s.vwrite c.site c.dst
      (List.zipWith (fun x y => resultBits c.dst.bf16 (f x y)) (s.vvals c.site a 128) (s.vvals c.site b 128))
    let out1 (f : FVal → FVal) (a : VOpnd) := s.vwrite c.site c.dst ((s.vvals c.site a 128).map fun x => resultBits c.dst.bf16 (f x))
    (∀ a b, exec (.vecAdd c a b) s = .next (out FFmt.fp32.add a b)) ∧
    (∀ a b, exec (.vecSub c a b) s = .next (out (fun x y => FFmt.fp32.add x y.negate) a b)) ∧
    (∀ a b, exec (.vecMul c a b) s = .next (out FFmt.fp32.mul a b)) ∧
    (∀ a b, exec (.vecMin c a b) s = .next (out FVal.min a b)) ∧
    (∀ a b, exec (.vecMax c a b) s = .next (out FVal.max a b)) ∧
    (∀ a, exec (.vecAbs c a) s = .next (out1 FVal.abs a)) ∧
    (∀ a, exec (.vecNeg c a) s = .next (out1 FVal.negate a)) ∧
    (∀ a, exec (.vecFormatConversion c a) s = .next (out1 id a)) ∧
    (∀ a b d, exec (.vecFma c a b d) s = .next (s.vwrite c.site c.dst
      (List.zipWith (fun xy z => resultBits c.dst.bf16 (FFmt.fp32.fma xy.1 xy.2 z)) ((s.vvals c.site a 128).zip (s.vvals c.site b 128))
        (s.vvals c.site d 128)))) ∧
    (∀ r a b, exec (.vecCompare c r a b) s = .next (s.vwrite c.site c.dst
      (List.zipWith (fun x y => (Config.compareCode (r.holds x y)).toNat) (s.vvals c.site a 128) (s.vvals c.site b 128)))) ∧
    (∀ k a b, exec (.vecSelect c k a b) s = .next (s.vwrite c.site c.dst
      (List.zipWith (fun w xy => resultBits c.dst.bf16 (if w = (Config.compareCode true).toNat then xy.1 else xy.2))
        (s.vread c.site k 128) ((s.vvals c.site a 128).zip (s.vvals c.site b 128)))))

/-- A vector of up to 128 codes of the destination's width written to a vector register, or to core store within its bounds, reads back as
written. A write to a register changes no byte of any store and no other register; a write to core store changes no register and no byte
outside the vector. No other part of the state changes but the time at which the engine last wrote, which its stalls are counted from. -/
def Obligations.VectorWriteReadsBack : Prop :=
  ∀ (s : State) (site : Site) (o : VOpnd) (vs : List Nat), vs.length ≤ 128 →
    (∀ v ∈ vs, v < if o.bf16 then 2 ^ 16 else 2 ^ 32) →
    let t := s.vwrite site o vs
    (∀ r : Fin 32, o.loc = .reg r → (s.vreg site r).length = 128 →
      t.vread site o vs.length = vs ∧ t = { s with eng := { s.eng with vregs := t.eng.vregs, vecAt := s.eng.vecAt.put site s.elapsed } } ∧
      ∀ k : Nat × Nat, k ≠ (site.val, r.val) → t.eng.vregs.find k = s.eng.vregs.find k) ∧
    (∀ a : Nat, o.loc = .store a → Mem.wf s.coreStore = true → a + vs.length * (if o.bf16 then 2 else 4) ≤ coreStoreSize →
      t.vread site o vs.length = vs ∧ t = { s with coreStore := t.coreStore, eng := { s.eng with vecAt := s.eng.vecAt.put site s.elapsed } } ∧
      s.coreStore.keptOutside t.coreStore (coreAddr site a) (vs.length * (if o.bf16 then 2 else 4)))

/-- A reduction of a running engine whose operands read clean writes its one result to element 0 (log entry 22): the canonical binary64 sum
rounded once, the extreme, or the index of the extreme; the sum of one piece of a reduction that spans several cores, of its 2^level
elements with +0 for those that are missing, goes to the combining stage unrounded (R124); of two elements that are no NaN REDUCE_MAX gives the larger. A table function, SOFTMAX or LAYER_NORMALISATION whose
slots hold valid headers of the functions it needs writes the vector of results; one that names another slot writes no result, sets
TABLE_INVALID, and fails its item, the one that its queue's oldest item and SEQ name (R170), by a PROGRAM record (R133). -/
def Obligations.VectorReductionsAndTables : Prop :=
  (∀ (c : VCtl) (s : State) (a : VOpnd) (n : Nat), s.flag R.VEC_STATE.STOPPED c.site = false → c.ecc = .clean → c.store = .clean →
    let one (f : List FVal → Nat) := s.vwrite c.site c.dst [f (s.vvals c.site a n)]
    exec (.reduceSum c a n none) s = .next (one fun xs => if c.dst.bf16 then FFmt.bf16.toBits (FFmt.bf16.convert (vectorSum xs))
      else FFmt.fp32.toBits (FFmt.fp32.convert (vectorSum xs))) ∧
    (∀ p : SumPiece, ∃ t v, exec (.reduceSum c a n (some p)) s = .next t ∧
      t = { s with comb := t.comb, eng := { s.eng with vecAt := s.eng.vecAt.put c.site s.elapsed } } ∧
      (t.comb.findD c.site {}).forward = (s.comb.findD c.site {}).forward ++ [v] ∧
      v.vec = some (vectorSum ((s.vvals c.site a n).take (2 ^ p.level) ++ List.replicate (2 ^ p.level - n) (.fin false 0 FFmt.fp64.emin))) ∧
      v.item = s.vecItem c ∧ v.granule = p.first ∧ v.level = p.level ∧ v.tag.stream = p.stream) ∧
    exec (.reduceMax c a n) s = .next (one fun xs => resultBits c.dst.bf16 (foldExtreme FVal.max xs)) ∧
    exec (.reduceMin c a n) s = .next (one fun xs => resultBits c.dst.bf16 (foldExtreme FVal.min xs)) ∧
    exec (.argmax c a n) s = .next (one (argExtreme false)) ∧ exec (.argmin c a n) s = .next (one (argExtreme true))) ∧
  (∀ x y : FVal, x.isNan = false → y.isNan = false → foldExtreme FVal.max [x, y] = (if x.lt true y then y else x)) ∧
  (∀ (c : VCtl) (s : State) (slot : Nat) (a : VOpnd), s.flag R.VEC_STATE.STOPPED c.site = false → c.ecc = .clean → c.store = .clean →
    (∀ func h, s.tableSlot slot func = some h →
      let t := s.vwrite c.site c.dst ((s.vvals c.site a 128).map fun x => resultBits c.dst.bf16 (tableEval s.eng.ftabSet h x))
      (func = 1 → exec (.exp2 c slot a) s = .next t) ∧ (func = 2 → exec (.log2 c slot a) s = .next t) ∧
      (func = 3 → exec (.reciprocal c slot a) s = .next t) ∧ (func = 4 → exec (.reciprocalSquareRoot c slot a) s = .next t) ∧
      exec (.intervalFunction c slot func a) s = .next t) ∧
    (∀ (r : Nat) (he hr : FtabHdr) (n : Nat), s.tableSlot slot 1 = some he → s.tableSlot r 3 = some hr →
      exec (.softmax c slot r a n) s = .next (s.vwrite c.site c.dst
        ((softmaxVals s.eng.ftabSet he hr (s.vvals c.site a n)).map (resultBits c.dst.bf16)))) ∧
    (∀ (hr : FtabHdr) (g b : VOpnd) (n eps : Nat), s.tableSlot slot 4 = some hr →
      exec (.layerNormalisation c slot eps a g b n) s = .next (s.vwrite c.site c.dst
        ((layerNormVals s.eng.ftabSet hr (FFmt.fp32.decode eps) (s.vvals c.site a n) (s.vvals c.site g n) (s.vvals c.site b n)).map
          (resultBits c.dst.bf16)))) ∧
    (let invalid (x : Instr) : Prop := (∃ t, exec x s = .next t ∧ t.flag R.VEC_ERR.TABLE_INVALID c.site = true ∧ t.eng = s.eng ∧
        t.coreStore = s.coreStore ∧ ∀ it, s.vecItem c = some it → (t.failed.find it).isSome);
      (s.tableSlot slot 1 = none → invalid (.exp2 c slot a) ∧ ∀ r n, invalid (.softmax c slot r a n)) ∧
      (s.tableSlot slot 2 = none → invalid (.log2 c slot a)) ∧
      (s.tableSlot slot 3 = none → invalid (.reciprocal c slot a) ∧ ∀ r n, invalid (.softmax c r slot a n)) ∧
      (s.tableSlot slot 4 = none → invalid (.reciprocalSquareRoot c slot a) ∧ ∀ eps g b n, invalid (.layerNormalisation c slot eps a g b n)) ∧
      ∀ func, s.tableSlot slot func = none → invalid (.intervalFunction c slot func a))) ∧
  (∀ (s : State) (slot func : Nat) (h : FtabHdr), s.eng.ftab.find slot = some h →
    s.tableSlot slot func = if 1 ≤ h.kind ∧ h.kind ≤ 5 ∧ h.func = func then some h else none)

/-- For every operation of the vector engine but COMBINING_NODE_ARRIVE: a stopped engine runs none; an uncorrectable word of its registers
stops the engine, sets ECC_UNCORR and fails the item, with no result; an uncorrectable word of core store under an operand there sets CS_UNCORR
and fails the item, with no result. A corrected word of the registers is counted and the operation runs. For every instruction of the signal
engine: an uncorrectable word stops the engine, sets ECC_UNCORR and fails the item. -/
def Obligations.EngineCodeErrors : Prop :=
  let vector (c : VCtl) (a b d : VOpnd) (r : VRel) (n slot slot2 func eps : Nat) (piece : Option SumPiece) : List Instr :=
    [.vecAdd c a b, .vecSub c a b, .vecMul c a b, .vecMin c a b, .vecMax c a b, .vecAbs c a, .vecNeg c a, .vecFormatConversion c a,
     .vecFma c a b d, .vecCompare c r a b, .vecSelect c a b d, .reduceSum c a n piece, .reduceMax c a n, .reduceMin c a n, .argmax c a n,
     .argmin c a n, .exp2 c slot a, .log2 c slot a, .reciprocal c slot a, .reciprocalSquareRoot c slot a, .intervalFunction c slot func a,
     .softmax c slot slot2 a n, .layerNormalisation c slot eps a b d n]
  let signal (e : SigEngine) (a b : SigOpnd) (d m n : Fin 16) (k : Nat) (v : SigVal) (f : AgField) (src : OutSrc) (tg : Fin 4096)
      (q : Bool) (it : ItemRef) : List Instr :=
    [.mac e a b .uncorrectable (some it), .msu e a b .uncorrectable (some it), .macz e a b .uncorrectable (some it),
     .msuz e a b .uncorrectable (some it), .stacc e a .uncorrectable (some it), .move e a b .uncorrectable (some it),
     .sigAdd e d m n .uncorrectable (some it), .sigSub e d m n .uncorrectable (some it), .sigAnd e d m n .uncorrectable (some it),
     .sigOr e d m n .uncorrectable (some it), .sigXor e d m n .uncorrectable (some it),
     .sigArithmeticShift e d m q k .uncorrectable (some it), .sigLogicalShift e d m q k .uncorrectable (some it),
     .setag e d f v .uncorrectable (some it), .in_ e a q .uncorrectable (some it), .out e src q .uncorrectable (some it),
     .br e tg .uncorrectable (some it), .brz e d tg .uncorrectable (some it), .brnz e d tg .uncorrectable (some it),
     .repeat e k .uncorrectable (some it), .waitbeat e .uncorrectable (some it)]
  (∀ (c : VCtl) (a b d : VOpnd) (r : VRel) (n slot slot2 func eps : Nat) (piece : Option SumPiece) (s : State),
    ∀ x ∈ vector c a b d r n slot slot2 func eps piece,
    (s.flag R.VEC_STATE.STOPPED c.site = true → exec x s = .next s) ∧
    (s.flag R.VEC_STATE.STOPPED c.site = false → c.ecc = .uncorrectable →
      ∃ t, exec x s = .next t ∧ t.flag R.VEC_STATE.STOPPED c.site = true ∧ t.flag R.VEC_ERR.ECC_UNCORR c.site = true ∧
        t.eng = s.eng ∧ t.coreStore = s.coreStore ∧ ∀ it, s.vecItem c = some it → (t.failed.find it).isSome) ∧
    (s.flag R.VEC_STATE.STOPPED c.site = false → c.ecc = .clean → VOpnd.inStore a = true → c.store = .uncorrectable →
      ∃ t, exec x s = .next t ∧ t.flag R.MOV_ERR.CS_UNCORR c.site = true ∧ t.eng = s.eng ∧ t.coreStore = s.coreStore ∧
        ∀ it, s.vecItem c = some it → (t.failed.find it).isSome)) ∧
  (∀ (c : VCtl) (a b : VOpnd) (s : State), s.flag R.VEC_STATE.STOPPED c.site = false → c.ecc = .corrected → c.store = .clean →
    ∃ t, exec (.vecAdd c a b) s = .next t ∧
      t.rd R.VEC_ECC_CORR.COUNT c.site = min (s.rd R.VEC_ECC_CORR.COUNT c.site + 1) (2 ^ R.VEC_ECC_CORR.COUNT.w - 1)) ∧
  (∀ (e : SigEngine) (a b : SigOpnd) (d m n : Fin 16) (k : Nat) (v : SigVal) (f : AgField) (src : OutSrc) (tg : Fin 4096) (q : Bool)
      (it : ItemRef) (s : State), s.sigReady e = true → s.engineItem e (some it) = some it →
    ∀ x ∈ signal e a b d m n k v f src tg q it,
    ∃ t, exec x s = .next t ∧ t.flag R.SIG_STATE.RUNNING e = false ∧ t.flag R.SIG_STATE.STOPPED e = true ∧
      t.flag R.SIG_STATUS.ECC_UNCORR e = true ∧ t.eng = s.eng ∧ (t.failed.find it).isSome)

/-- MAC, MSU, MACZ and MSUZ of a running engine add the product to ACC, subtract it, or set ACC to it or its negation; the product is doubled in
fractional mode. A value within 40 bits is ACC's new value; one outside sets ACC_OVF and saturates where SAT_ACC is 1, and wraps modulo 2^40
where it is 0. Nothing changes but ACC, ACC_OVF, the program counter, the waits and the indices of the generators. -/
def Obligations.SignalMultiplies : Prop :=
  ∀ (e : SigEngine) (a b : SigOpnd) (it : Option ItemRef) (s : State), s.sigReady e = true → s.eng.sigRepeat.findD e.val 0 = 0 →
    let p := (if s.flag R.SIG_MODE.FRAC e then 2 else 1) * (signed16 (s.sigRead e a) * signed16 (s.sigRead e b))
    ∀ x ∈ [(Instr.mac e a b .clean it, s.acc e + p), (.msu e a b .clean it, s.acc e - p), (.macz e a b .clean it, p),
        (.msuz e a b .clean it, -p)],
    ∃ t, exec x.1 s = .next t ∧ t.rd R.SIG_STATE.PC e = (s.rd R.SIG_STATE.PC e + 1) % 2 ^ R.SIG_STATE.PC.w ∧
      ((-(2 ^ 39) ≤ x.2 ∧ x.2 < 2 ^ 39) → t.acc e = x.2 ∧ t.rd R.SIG_STATUS.ACC_OVF e = s.rd R.SIG_STATUS.ACC_OVF e) ∧
      (¬ (-(2 ^ 39) ≤ x.2 ∧ x.2 < 2 ^ 39) → t.rd R.SIG_STATUS.ACC_OVF e = 1 ∧
        (s.flag R.SIG_MODE.SAT_ACC e = true → t.acc e = if x.2 < 0 then -(2 ^ 39) else 2 ^ 39 - 1) ∧
        (s.flag R.SIG_MODE.SAT_ACC e = false → (t.acc e - x.2) % 2 ^ 40 = 0)) ∧
      s.onlyRegs t ([R.SIG_ACC.ACC.at_ e, R.SIG_ACC.ACC_SX.at_ e, R.SIG_STATUS.ACC_OVF.at_ e, R.SIG_STATE.PC.at_ e, R.SIG_STATE.WAIT.at_ e,
        (R.STR_STATE.SIG_OUT_WAIT (e.val % 2)).at_ (e.val / 2)] ++ (List.range 16).map fun g => R.SIG_INDEX.INDEX.at_ e g)

/-- The register operations write their 16-bit result to the destination register and move on: sum and difference modulo 2^16, the arithmetic
right shift the floor of the signed value, the logical ones the unsigned one, and the bitwise three. MOVE copies a word; STACC stores ACC
rounded and shifted, saturated with STORE_SAT where SAT_STORE is 1, and cut to 16 bits where it is 0. Both write a general register or a word of
a data memory at the address of its generator. SETAG sets a field of a generator. No other general register, no word
of a data memory that is not written, and no store changes. -/
def Obligations.SignalRegisterOperations : Prop :=
  ∀ (e : SigEngine) (s : State), s.sigReady e = true → s.eng.sigRepeat.findD e.val 0 = 0 → (∀ n : Nat, s.greg e n < 65536) →
    let step (t : State) := t.rd R.SIG_STATE.PC e = (s.rd R.SIG_STATE.PC e + 1) % 2 ^ R.SIG_STATE.PC.w ∧ t.coreStore = s.coreStore ∧
      t.mem = s.mem ∧ t.str = s.str
    let others (t : State) (d : Fin 16) := t.eng.sigMem = s.eng.sigMem ∧ ∀ k, k ≠ (e.val, d.val) → t.eng.gregs.find k = s.eng.gregs.find k
    (∀ (d a b : Fin 16) (it : Option ItemRef), ∀ x ∈ [(Instr.sigAdd e d a b .clean it, (s.greg e a + s.greg e b) % 65536),
        (.sigSub e d a b .clean it, (s.greg e a + (65536 - s.greg e b)) % 65536), (.sigAnd e d a b .clean it, s.greg e a &&& s.greg e b),
        (.sigOr e d a b .clean it, s.greg e a ||| s.greg e b), (.sigXor e d a b .clean it, s.greg e a ^^^ s.greg e b)],
      ∃ t, exec x.1 s = .next t ∧ t.greg e d = x.2 ∧ step t ∧ others t d) ∧
    (∀ (d a : Fin 16) (n : Nat) (it : Option ItemRef),
      (∃ t, exec (.sigArithmeticShift e d a false n .clean it) s = .next t ∧ signed16 (t.greg e d) = (signed16 (s.greg e a)).fdiv (2 ^ n) ∧
        step t ∧ others t d) ∧
      (∃ t, exec (.sigArithmeticShift e d a true n .clean it) s = .next t ∧ t.greg e d = s.greg e a * 2 ^ n % 65536 ∧ step t ∧ others t d) ∧
      (∃ t, exec (.sigLogicalShift e d a false n .clean it) s = .next t ∧ t.greg e d = s.greg e a / 2 ^ n ∧ step t ∧ others t d) ∧
      (∃ t, exec (.sigLogicalShift e d a true n .clean it) s = .next t ∧ t.greg e d = s.greg e a * 2 ^ n % 65536 ∧ step t ∧ others t d)) ∧
    (∀ (d : Fin 16) (src : SigOpnd) (it : Option ItemRef), s.sigRead e src < 65536 →
      ∃ t, exec (.move e (.reg d) src .clean it) s = .next t ∧ t.greg e d = s.sigRead e src ∧ step t ∧ others t d) ∧
    (∀ (g : Fin 8) (upd : Bool) (src : SigOpnd) (it : Option ItemRef), s.sigRead e src < 65536 →
      (∃ t, exec (.move e (.x g upd) src .clean it) s = .next t ∧ t.sigWord e .x (s.genAddr e g) = s.sigRead e src ∧ step t ∧
        t.eng.gregs = s.eng.gregs ∧ ∀ k, k ≠ (e.val, SigMem.x, s.genAddr e g) → t.eng.sigMem.find k = s.eng.sigMem.find k) ∧
      (∃ t, exec (.move e (.y g upd) src .clean it) s = .next t ∧ t.sigWord e .y (s.genAddr e (8 + g)) = s.sigRead e src ∧ step t ∧
        t.eng.gregs = s.eng.gregs ∧ ∀ k, k ≠ (e.val, SigMem.y, s.genAddr e (8 + g)) → t.eng.sigMem.find k = s.eng.sigMem.find k)) ∧
    (∀ (d : Fin 16) (it : Option ItemRef), let v := accRound (s.rd R.SIG_MODE.ROUND e) (s.rd R.SIG_MODE.SHIFT e) (s.acc e)
      ∃ t, exec (.stacc e (.reg d) .clean it) s = .next t ∧ step t ∧ others t d ∧
        ((-32768 ≤ v ∧ v ≤ 32767) → signed16 (t.greg e d) = v) ∧
        (¬ (-32768 ≤ v ∧ v ≤ 32767) → s.flag R.SIG_MODE.SAT_STORE e = true →
          t.flag R.SIG_STATUS.STORE_SAT e = true ∧ signed16 (t.greg e d) = if v < 0 then -32768 else 32767) ∧
        (¬ (-32768 ≤ v ∧ v ≤ 32767) → s.flag R.SIG_MODE.SAT_STORE e = false → t.greg e d = (v % 65536).toNat)) ∧
    (∀ (g : Fin 8) (upd : Bool) (it : Option ItemRef), ∃ t, exec (.stacc e (.x g upd) .clean it) s = .next t ∧ step t ∧
      t.sigWord e .x (s.genAddr e g) = (s.storedAcc e).1 % 65536 ∧ t.eng.gregs = s.eng.gregs ∧
      ∀ k, k ≠ (e.val, SigMem.x, s.genAddr e g) → t.eng.sigMem.find k = s.eng.sigMem.find k) ∧
    (∀ (g : Fin 16) (v : Nat) (it : Option ItemRef),
      (∃ t, exec (.setag e g .base (.imm v) .clean it) s = .next t ∧ t.rd R.SIG_BASE.BASE e g = v % 2 ^ R.SIG_BASE.BASE.w ∧ step t) ∧
      (∃ t, exec (.setag e g .step (.imm v) .clean it) s = .next t ∧ t.rd R.SIG_STEP.STEP e g = v % 2 ^ R.SIG_STEP.STEP.w ∧ step t) ∧
      (∃ t, exec (.setag e g .index (.imm v) .clean it) s = .next t ∧
        t.rd R.SIG_INDEX.INDEX e g = v % 65536 % s.genLen e g % 2 ^ R.SIG_INDEX.INDEX.w ∧ step t) ∧
      (v ≤ 32768 → ∃ t, exec (.setag e g .len (.imm v) .clean it) s = .next t ∧ t.rd R.SIG_LEN.LEN e g = v % 2 ^ R.SIG_LEN.LEN.w ∧ step t)) ∧
    (∀ (g : Fin 16) (o : SigOpnd) (it : Option ItemRef),
      ∃ t, exec (.setag e g .base (.opnd o) .clean it) s = .next t ∧ t.rd R.SIG_BASE.BASE e g = s.sigRead e o % 2 ^ R.SIG_BASE.BASE.w ∧ step t)

/-- BR, BRZ and BRNZ of a running engine take the program counter to their target where their condition holds; REPEAT n makes the next
instruction run n times. IN takes the next word of the head flit of the input port, and the flit itself with its last word, and waits while
the port is empty; OUT packs a word, the stored ACC or nothing into the output flit, which leaves when the program ends an item, with the
sequence and status of the item the engine works on, and waits while the port has no room; for an item whose last flit has left it sends
nothing more and goes on (R171); WAITBEAT sends what is packed and waits for the drumbeat of its glade. -/
def Obligations.SignalFlow : Prop :=
  ∀ (e : SigEngine) (s : State), s.sigReady e = true → s.eng.sigRepeat.findD e.val 0 = 0 →
    let pc (t : State) := t.rd R.SIG_STATE.PC e
    let next := (pc s + 1) % 2 ^ R.SIG_STATE.PC.w
    let x := s.sigItem e
    (∀ (tg : Fin 4096) (it : Option ItemRef),
      ∃ t, exec (.br e tg .clean it) s = .next t ∧ pc t = tg.val ∧ t.coreStore = s.coreStore ∧ t.eng.gregs = s.eng.gregs) ∧
    (∀ (n : Fin 16) (tg : Fin 4096) (it : Option ItemRef),
      (∃ t, exec (.brz e n tg .clean it) s = .next t ∧ pc t = if s.greg e n = 0 then tg.val else next) ∧
      ∃ t, exec (.brnz e n tg .clean it) s = .next t ∧ pc t = if s.greg e n = 0 then next else tg.val) ∧
    (∀ (n : Nat) (it : Option ItemRef),
      ∃ t, exec (.repeat e n .clean it) s = .next t ∧ pc t = next ∧ t.eng.sigRepeat.findD e.val 0 = n - 1) ∧
    (∀ (d : Fin 16) (last : Bool) (v : Port) (it : Option ItemRef), s.port (.sigIn e) = some v → v.fifo = [] →
      ∃ t, exec (.in_ e (.reg d) last .clean it) s = .next t ∧ pc t = pc s ∧ t.rd R.SIG_STATE.WAIT e = 1 ∧ t.eng = s.eng) ∧
    (∀ (d : Fin 16) (last : Bool) (v : Port) (fl : Entry) (rest : List Entry) (it : Option ItemRef), s.port (.sigIn e) = some v →
      v.stopped = false → v.fifo = fl :: rest →
      ∃ t, exec (.in_ e (.reg d) last .clean it) s = .next t ∧ pc t = next ∧
        t.greg e d = (fl.words[v.taken / 4]?).getD 0 / 2 ^ (16 * (v.taken % 4)) % 65536 ∧ t.sigItem e = x.after fl ∧
        (last = false ∧ v.taken < 15 → t.port (.sigIn e) = some { v with taken := v.taken + 1 }) ∧
        (last = true ∨ v.taken = 15 → (t.port (.sigIn e)).map (fun w => (w.fifo, w.taken)) = some (rest, 0))) ∧
    (∀ (src : OutSrc) (ws : List Nat) (o : SigOpnd) (v : Port) (it : Option ItemRef), s.port (.sigOut e) = some v →
      (src, ws) ∈ [(OutSrc.word o, [s.sigRead e o]), (.acc, [(s.storedAcc e).1]), (.nothing, [])] →
      let past := s.eng.sigItem.find e ≠ none ∧ x.tag.seq ∈ v.ended
      (past → v.fifo.length < 2 ^ v.depthLog2 → ∀ ends,
        ∃ t, exec (.out e src ends .clean it) s = .next t ∧ pc t = next ∧ t.port (.sigOut e) = some v) ∧
      (¬ past → v.packed.length < 15 → ∃ t, exec (.out e src false .clean it) s = .next t ∧ pc t = next ∧
        t.port (.sigOut e) = some { v with packed := v.packed ++ ws, packTag := { seq := x.tag.seq, status := x.tag.status }, packErr := x.err }) ∧
      (¬ past → v.fifo.length < 2 ^ v.depthLog2 → ∃ t, exec (.out e src true .clean it) s = .next t ∧ pc t = next ∧
        (t.port (.sigOut e)).map (fun w => (w.fifo, w.packed)) =
          some (v.fifo ++ [{ tag := { seq := x.tag.seq, status := x.tag.status, eoi := true }, words := packWords (v.packed ++ ws), err := x.err }], [])) ∧
      (2 ^ v.depthLog2 ≤ v.fifo.length →
        ∃ t, exec (.out e src true .clean it) s = .next t ∧ pc t = pc s ∧ t.rd R.SIG_STATE.WAIT e = 2 ∧ t.eng = s.eng ∧ t.str = s.str)) ∧
    (∀ (v : Port) (it : Option ItemRef), s.port (.sigOut e) = some v →
      (v.packed = [] → ∃ t, exec (.waitbeat e .clean it) s = .next t ∧ s.onlyRegs t [R.SIG_STATE.WAIT.at_ e] ∧ t.rd R.SIG_STATE.WAIT e = 3) ∧
      (v.packed ≠ [] → v.fifo.length < 2 ^ v.depthLog2 →
        ∃ t, exec (.waitbeat e .clean it) s = .next t ∧ t.rd R.SIG_STATE.WAIT e = 3 ∧ t.port (.sigOut e) = some v.flush))

/-- FEC_DESCRIPTOR takes the two flits of a descriptor from an input stream of a block in service: a legal one waits in its queue, an illegal one
for whose result there is room sets DESC_FORMAT and gives a DESC_ERR result of status Failed. A full queue takes nothing (R151). DECODE_START
and ENCODE_START of a free unit start the waiting descriptor with the earliest deadline; where that has passed the block gives an EXPIRED
result and counts it. While the reorder buffer has no place for its result the descriptor waits (log entry 113). -/
def Obligations.FecDescriptorQueues : Prop :=
  (∀ (c : Cluster) (k : Nat) (item : Option ItemRef) (s : State) (v : Port) (f0 f1 : Entry) (rest : List Entry),
    s.port (.fecIn c k) = some v → v.fifo = f0 :: f1 :: rest → s.flag R.FEC_CTRL.IN_SERVICE c = true →
    v.stopped = false →
    let b := s.fecBlock c
    let d := FecDesc.ofWords (f0.words ++ f1.words)
    let e : FecEntry := ⟨f0.words ++ f1.words, { f0.tag with status := f0.tag.status.join f1.tag.status }, v.stream,
      b.arrived.findD v.stream 0, s.itemAt item f0.tag.seq⟩
    (d.legal = true → d.op = 1 → b.decQ.length < 256 → ∃ t, exec (.fecDescriptor c k item) s = .next t ∧
      (t.fecBlock c).decQ = b.decQ ++ [e] ∧ (t.fecBlock c).encQ = b.encQ ∧ t.rd R.FEC_STATE.DEC_QUEUE c = b.decQ.length + 1 ∧
      (t.port (.fecIn c k)).map (fun p => p.fifo) = some rest ∧ t.mem = s.mem ∧ t.clusterStore = s.clusterStore) ∧
    (d.legal = true → d.op ≠ 1 → b.encQ.length < 128 → ∃ t, exec (.fecDescriptor c k item) s = .next t ∧
      (t.fecBlock c).encQ = b.encQ ++ [e] ∧ (t.fecBlock c).decQ = b.decQ ∧ t.rd R.FEC_STATE.ENC_QUEUE c = b.encQ.length + 1 ∧
      (t.port (.fecIn c k)).map (fun p => p.fifo) = some rest ∧ t.mem = s.mem ∧ t.clusterStore = s.clusterStore) ∧
    (d.legal = true → (if d.op = 1 then 256 ≤ b.decQ.length else 128 ≤ b.encQ.length) → exec (.fecDescriptor c k item) s = .next s) ∧
    (d.legal = false → b.room e = false → exec (.fecDescriptor c k item) s = .next s) ∧
    (d.legal = false → b.room e = true → ∃ t r, exec (.fecDescriptor c k item) s = .next t ∧ t.flag R.FEC_ERR.DESC_FORMAT c = true ∧
      (t.fecBlock c).reorder = b.reorder ++ [r] ∧ r.word = 2 ^ 7 ∧ r.stream = e.stream ∧ r.order = e.order ∧ r.tag.status = .failed ∧
      (∀ it, e.item = some it → (t.failed.find it).isSome))) ∧
  (∀ (f : FecEntry → Option Nat) (q : List FecEntry) (e : FecEntry), earliest f q = some e →
    e ∈ q ∧ ∀ x ∈ q, ∀ n, f x = some n → ∃ m, f e = some m ∧ m ≤ n) ∧
  (∀ (c : Cluster) (i : Fin 2) (s : State) (e : FecEntry), s.flag R.FEC_CTRL.IN_SERVICE c = true →
    earliest s.fecDeadline (s.fecBlock c).decQ = some e → (if i = 0 then (s.fecBlock c).dec0 else (s.fecBlock c).dec1) = none →
    ((s.fecBlock c).room e = false → exec (.decodeStart c i) s = .next s) ∧
    ((s.fecBlock c).room e = true → ∃ t, exec (.decodeStart c i) s = .next t ∧ (t.fecBlock c).decQ = (s.fecBlock c).decQ.erase e ∧
      t = { s with regs := t.regs, eng := t.eng } ∧ (∀ c', c' ≠ c.val → t.fecBlock c' = s.fecBlock c') ∧
      ((s.fecDeadline e).any s.passed = false → (if i = 0 then (t.fecBlock c).dec0 else (t.fecBlock c).dec1) = some e ∧
        t.rd (if i = 0 then R.FEC_STATE.DEC0_BUSY else R.FEC_STATE.DEC1_BUSY) c = 1 ∧
        (t.fecBlock c).reorder = (s.fecBlock c).reorder) ∧
      ((s.fecDeadline e).any s.passed = true →
        t.rd R.FEC_EXPIRED.COUNT c = min (s.rd R.FEC_EXPIRED.COUNT c + 1) (2 ^ 48 - 1) ∧
        ∃ r, (t.fecBlock c).reorder = (s.fecBlock c).reorder ++ [r] ∧ r.word = 2 ^ 6 ∧ r.stream = e.stream ∧ r.order = e.order))) ∧
  (∀ (c : Cluster) (s : State) (e : FecEntry), s.flag R.FEC_CTRL.IN_SERVICE c = true →
    earliest s.fecDeadline (s.fecBlock c).encQ = some e → (s.fecBlock c).enc = none →
    ((s.fecBlock c).room e = false → exec (.encodeStart c) s = .next s) ∧
    ((s.fecBlock c).room e = true → ∃ t, exec (.encodeStart c) s = .next t ∧ (t.fecBlock c).encQ = (s.fecBlock c).encQ.erase e ∧
      t = { s with regs := t.regs, eng := t.eng } ∧ (∀ c', c' ≠ c.val → t.fecBlock c' = s.fecBlock c') ∧
      ((s.fecDeadline e).any s.passed = false → (t.fecBlock c).enc = some e ∧ t.rd R.FEC_STATE.ENC_BUSY c = 1) ∧
      ((s.fecDeadline e).any s.passed = true →
        t.rd R.FEC_EXPIRED.COUNT c = min (s.rd R.FEC_EXPIRED.COUNT c + 1) (2 ^ 48 - 1) ∧
        ∃ r, (t.fecBlock c).reorder = (s.fecBlock c).reorder ++ [r] ∧ r.word = 2 ^ 6)))

/-- DECODE_DONE with no uncorrectable error writes the K' hard decisions of the descriptor's decode at OUT_ADDR, frees the decoder, counts the block, its iterations and a failed
syndrome, and adds a result with SYND_OK and ITERS to the reorder buffer; the occupancy of R149 goes to the owner. ENCODE_DONE writes the E
bits of the encoded block. An uncorrectable error in the block's memories writes nothing, sets ECC_UNCORR, and gives a Failed result with
ECC_ERR, for a decode and for an encode; one in the first word of the input in cluster store makes the result Failed. FEC_RESULT_EMIT
sends the result next in the arrival order of its input stream to the stage the image names, and nothing else of that stream's results.
Whatever the codes find and whoever owns the input, a decode and an encode end: the unit is free, and one result of the descriptor's place is
ready. The occupancy is charged to the windows of 500 µs in which it ran (R394), and never to another owner.
A decode runs no more iterations than its limit, and fewer only where the checks hold. -/
def Obligations.FecCodeBlocks : Prop :=
  let ownAll (s : State) (c : Cluster) (off n owner : Nat) := ∀ a : Nat, off / 8 * 8 ≤ a → a < (off + n + 7) / 8 * 8 →
    s.cluOwns c a owner = true ∧ cluAddr c a / 8 ∉ s.mem.cluBad
  let used (s : State) (w : Int) (owner : Nat) (c : Cluster) (enc : Bool) : Nat :=
    (s.eng.fecUse.findD (w, owner, c.val, enc) (0, false)).1 + (s.eng.fecUse.findD (w - 1, owner, c.val, enc) (0, false)).1
  (∀ (d : FecDesc) (input : List Byte), (d.decode input).1.length = d.kp ∧ (d.decode input).2.1 ≤ d.maxIter ∧
    ((d.decode input).2.1 < d.maxIter → (d.decode input).2.2 = true)) ∧
  (∀ (c : Cluster) (i : Fin 2) (ecc : Ecc) (s : State) (e : FecEntry),
    (if i = 0 then (s.fecBlock c).dec0 else (s.fecBlock c).dec1) = some e → ecc ≠ .uncorrectable →
    let d := FecDesc.ofWords e.words
    let r := d.decode (s.clusterStore.readBytes (cluAddr c d.inAddr) ((d.cols - 2) * d.zc))
    let out := packBits r.1
    Mem.wf s.clusterStore = true → ownAll s c d.inAddr ((d.cols - 2) * d.zc) e.tag.owner → ownAll s c d.outAddr out.length e.tag.owner →
    ∃ t, exec (.decodeDone c i ecc .clean) s = .next t ∧ t.clusterStore.readBytes (cluAddr c d.outAddr) out.length = out ∧
      s.clusterStore.keptOutside t.clusterStore (cluAddr c d.outAddr) out.length ∧
      (if i = 0 then (t.fecBlock c).dec0 else (t.fecBlock c).dec1) = none ∧
      t.rd R.FEC_DEC_BLOCKS.COUNT c i = min (s.rd R.FEC_DEC_BLOCKS.COUNT c i + 1) (2 ^ 48 - 1) ∧
      t.rd R.FEC_DEC_FAIL.COUNT c = (if r.2.2 then s.rd R.FEC_DEC_FAIL.COUNT c else min (s.rd R.FEC_DEC_FAIL.COUNT c + 1) (2 ^ 48 - 1)) ∧
      used t s.fecWindow e.tag.owner c false = used s s.fecWindow e.tag.owner c false + (40 + r.2.1 * (d.entries + 6 * d.rows)) ∧
      (∀ o, o ≠ e.tag.owner → used t s.fecWindow o c false = used s s.fecWindow o c false) ∧
      ∃ x, (t.fecBlock c).reorder = (s.fecBlock c).reorder ++ [x] ∧ x.stream = e.stream ∧ x.order = e.order ∧
        x.word = (if r.2.2 then 1 else 0) + r.2.1 % 32 * 2 ∧ x.tag.status = e.tag.status ∧ x.tag.eoi = true) ∧
  (∀ (c : Cluster) (ecc : Ecc) (s : State) (e : FecEntry), (s.fecBlock c).enc = some e → ecc ≠ .uncorrectable →
    let d := FecDesc.ofWords e.words
    let k := if d.op = 3 then d.kPolar else d.kp
    let info := unpackBits (s.clusterStore.readBytes (cluAddr c d.inAddr) ((k + 7) / 8)) k
    let out := packBits (d.encode info)
    Mem.wf s.clusterStore = true → ownAll s c d.inAddr ((k + 7) / 8) e.tag.owner → ownAll s c d.outAddr out.length e.tag.owner →
    ∃ t, exec (.encodeDone c ecc .clean) s = .next t ∧ t.clusterStore.readBytes (cluAddr c d.outAddr) out.length = out ∧
      s.clusterStore.keptOutside t.clusterStore (cluAddr c d.outAddr) out.length ∧ (t.fecBlock c).enc = none ∧
      t.rd R.FEC_ENC_BLOCKS.COUNT c = min (s.rd R.FEC_ENC_BLOCKS.COUNT c + 1) (2 ^ 48 - 1) ∧
      used t s.fecWindow e.tag.owner c true = used s s.fecWindow e.tag.owner c true + d.encodeCycles ∧
      (∀ o, o ≠ e.tag.owner → used t s.fecWindow o c true = used s s.fecWindow o c true)) ∧
  (∀ (c : Cluster) (i : Fin 2) (ecc store : Ecc) (s : State) (e : FecEntry),
    (if i = 0 then (s.fecBlock c).dec0 else (s.fecBlock c).dec1) = some e →
    ∃ t x, exec (.decodeDone c i ecc store) s = .next t ∧ (if i = 0 then (t.fecBlock c).dec0 else (t.fecBlock c).dec1) = none ∧
      (t.fecBlock c).reorder = (s.fecBlock c).reorder ++ [x] ∧ x.stream = e.stream ∧ x.order = e.order ∧ x.tag.eoi = true ∧
      (t.fecBlock c).enc = (s.fecBlock c).enc) ∧
  (∀ (c : Cluster) (ecc store : Ecc) (s : State) (e : FecEntry), (s.fecBlock c).enc = some e →
    ∃ t x, exec (.encodeDone c ecc store) s = .next t ∧ (t.fecBlock c).enc = none ∧
      (t.fecBlock c).reorder = (s.fecBlock c).reorder ++ [x] ∧ x.stream = e.stream ∧ x.order = e.order ∧ x.tag.eoi = true ∧
      (t.fecBlock c).dec0 = (s.fecBlock c).dec0 ∧ (t.fecBlock c).dec1 = (s.fecBlock c).dec1) ∧
  (∀ (c : Cluster) (i : Fin 2) (store : Ecc) (s : State) (e : FecEntry),
    let failed (x : Instr) : Prop := (∃ t, exec x s = .next t ∧ t.clusterStore = s.clusterStore ∧ t.flag R.FEC_ERR.ECC_UNCORR c = true ∧
      (∀ it, e.item = some it → (t.failed.find it).isSome) ∧
      ∃ x ∈ (t.fecBlock c).reorder, x.stream = e.stream ∧ x.order = e.order ∧ x.word = 2 ^ 8 ∧ x.tag.status = .failed);
    ((if i = 0 then (s.fecBlock c).dec0 else (s.fecBlock c).dec1) = some e → failed (.decodeDone c i .uncorrectable store)) ∧
    ((s.fecBlock c).enc = some e → failed (.encodeDone c .uncorrectable store))) ∧
  (∀ (c : Cluster) (i : Fin 2) (s : State) (e : FecEntry),
    (if i = 0 then (s.fecBlock c).dec0 else (s.fecBlock c).dec1) = some e →
    let d := FecDesc.ofWords e.words
    s.cluOwns c d.inAddr e.tag.owner = true → 0 < d.zc →
    ∃ t, exec (.decodeDone c i .clean .uncorrectable) s = .next t ∧ (∀ it, e.item = some it → (t.failed.find it).isSome) ∧
      ∃ x ∈ (t.fecBlock c).reorder, x.stream = e.stream ∧ x.order = e.order ∧ x.tag.status = .failed) ∧
  (∀ (c : Cluster) (n : Nat) (s : State) (r : FecResult) (p : PortId) (v : Port),
    (s.fecBlock c).reorder.find? (fun x => x.stream = n && x.order = (s.fecBlock c).emitted.findD n 0) = some r →
    (s.fecBlock c).resultPort.find n = some p → s.port p = some v → v.fifo.length < 2 ^ v.depthLog2 →
    ∃ t, exec (.fecResultEmit c n) s = .next t ∧ t = { s with regs := t.regs, eng := t.eng, str := t.str } ∧
      t.port p = some { v with fifo := v.fifo ++ [{ tag := r.tag, words := [r.word, 0, 0, 0] }] } ∧
      (∀ p', p' ≠ p → t.port p' = s.port p') ∧ (t.fecBlock c).emitted.findD n 0 = (s.fecBlock c).emitted.findD n 0 + 1 ∧
      ∀ x ∈ (s.fecBlock c).reorder, x.stream ≠ n → x ∈ (t.fecBlock c).reorder)

/-- FLIT_SEND at a producer with a credit and room in its router sends the head of its FIFO, stamped with the owner of its site and its stream, and
spends the credit; without a credit nothing leaves and OUT_WAIT is set. The unit of an egress port whose FIFO has room adds the flit it forms
from its inputs, at most four words, unless the last flit of that item has gone before. FLIT_FORWARD moves the flit a link direction chooses one router on
along its route: below its reservation first, glade streams before others, and counts the slot. RESERVATION_WINDOW restarts the counts of
its cluster only. CREDIT_RETURN takes the entry a running consumer reads and gives its producer one credit, never above the consumer's
depth; a unit that does not run reads nothing (R189). -/
def Obligations.FlitsMoveByCredits : Prop :=
  (∀ (k : Site) (i : Fin 8) (s : State) (v : Port) (e : Entry) (rest : List Entry) (r : StreamRec),
    let p : PortId := .egress k i
    s.port p = some v → v.stopped = false → v.fifo = e :: rest → s.stream p.cluster v.stream = some r → r.producer = p →
    (∀ x : RouteEnt, s.str.routes.find (k.val, v.stream) = some x → 0 < v.credits →
      (s.buf ⟨k.val, .localPort, 0 < x.res⟩).length < bufDepth →
      ∃ t, exec (.flitSend p none .clean) s = .next t ∧ t.port p = some { v with fifo := rest, credits := v.credits - 1 } ∧
        t.buf ⟨k.val, .localPort, 0 < x.res⟩ = s.buf ⟨k.val, .localPort, 0 < x.res⟩ ++
          [{ e with tag := { e.tag with owner := s.rd R.STR_SITE.OWNER k, stream := v.stream } }] ∧
        (∀ b, b ≠ ⟨k.val, .localPort, 0 < x.res⟩ → t.buf b = s.buf b) ∧ s.regsBut t [(R.STR_STATE.OUT_WAIT i).at_ k] ∧
        t = { s with regs := t.regs, str := t.str }) ∧
    (v.credits = 0 → ∃ t, exec (.flitSend p none .clean) s = .next t ∧ t.port p = some v ∧ t.rd (R.STR_STATE.OUT_WAIT i) k = 1 ∧
      t.str.bufs = s.str.bufs ∧ s.regsBut t [(R.STR_STATE.OUT_WAIT i).at_ k]) ∧
    (∀ o : OutFlit, let x := o.entry (s.flitWords k o) (s.outInputs k o)
      o.own = .good → (s.flitWords k o).length ≤ 4 → v.credits = 0 → s.flag R.VEC_STATE.STOPPED k = false → v.fifo.length < 2 ^ v.depthLog2 → v.ended.contains x.tag.seq = false →
      ∃ t, exec (.flitSend p (some o) .clean) s = .next t ∧ (t.port p).map (fun w => w.fifo) = some (v.fifo ++ [x]))) ∧
  (∀ (s : State) (k : Nat) (d : Dir) (cs : List (BufKey × Entry × RouteEnt)) (c : BufKey × Entry × RouteEnt) (rr : Bool),
    let below (c : BufKey × Entry × RouteEnt) := s.usedSlots k d c.2.1.tag.stream < c.2.2.res
    s.chooseFlit k d cs = some (c, rr) → c ∈ cs ∧ (rr = false → below c) ∧ (rr = true → ∀ x ∈ cs, ¬ below x) ∧
      ((∃ x ∈ cs, x.2.2.glade = true ∧ below x) → c.2.2.glade = true)) ∧
  (∀ (k : Site) (d : Dir) (n : Nat) (s : State) (b : BufKey) (e : Entry) (r : RouteEnt) (rr : Bool), neighbour k d = some n →
    s.chooseFlit k d ((s.candidates k d).filter fun c => s.routerRoom n d.opposite c.2.1.tag.stream) = some ((b, e, r), rr) →
    ∀ x : RouteEnt, s.str.routes.find (n, e.tag.stream) = some x →
    ∃ t, exec (.flitForward k d .clean) s = .next t ∧ t = { s with str := t.str } ∧ t.buf b = (s.buf b).drop 1 ∧
      t.buf ⟨n, d.opposite, 0 < x.res⟩ = s.buf ⟨n, d.opposite, 0 < x.res⟩ ++ [e] ∧
      (∀ b', b' ≠ b → b' ≠ ⟨n, d.opposite, 0 < x.res⟩ → t.buf b' = s.buf b') ∧ t.str.ports = s.str.ports ∧
      (rr = false → 0 < r.res → t.usedSlots k d e.tag.stream = s.usedSlots k d e.tag.stream + 1)) ∧
  (∀ (c : Cluster) (s : State), ∃ t, exec (.reservationWindow c) s = .next t ∧
    t = { s with str := { s.str with used := t.str.used } } ∧ ∀ k d n,
      t.usedSlots k d n = if Unit.clusterOf k = c.val then 0 else s.usedSlots k d n) ∧
  (∀ (p : PortId) (s : State) (v w : Port) (e : Entry) (rest : List Entry) (r : StreamRec), s.port p = some v → v.fifo = e :: rest →
    s.consumerRuns p = true → v.stopped = false → s.stream p.cluster v.stream = some r → r.consumer = p → r.producer ≠ p →
    s.port r.producer = some w → w.stream = v.stream →
    ∃ t, exec (.creditReturn p) s = .next t ∧ t.port p = some { v with fifo := rest, taken := 0, seen := v.seen.after e } ∧
      t.port r.producer = some { w with credits := min (w.credits + 1) (2 ^ v.depthLog2) } ∧
      (∀ p', p' ≠ p → p' ≠ r.producer → t.port p' = s.port p') ∧ t.str.bufs = s.str.bufs ∧ t.coreStore = s.coreStore) ∧
  (∀ (p : PortId) (s : State), s.consumerRuns p = false → exec (.creditReturn p) s = .next s)

/-- FLIT_ARRIVE at a unit: an entry whose owner is the one the unit serves enters the unit's FIFO; any other is discarded, and the violation counter of
the arriving owner, or SCH_VIOL_UNBOUND, counts it, with no other change outside the router. Absent and Late at a unit that serves no glade become
Failed, and STATUS_CLASS records it. A clean entry of the mover's owner leaves core store alone, and gives its status to the descriptor it belongs to. An uncorrectable tag stops the stream and discards the entry. -/
def Obligations.ArrivalsComparedByOwner : Prop :=
  (∀ (k : Site) (i : Fin 8) (s : State) (v : Port) (b : BufKey) (e : Entry),
    let p : PortId := .ingress k i
    s.port p = some v → s.waitingFor p = some (b, e) →
    (e.tag.owner = s.rd R.STR_SITE.OWNER k → (s.isGlade e.tag.owner = true ∨ e.tag.status = .good ∨ e.tag.status = .failed) →
      ∃ t, exec (.flitArrive (.port p) .clean) s = .next t ∧ t.port p = some { v with fifo := v.fifo ++ [e] } ∧
        t.buf b = (s.buf b).drop 1 ∧ (∀ p', p' ≠ p → t.port p' = s.port p') ∧ t.rd (R.STR_STATE.IN_WAIT i) k = 0 ∧
        t.coreStore = s.coreStore ∧ t.eng = s.eng) ∧
    (e.tag.owner = s.rd R.STR_SITE.OWNER k → s.isGlade e.tag.owner = false → e.tag.status = .absent ∨ e.tag.status = .late →
      ∃ t x, exec (.flitArrive (.port p) .clean) s = .next t ∧ t.port p = some { v with fifo := v.fifo ++ [x] } ∧
        x.words = e.words ∧ x.tag = { e.tag with status := .failed } ∧ t.flag R.STR_ERR.STATUS_CLASS k = true) ∧
    (e.tag.owner ≠ s.rd R.STR_SITE.OWNER k →
      ∃ t, exec (.flitArrive (.port p) .clean) s = .next t ∧ t.port p = some v ∧ t.buf b = (s.buf b).drop 1 ∧
        t = { s with regs := t.regs, str := t.str } ∧ t.str.ports = s.str.ports ∧
        s.regsBut t [R.SCH_TEN_VIOL.STREAM.at_ 0 e.tag.owner, R.SCH_VIOL_UNBOUND.COUNT.at_] ∧
        (e.tag.owner < 1024 → s.rd R.SCH_TEN_CFG.STATE 0 e.tag.owner ≠ 0 →
          t.rd R.SCH_TEN_VIOL.STREAM 0 e.tag.owner = min (s.rd R.SCH_TEN_VIOL.STREAM 0 e.tag.owner + 1) (2 ^ R.SCH_TEN_VIOL.STREAM.w - 1)))) ∧
  (∀ (k : Site) (s : State) (e : Entry) b b', e.tag.owner ≠ s.rd R.STR_SITE.OWNER k →
    ∀ a ∈ [Arrival.coreStore k e b, .mover k e b'], ∃ t, exec (.flitArrive a .clean) s = .next t ∧
      s.onlyRegs t [R.SCH_TEN_VIOL.STREAM.at_ 0 e.tag.owner, R.SCH_VIOL_UNBOUND.COUNT.at_]) ∧
  (∀ (k : Site) (s : State) (e : Entry) b b', e.tag.owner = s.rd R.STR_SITE.OWNER k → e.err = none →
    (s.isGlade e.tag.owner = true ∨ e.tag.status = .good ∨ e.tag.status = .failed) →
    (∃ t, exec (.flitArrive (.coreStore k e b) .clean) s = .next t ∧ t = s) ∧
    ∃ t, exec (.flitArrive (.mover k e b') .clean) s = .next t ∧ t = { s with mem := { s.mem with movers := t.mem.movers } } ∧
      ∀ d, s.descFor k e.tag = some d → ∀ q ∈ (s.mover k).active, q.serial = d.serial →
        { q with status := q.status.join e.tag.status } ∈ (t.mover k).active) ∧
  (∀ (k : Site) (i : Fin 8) (s : State) (v : Port) (b : BufKey) (e : Entry) (r : StreamRec),
    let p : PortId := .ingress k i
    s.port p = some v → s.waitingFor p = some (b, e) → s.stream p.cluster e.tag.stream = some r → r.consumer = p →
    ∃ t, exec (.flitArrive (.port p) .tagWord) s = .next t ∧ (t.port p).map (fun x => (x.stopped, x.fifo)) = some (true, v.fifo) ∧
      (t.stream p.cluster e.tag.stream).map (fun x => x.stopped) = some true ∧ t.flag R.STR_ERR.TAG_UNCORR k = true)

/-- DESCRIPTOR_POST whose words hold no uncorrectable error puts the eight words at an offset of core store at the end of the mover's queue, unless
32 wait. DESCRIPTOR_START starts the head of the queue, once no earlier movement is to write its index list: a legal descriptor becomes active with one read request for each source line its owner may read; an illegal one, and a
FEED of a borrow context with more than 2,048 positions (R368), is not executed, sets DESC_FORMAT and fails its item; FENCE waits until every earlier one is complete. DESCRIPTOR_COMPLETE completes only the oldest, once its
movement is done, its requests are answered and a LOAD's elements are in the load lanes, and counts it. No byte of any store changes. -/
def Obligations.MoverDescriptorsInOrder : Prop :=
  let same (s t : State) := t.coreStore = s.coreStore ∧ t.clusterStore = s.clusterStore ∧ t.mem.hbm = s.mem.hbm ∧ t.mem.lc = s.mem.lc
  (∀ (k : Site) (off : Nat) (item : Option ItemRef) (ecc : Ecc) (s : State), off + 64 ≤ coreStoreSize →
    ((s.mover k).queue.length < 32 → ecc ≠ .uncorrectable → ∃ t d, exec (.descriptorPost k off item ecc) s = .next t ∧ same s t ∧
      (t.mover k).queue = (s.mover k).queue ++ [d] ∧ (t.mover k).active = (s.mover k).active ∧
      d.words = (List.range 8).map (fun j => s.coreStore.readN (coreAddr k (off + 8 * j)) 8) ∧ d.owner = s.rd R.STR_SITE.OWNER k ∧
      d.item = s.itemAt item (Desc.ofWords d.words).seq ∧ ∀ j : Nat, j ≠ k.val → t.mover j = s.mover j) ∧
    (32 ≤ (s.mover k).queue.length → exec (.descriptorPost k off item ecc) s = .next s)) ∧
  (∀ (k : Site) (ecc : Ecc) (s : State) (q : MovDesc) (rest : List MovDesc), (s.mover k).queue = q :: rest → (s.mover k).halt = false →
    q.owner ∉ s.mem.movStop → ecc ≠ .uncorrectable →
    let d := Desc.ofWords q.words
    let idx := s.indexList k d
    let H := match s.fieldOf k with
      | some (_, f, r, _) => if r = 0 then some f.rows else none
      | none => none
    let fits := d.legal idx H = true ∧ ¬ (d.op = 2 ∧ 2048 < d.positions ∧ s.borrowAt k = true)
    ((d.fence = true ∧ (s.mover k).active ≠ []) ∨ (s.mover k).indexBlocked d = true → exec (.descriptorStart k ecc) s = .next s) ∧
    ((d.fence = false ∨ (s.mover k).active = []) → (s.mover k).indexBlocked d = false → fits →
      ∃ t x, exec (.descriptorStart k ecc) s = .next t ∧ same s t ∧ (t.mover k).queue = rest ∧ (t.mover k).active = (s.mover k).active ++ [x] ∧
        x.words = q.words ∧ x.moved = q.moved ∧ x.idx = idx ∧
        x.todo.map (fun r => r.line) =
          (d.srcLines idx).filter (fun l => (s.lineKey q.owner ((Space.ofCode d.srcSp).getD .core) l false).isSome) ∧
        (∀ r ∈ x.todo, r.write = none ∧ r.owner = q.owner) ∧
        x.wlines.map Prod.snd = d.dstLines idx) ∧
    ((d.fence = false ∨ (s.mover k).active = []) → (s.mover k).indexBlocked d = false → ¬ fits →
      ∃ t, exec (.descriptorStart k ecc) s = .next t ∧ same s t ∧ (t.mover k).queue = rest ∧ (t.mover k).active = (s.mover k).active ∧
        t.flag R.MOV_ERR.DESC_FORMAT k = true ∧ (∀ it, q.item = some it → (t.failed.find it).isSome))) ∧
  (∀ (k : Site) (s : State) (d : MovDesc) (rest : List MovDesc), (s.mover k).active = d :: rest →
    let sending := ∃ a bc ord fd n l, d.load = some (a, bc, ord) ∧ s.fields.find a = some fd ∧ n < 64 ∧ l ∈ fd.loads.findD (64 * bc + n) [] ∧ l.ord = ord
    (d.moved = true → d.todo = [] → d.waiting = [] → ¬ sending →
      ∃ t, exec (.descriptorComplete k) s = .next t ∧ same s t ∧ (t.mover k).active = rest ∧ (t.mover k).queue = (s.mover k).queue ∧
        t.rd R.MOV_DESC_COUNT.COUNT k = (s.rd R.MOV_DESC_COUNT.COUNT k + 1) % 2 ^ 48 ∧
        t.rd R.MOV_STATE.IDLE k = (if rest = [] ∧ (s.mover k).queue = [] then 1 else 0)) ∧
    ((d.moved = false ∨ d.todo ≠ [] ∨ d.waiting ≠ [] ∨ sending) → exec (.descriptorComplete k) s = .next s))

/-- Each of the four movements of the descriptor next in order writes, for every element of its two loops, the source element's bytes (zeros for ZERO) at
the element's destination, the outer index of a GATHER's source or a SCATTER's destination taken from the index list read at its start. Where the destinations
lie in core store, or in blocks of cluster store its owner holds, and do not overlap, they read back so and every other byte is as before;
where they are remote, the descriptor has a write request for each line, holding those bytes. An uncorrectable word of a source in core store
moves nothing, sets CS_UNCORR and fails the item (R200). -/
def Obligations.MoversMoveElements : Prop :=
  ∀ (k : Site) (s : State) (q : MovDesc), (s.mover k).moving = some q →
    let d := Desc.ofWords q.words
    let idx := q.idx
    let n := d.bytes
    let at_ (e : Nat × Nat) := addr56 (d.dstAt idx e.1 e.2)
    let data (e : Nat × Nat) : List Byte := if d.op = 6 then List.replicate n 0
      else (s.sourceBytes k q d.srcSp (addr56 (d.srcAt idx e.1 e.2)) n).1
    let apart := ∀ e ∈ d.elems, ∀ e' ∈ d.elems, e ≠ e' → at_ e + n ≤ at_ e' ∨ at_ e' + n ≤ at_ e
    let c := Unit.clusterOf k
    ∀ x ∈ [(Instr.copy k .clean, 1), (.gather k .clean, 4), (.scatter k .clean, 5), (.zero k, 6)], d.op = x.2 →
    (∃ t q', exec x.1 s = .next t ∧ q'.moved = true ∧ q'.words = q.words ∧
      (t.mover k).active = (s.mover k).active.map (fun y => if y.serial = q.serial then q' else y) ∧
      (∀ j : Nat, j ≠ k.val → t.mover j = s.mover j) ∧ t.mem.hbm = s.mem.hbm ∧ t.fields = s.fields ∧
      (d.dstSp = 0 → Mem.wf s.coreStore = true → apart → t.clusterStore = s.clusterStore ∧
        (∀ e ∈ d.elems, t.coreStore.readBytes (coreAddr k (at_ e)) n = data e) ∧
        (∀ b, (∀ e ∈ d.elems, b < coreAddr k (at_ e) ∨ coreAddr k (at_ e) + n ≤ b) → t.coreStore.read b = s.coreStore.read b)) ∧
      (d.dstSp = 1 → Mem.wf s.clusterStore = true → apart →
        (∀ e ∈ d.elems, ∀ i, i < n → s.cluOwns c (at_ e + i) q.owner = true) → t.coreStore = s.coreStore ∧
        (∀ e ∈ d.elems, t.clusterStore.readBytes (cluAddr c (at_ e)) n = data e) ∧
        (∀ b, (∀ e ∈ d.elems, b < cluAddr c (at_ e) ∨ cluAddr c (at_ e) + n ≤ b) → t.clusterStore.read b = s.clusterStore.read b)) ∧
      (2 ≤ d.dstSp → (∀ l ∈ d.dstLines idx, (s.lineKey q.owner ((Space.ofCode d.dstSp).getD .core) l true).isSome) →
        t.coreStore = s.coreStore ∧ t.clusterStore = s.clusterStore ∧ q'.todo.map (fun r => r.line) = d.dstLines idx ∧
        ∀ e ∈ d.elems, ∀ i, i < n → ∃ r ∈ q'.todo, ∃ b, r.line = (at_ e + i) / 256 ∧ r.write = some b ∧
          ((at_ e + i) % 256, ((data e)[i]?).getD 0) ∈ b)) ∧
    ∀ y ∈ [(Instr.copy k .uncorrectable, 1), (.gather k .uncorrectable, 4), (.scatter k .uncorrectable, 5)], d.op = y.2 → d.srcSp = 0 →
      ∃ t, exec y.1 s = .next t ∧ t.flag R.MOV_ERR.CS_UNCORR k = true ∧ t.coreStore = s.coreStore ∧ t.clusterStore = s.clusterStore ∧
        ∀ it, q.item = some it → (t.failed.find it).isSome

/-- FEED writes P + 63 lines from the destination on: lane k of line p holds the value of position p - k where that is one of the P positions and the
lane is fed, and 0 elsewhere (the skew of R208); then its control entries, one for an exact format and one a position otherwise, with EOP
and EOI on the last only, and Failed where the data were bad. No other byte of core store changes, and the block row of the engine's field has one more run of P positions. LOAD
adds one load to each of the 64 columns of the engine's block column, its elements from the bottom row up, and no byte of a store changes. -/
def Obligations.FeedAndLoad : Prop :=
  ∀ (k : Site) (s : State) (q : MovDesc) (f : OpFormat), (s.mover k).moving = some q →
    let d := Desc.ofWords q.words
    let idx := q.idx
    let tab := (s.readElems k q d idx d.fedElems).2.1
    let bad := (s.readElems k q d idx d.fedElems).2.2
    let P := d.positions
    OpFormat.ofCode d.fmt = some f →
    (∀ (scales : List (Nat × Nat)), d.op = 2 → Mem.wf s.coreStore = true →
      ∃ t, exec (.feed k scales .clean) s = .next t ∧ t.clusterStore = s.clusterStore ∧ t.mem.hbm = s.mem.hbm ∧
        s.coreStore.keptOutside t.coreStore (coreAddr k d.dst) d.feedSize ∧
        (∀ p l, p < P + 63 → l < 64 →
          let part (j : Nat) := ((feedEl d f tab ((p - l) * f.perPos + j) l).map (lineEl d f)).getD 0
          t.coreStore.readN (coreAddr k (d.dst + p * (64 * f.laneBytes) + l * f.laneBytes)) f.laneBytes =
            if l ≤ p ∧ p - l < P then (if f.perPos = 2 then part 0 % 16 + 16 * (part 1 % 16) else part 0) % 256 ^ f.laneBytes else 0) ∧
        (∀ e, e < (if f.exact then 1 else P) →
          let a := coreAddr k (d.dst + (P + 63) * (64 * f.laneBytes) + 16 * e)
          let last := decide (e + 1 = (if f.exact then 1 else P))
          let st := q.status.join (if bad then .failed else .good)
          t.coreStore.readN a 8 = (Tag.mk q.owner 0 d.granule d.bank (d.eop && last) (d.eoi && last) st d.seq).word) ∧
        (∀ a fd r, s.fieldOf k = some (a, fd, r, 0) → ∃ g, (t.fields.find a).map (fun x => x.west.findD r []) = some (fd.west.findD r [] ++ [g]) ∧
          g.addr = d.dst ∧ g.count = P ∧ g.granule = d.granule ∧ g.bank = d.bank ∧ g.item = q.item)) ∧
    (∀ (scales : List (List (Nat × Nat))) (a bc : Nat) (fd : FieldSt), d.op = 3 → s.fieldOf k = some (a, fd, 0, bc) →
      ∃ t fd', exec (.load k scales .clean) s = .next t ∧ t.coreStore = s.coreStore ∧ t.clusterStore = s.clusterStore ∧
        t.mem.hbm = s.mem.hbm ∧ t.fields.find a = some fd' ∧ fd'.sent.findD bc 0 = fd.sent.findD bc 0 + 1 ∧
        (∀ b, b ≠ a → t.fields.find b = s.fields.find b) ∧
        ∀ n, n < 64 → ∃ l, fd'.loads.findD (64 * bc + n) [] = fd.loads.findD (64 * bc + n) [] ++ [l] ∧ l.ord = fd.sent.findD bc 0 + 1 ∧
          l.bank = d.bank ∧ l.masked = !d.mask.testBit n ∧ l.eop = fd.rows - 1 ∧
          (d.mask.testBit n = true → l.els.length = fd.rows ∧
            l.tags.map (fun g => (g.granule, g.seq)) = (List.range fd.h).map (fun b => ((d.granule + b) % 2 ^ 16, d.seq)) ∧
            ∀ i, i < fd.rows → l.els[i]? = some (loadEl d f tab n (fd.rows - 1 - i))))

/-- HBM_REQUEST_ISSUE: with nothing ready among the parked, the first request no earlier write blocks takes a slot and arrives at the home line cache of its
line, while fewer than 48 are taken and its bank group holds fewer than 12; a request whose group is full parks instead; a parked one whose group
has room goes first. A fabric request issues below the mover's 512, and one that no import window covers by then is not sent and counts (R432); a host request while the device's 2,048 reads or 512 writes have room
(R518). HBM_RESPONSE takes the oldest answer, frees its slot, and stages a read's data for its descriptor, where the site serves the owner of
its tag, and discards it elsewhere (R167). The request that was issued again after a restore keeps its slot, as the first answer is taken. -/
def Obligations.MoverRequests : Prop :=
  let order (m : Mover) := (m.active.flatMap fun d => d.todo).find? fun r => !m.blocked r
  (∀ (k : Site) (s : State) (r : MovReq),
    let m := s.mover k
    let home := r.key.home (Unit.dieOf k)
    m.halt = false → (m.parked.find? fun x => m.groupUse x.group < 12) = none → m.parked.length < 16 → order m = some r → r.space = .hbm →
    (m.groupUse r.group < 12 → (∀ x ∈ m.parked, x.group ≠ r.group) → m.slots.length < 48 →
      ∃ t, exec (.hbmRequestIssue k .clean) s = .next t ∧ (t.mover k).slots = m.slots ++ [r] ∧ (t.mover k).parked = m.parked ∧
        (t.cache home).inq = (s.cache home).inq ++ [⟨r.key, r.write, false, s.isGlade r.owner, r.owner, some (k.val, r)⟩] ∧
        t.rd R.MOV_STATE.SLOTS k = m.slots.length + 1 ∧ t.mem.hbm = s.mem.hbm ∧ t.coreStore = s.coreStore ∧
        (∀ j : Nat, j ≠ k.val → t.mover j = s.mover j)) ∧
    (12 ≤ m.groupUse r.group →
      ∃ t, exec (.hbmRequestIssue k .clean) s = .next t ∧ (t.mover k).parked = m.parked ++ [r] ∧ (t.mover k).slots = m.slots ∧
        t.mem.lc = s.mem.lc ∧ t.coreStore = s.coreStore)) ∧
  (∀ (k : Site) (s : State) (r : MovReq),
    let m := s.mover k
    m.halt = false → m.slots.length < 48 → (m.parked.find? fun x => m.groupUse x.group < 12) = some r →
    ∃ t, exec (.hbmRequestIssue k .clean) s = .next t ∧ (t.mover k).slots = m.slots ++ [r] ∧ r ∉ (t.mover k).parked) ∧
  (∀ (k : Site) (s : State) (r : MovResp) (rest : List MovResp), (s.mover k).resp = r :: rest →
    r.tag.owner = s.rd R.STR_SITE.OWNER k →
    let again := ∃ q ∈ (s.mover k).late, q.id = r.req.id
    ∃ t, exec (.hbmResponse k .clean) s = .next t ∧ (t.mover k).resp = rest ∧
      (¬ again → (t.mover k).slots = (s.mover k).slots.filter (fun q => q.id ≠ r.req.id)) ∧
      (again → (t.mover k).slots = (s.mover k).slots ∧ (t.mover k).late = (s.mover k).late.filter (fun q => q.id ≠ r.req.id)) ∧ t.coreStore = s.coreStore ∧ t.mem.lc = s.mem.lc ∧
      (∀ (d : MovDesc), (s.mover k).active = [d] → d.serial = r.req.desc → r.req.id ∈ d.waiting → r.req.write = none →
        (t.mover k).active = [{ d with waiting := d.waiting.filter (fun j => j ≠ r.req.id), failed := d.failed || r.failed,
                                       owed := d.owed || (r.failed && !r.noted), todo := d.todo.filter (fun q => q.id ≠ r.req.id),
                                       staged := d.staged.put (r.req.space, r.req.line) r.data }])) ∧
  (∀ (k : Site) (s : State) (r : MovResp) (rest : List MovResp), (s.mover k).resp = r :: rest → r.tag.owner ≠ s.rd R.STR_SITE.OWNER k →
    ∃ t, exec (.hbmResponse k .clean) s = .next t ∧ t.mover k = { s.mover k with resp := rest } ∧ t.coreStore = s.coreStore) ∧
  (∀ (k : Site) (s : State) (r : MovReq),
    let m := s.mover k
    m.halt = false → (m.parked.find? fun x => m.groupUse x.group < 12) = none → m.parked.length < 16 → order m = some r →
    (r.space = .host → ((if r.write.isSome then 512 else 2048) < s.hostRequests r.write.isSome + r.hostParts →
        exec (.hbmRequestIssue k .clean) s = .next s) ∧
      (s.hostRequests r.write.isSome + r.hostParts ≤ (if r.write.isSome then 512 else 2048) →
        ∃ t, exec (.hbmRequestIssue k .clean) s = .next t ∧ (t.mover k).host = m.host ++ [r] ∧ (t.mover k).slots = m.slots)) ∧
    (r.space = .woruri → s.lineKey r.owner .woruri r.line r.write.isSome = none →
      ∃ t, exec (.hbmRequestIssue k .clean) s = .next t ∧ (t.mover k).fabric = m.fabric ∧ t.mem.lc = s.mem.lc ∧ t.coreStore = s.coreStore ∧
        ∀ d ∈ (t.mover k).active, d.serial = r.desc → ∀ x ∈ d.todo, x.id ≠ r.id) ∧
    (r.space = .woruri → (s.lineKey r.owner .woruri r.line r.write.isSome).isSome → m.fabric.length < 512 →
      ∃ t, exec (.hbmRequestIssue k .clean) s = .next t ∧ (t.mover k).fabric = m.fabric ++ [r] ∧ (t.mover k).slots = m.slots))

/-- LINE_CACHE_REQUEST of whatever sender, code and prefetch answers, and stores nothing in HBM, core store or cluster store. Where it prefetches nothing, of a line
that is not lost: a request for a line whose fill is in flight waits behind it, and one whose fill an invalidate or an atomic has met is left until that fill ends; otherwise a read of a held line leaves the mover that asked the bytes of the line as they
stand; a write of a held HBM line changes exactly its bytes and makes the line dirty; a line not held begins one fill, behind which later requests
wait. LINE_FILL of any line, once its data have come or failed, ends the fill, and installs the line where they came; it answers those that waited, in their order, and installs the line with the bytes written meanwhile; a dirty victim goes
back to HBM (the requests that wait are no journal writes here). No other line that the cache holds changes. -/
def Obligations.LineCacheServes : Prop :=
  (∀ (d : Die) (ext : Option LcReq) (ecc : Ecc) (ahead : Nat) (s : State), ∃ t, exec (.lineCacheRequest d ext ecc ahead) s = .next t ∧
    t.mem.hbm = s.mem.hbm ∧ t.coreStore = s.coreStore ∧ t.clusterStore = s.clusterStore ∧ t.fields = s.fields ∧ t.eng = s.eng) ∧
  (∀ (d : Die) (ahead : Nat) (s : State) (r : LcReq) (rest : List LcReq) (n : Nat), s.flag R.HBM_LC_STATE.IN_SERVICE d = true →
    (s.flag R.HBM_LC_CTRL.PF_EN d = false ∨ ahead = 0 ∨ r.write.isSome) → (s.cache d).inq = r :: rest → r.key = .hbm n → r.journal = false → s.keyOut (.hbm n) = false →
    (∀ f : Fill, (s.cache d).fill (.hbm n) = some f → f.dropped = true → exec (.lineCacheRequest d none .clean ahead) s = .next s) ∧
    (∀ f : Fill, (s.cache d).fill (.hbm n) = some f → f.dropped = false →
      ∃ t, exec (.lineCacheRequest d none .clean ahead) s = .next t ∧ (t.cache d).fill (.hbm n) = some { f with waiting := f.waiting ++ [r] } ∧
        (t.cache d).inq = rest ∧ (t.cache d).lines = (s.cache d).lines ∧ t.mem.hbm = s.mem.hbm ∧ t.mem.movers = s.mem.movers) ∧
    ((s.cache d).fill (.hbm n) = none → LineKey.hbm n ∉ (s.cache d).lost →
    (∀ (l : LcLine) (k : Nat) (q : MovReq), (s.cache d).line (.hbm n) = some l → r.write = none → r.mover = some (k, q) →
      (s.mover k).expects q = true → q.squashed = false →
      ∃ t, exec (.lineCacheRequest d none .clean ahead) s = .next t ∧ (t.mover k).resp = (s.mover k).resp ++ [{ req := q, data := l.data, failed := false, noted := q.space = .woruri || q.space = .host }] ∧
        (t.cache d).lines = (s.cache d).lines ∧ (t.cache d).inq = rest ∧ t.mem.hbm = s.mem.hbm) ∧
    (∀ (l : LcLine) (b : LineBytes), (s.cache d).line (.hbm n) = some l → r.write = some b →
      ∃ t l', exec (.lineCacheRequest d none .clean ahead) s = .next t ∧ (t.cache d).line (.hbm n) = some l' ∧ l'.dirty = true ∧
        l'.data = applyBytes l.data b ∧ (∀ x : LineKey, x ≠ .hbm n → (t.cache d).line x = (s.cache d).line x) ∧
        t.mem.hbm = s.mem.hbm ∧ t.mem.wb = s.mem.wb) ∧
    ((s.cache d).line (.hbm n) = none → r.write = none →
      ∃ t f, exec (.lineCacheRequest d none .clean ahead) s = .next t ∧ (t.cache d).fills = (s.cache d).fills ++ [f] ∧ f.key = .hbm n ∧
        f.waiting = [r] ∧ (t.cache d).lines = (s.cache d).lines ∧ t.mem.hbm = s.mem.hbm))) ∧
  (∀ (d : Die) (s : State) (n : Nat) (f : Fill) (data : List Byte) (way : Fin 16), (s.cache d).fill (.hbm n) = some f →
    f.data = some data → f.failed = false → f.dropped = false → LineKey.hbm n ∉ (s.cache d).lost → (∀ r ∈ f.waiting, r.journal = false) →
    (s.cache d).lines.length < 131072 →
    wayAllowed (s.rd R.HBM_LC_CTRL.GLADE_WAYS d) way f.glade = true → (s.cache d).line (.hbm n) = none →
    ∃ t l, exec (.lineFill d (.hbm n) way none) s = .next t ∧ (t.cache d).line (.hbm n) = some l ∧ l.way = way.val ∧
      l.data = f.waiting.foldl (fun x r => match r.write with
        | some b => applyBytes x b
        | none => x) data ∧
      (l.dirty = true ↔ (f.dirty = true ∨ ∃ r ∈ f.waiting, r.write.isSome)) ∧ (t.cache d).fill (.hbm n) = none ∧
      (∀ x : LineKey, x ≠ .hbm n → (t.cache d).line x = (s.cache d).line x) ∧ t.mem.hbm = s.mem.hbm ∧ t.mem.wb = s.mem.wb) ∧
  (∀ (d : Die) (key : LineKey) (way : Fin 16) (victim : Option LineKey) (s : State) (f : Fill), (s.cache d).fill key = some f →
    (f.data.isSome = true ∨ f.failed = true) → wayAllowed (s.rd R.HBM_LC_CTRL.GLADE_WAYS d) way f.glade = true →
    (∀ v, victim = some v → ((s.cache d).line v).map LcLine.way = some way.val) → (victim = none → (s.cache d).lines.length < 131072) →
    ∃ t, exec (.lineFill d key way victim) s = .next t ∧ (t.cache d).fill key = none ∧ t.mem.hbm = s.mem.hbm ∧ t.coreStore = s.coreStore ∧
      t.clusterStore = s.clusterStore ∧ (f.failed = false → f.dropped = false → ((t.cache d).line key).isSome = true)) ∧
  (∀ (d : Die) (s : State) (n v : Nat) (f : Fill) (data : List Byte) (way : Fin 16) (l : LcLine), (s.cache d).fill (.hbm n) = some f →
    f.data = some data → f.failed = false → f.dropped = false → LineKey.hbm n ∉ (s.cache d).lost → (∀ r ∈ f.waiting, r.journal = false) →
    (s.cache d).line (.hbm v) = some l → l.way = way.val → l.dirty = true →
    v ≠ n → wayAllowed (s.rd R.HBM_LC_CTRL.GLADE_WAYS d) way f.glade = true →
    ∃ t, exec (.lineFill d (.hbm n) way (some (.hbm v))) s = .next t ∧ t.mem.wb = s.mem.wb ++ [⟨v, fullBytes l.data, none⟩] ∧
      (t.cache d).line (.hbm v) = none ∧ ((t.cache d).line (.hbm n)).isSome)

/-- HBM_READ gives the fill of a line the bytes of the stack with the writes on their way to it; a corrected read gives the same bytes and is
counted; an uncorrectable one, or a pair that is bad and that no write on its way rewrites whole, fails the fill, sets UNCORR, and leaves the 64-byte pair bad until it is rewritten; a stack out of service fails
every fill (R484). HBM_WRITE stores the bytes of the oldest write of its line, and no other byte of HBM changes; a whole line makes its pairs
good, and a pair written in part that reads uncorrectable is bad from then on. SCRUB_LINE moves to the next line and finds what its code says.
HBM_RESERVE_WRITE sets the glade share, at most 32, and is ignored while any glade holds an image; HBM_LC_CTRL_WRITE sets prefetch, and
GLADE_WAYS while none does. -/
def Obligations.HbmLines : Prop :=
  (∀ (k : Stack) (line : Fin (2 ^ 28)) (p : Fin 4) (s : State) (f : Fill),
    let n := k.val * 2 ^ 28 + line.val
    let c (t : State) := t.cache (k.val / 2)
    s.stackUp k = true → (c s).fill (.hbm n) = some f → f.data = none → f.failed = false →
    (s.hbmFails n = false → ∃ t g, exec (.hbmRead k line p .clean) s = .next t ∧ (c t).fill (.hbm n) = some g ∧ g.data = some (s.hbmLine n) ∧
      g.failed = false ∧ g.waiting = f.waiting ∧ t.mem.hbm = s.mem.hbm ∧ (c t).lines = (c s).lines ∧
      s.regsBut t [R.HBM_LC_STATE.DIRTY.at_ (k.val / 2)]) ∧
    (s.hbmFails n = false → ∃ t, exec (.hbmRead k line p .corrected) s = .next t ∧
      ((c t).fill (.hbm n)).map (fun g => g.data) = some (some (s.hbmLine n)) ∧
      t.rd R.HBM_ECC_CORR.COUNT k = min (s.rd R.HBM_ECC_CORR.COUNT k + 1) (2 ^ R.HBM_ECC_CORR.COUNT.w - 1)) ∧
    (∃ t, exec (.hbmRead k line p .uncorrectable) s = .next t ∧ ((c t).fill (.hbm n)).map (fun g => (g.data, g.failed)) = some (none, true) ∧
      (s.hbmFails n = false → 4 * n + p.val ∈ t.mem.hbmBad) ∧ (s.hbmFails n = true → t.hbmFails n = true) ∧ t.flag R.HBM_ERR.UNCORR k = true ∧
      (∀ it ∈ f.items, (t.failed.find it).isSome) ∧ t.mem.hbm = s.mem.hbm)) ∧
  (∀ (k : Stack) (line : Fin (2 ^ 28)) (p : Fin 4) (e : Ecc) (s : State) (f : Fill),
    let n := k.val * 2 ^ 28 + line.val
    let c (t : State) := t.cache (k.val / 2)
    s.flag R.HBM_STATE.IN_SERVICE k = false → (c s).fill (.hbm n) = some f → f.data = none → f.failed = false →
    ∃ t, exec (.hbmRead k line p e) s = .next t ∧ ((c t).fill (.hbm n)).map (fun g => (g.data, g.failed)) = some (none, true) ∧
      ∀ it ∈ f.items, (t.failed.find it).isSome) ∧
  (∀ (k : Stack) (line : Fin (2 ^ 28)) (s : State) (w : WriteBack),
    let n := k.val * 2 ^ 28 + line.val
    s.stackUp k = true → (s.mem.wb.find? fun x => x.line = n) = some w → Mem.wf s.mem.hbm = true → (∀ b ∈ w.bytes, b.1 < 256) →
    ∀ (p : Fin 4) (e : Ecc), ∃ t, exec (.hbmWrite k line p e) s = .next t ∧ t.mem.wb = s.mem.wb.erase w ∧
      t.mem.hbm.readBytes (n * 256) 256 = applyBytes (s.mem.hbm.readBytes (n * 256) 256) w.bytes ∧
      s.mem.hbm.keptOutside t.mem.hbm (n * 256) 256 ∧ t.mem.lc = s.mem.lc ∧
      (wholeLine w.bytes = true → ∀ q, q < 4 → 4 * n + q ∉ t.mem.hbmBad) ∧
      (partialPairs w.bytes = [p.val] → 4 * n + p.val ∉ s.mem.hbmBad → e = .uncorrectable →
        4 * n + p.val ∈ t.mem.hbmBad ∧ t.flag R.HBM_ERR.UNCORR k = true)) ∧
  (∀ (k : Stack) (s : State), s.stackUp k = true →
    let n := k.val * 2 ^ 28 + s.rd R.HBM_SCRUB_POS.LINE k
    ∀ (p : Fin 4) (e : Ecc), ∃ t, exec (.scrubLine k p e) s = .next t ∧
      t.rd R.HBM_SCRUB_POS.LINE k = (s.rd R.HBM_SCRUB_POS.LINE k + 1) % 2 ^ R.HBM_SCRUB_POS.LINE.w ∧ t.mem.hbm = s.mem.hbm ∧
      t.mem.lc = s.mem.lc ∧
      (e = .corrected → s.pairsBad n = false →
        t.rd R.HBM_ECC_CORR.COUNT k = min (s.rd R.HBM_ECC_CORR.COUNT k + 1) (2 ^ R.HBM_ECC_CORR.COUNT.w - 1)) ∧
      (e = .uncorrectable ∨ s.pairsBad n = true → t.flag R.HBM_ERR.SCRUB_UNCORR k = true ∧ t.pairsBad n = true) ∧
      (e = .clean → s.pairsBad n = false → s.onlyRegs t [R.HBM_SCRUB_POS.LINE.at_ k])) ∧
  (∀ (k : Stack) (v : Word) (s : State), s.managed = true →
    (s.gladeHeld = true → exec (.hbmReserveWrite k v) s = .next s) ∧
    (s.gladeHeld = false → ∃ t, exec (.hbmReserveWrite k v) s = .next t ∧ t.rd R.HBM_RESERVE.RES k = min 32 (v.toNat % 64) ∧
      s.onlyRegs t [R.HBM_RESERVE.RES.at_ k])) ∧
  (∀ (d : Die) (v : Word) (s : State), s.managed = true →
    ∃ t, exec (.hbmLcCtrlWrite d v) s = .next t ∧ t.rd R.HBM_LC_CTRL.PF_EN d = v.toNat % 2 ∧
      t.rd R.HBM_LC_CTRL.PF_DIST d = v.toNat / 2 % 16 ∧
      t.rd R.HBM_LC_CTRL.GLADE_WAYS d = (if s.gladeHeld then s.rd R.HBM_LC_CTRL.GLADE_WAYS d else min 8 (v.toNat / 256 % 16)) ∧
      s.onlyRegs t [R.HBM_LC_CTRL.PF_EN.at_ d, R.HBM_LC_CTRL.PF_DIST.at_ d, R.HBM_LC_CTRL.GLADE_WAYS.at_ d])

/-- IMG_ARG_WRITE sets an argument of the next load, and is ignored while BUSY is 1. START of a load whose target is an Active clearing, with an image
exactly where MODE is 1, and whose length fits, begins FETCH with the next LOAD_SEQ; otherwise it ends Refused with REASON 0x01 or 0x02; a
START while BUSY is lost. IMAGE_HEADER_ARRIVE, VERIFY_END and ADMIT_END end the load Refused by the first check that fails, and otherwise go on;
While the host link is open,
FETCH_END of an image with that header begins VERIFY, and holds its SHA-384; data that came poisoned end the load Failed, which is the model's choice (log entry 151). Each event of a load that has lost a unit it staged or placed on fails it (ImageLoadToRelease). A refused load leaves BUSY 0, the reason and an IMAGE_LOAD event, and no clearing's image changes. -/
def Obligations.ImageLoadToAdmission : Prop :=
  let refused (s t : State) (reason : Nat) := t.rd R.GLB_IMG_STATUS.BUSY = 0 ∧ t.rd R.GLB_IMG_STATUS.STATUS = 5 ∧
    t.rd R.GLB_IMG_STATUS.REASON = reason % 256 ∧ t.rd R.HST_EVENTS.IMAGE_LOAD = 1 ∧ t.ten.load = none ∧ t.ten.images = s.ten.images
  (∀ (a : ImgArg) (v : Word) (s : State), s.managed = true → s.flag R.GLB_IMG_STATUS.BUSY = true → exec (.imgArgWrite a v) s = .next s) ∧
  (∀ (v : Word) (s : State), s.managed = true → s.flag R.GLB_IMG_STATUS.BUSY = false →
    (∃ t, exec (.imgArgWrite .src v) s = .next t ∧ t.rd R.GLB_IMG_SRC.ADDR = v.toNat / 4096 ∧ s.onlyRegs t [R.GLB_IMG_SRC.ADDR.at_]) ∧
    (∃ t, exec (.imgArgWrite .len v) s = .next t ∧ t.rd R.GLB_IMG_LEN.LEN = v.toNat % 2 ^ 30 ∧ s.onlyRegs t [R.GLB_IMG_LEN.LEN.at_]) ∧
    (∃ t, exec (.imgArgWrite .target v) s = .next t ∧ t.rd R.GLB_IMG_TARGET.OWNER = v.toNat % 2048 ∧
      t.rd R.GLB_IMG_TARGET.MODE = v.toNat / 2048 % 4 ∧ s.onlyRegs t [R.GLB_IMG_TARGET.OWNER.at_, R.GLB_IMG_TARGET.MODE.at_]) ∧
    (∃ t, exec (.imgArgWrite .actTime v) s = .next t ∧ t.rd R.GLB_IMG_ACT_TIME.NS = v.toNat % 2 ^ 32 ∧
      t.rd R.GLB_IMG_ACT_TIME.SEC_LO = v.toNat / 2 ^ 32 ∧ s.onlyRegs t [R.GLB_IMG_ACT_TIME.NS.at_, R.GLB_IMG_ACT_TIME.SEC_LO.at_]) ∧
    (∃ t, exec (.imgArgWrite .drain v) s = .next t ∧ t.rd R.GLB_IMG_DRAIN.LIMIT_US = v.toNat % 2 ^ 24 ∧
      s.onlyRegs t [R.GLB_IMG_DRAIN.LIMIT_US.at_])) ∧
  (∀ s : State, s.managed = true → s.flag R.GLB_IMG_STATUS.BUSY = true →
    ∃ t, exec .start s = .next t ∧ t.rd R.GLB_IMG_STATUS.START_LOST = 1 ∧ s.onlyRegs t [R.GLB_IMG_STATUS.START_LOST.at_]) ∧
  (∀ s : State, s.managed = true → s.flag R.GLB_IMG_STATUS.BUSY = false →
    let o := s.rd R.GLB_IMG_TARGET.OWNER
    let mode := s.rd R.GLB_IMG_TARGET.MODE
    let good := o < 1024 ∧ s.tenState o = 1 ∧ mode ≤ 1 ∧ (mode = 1 ↔ s.holdsImage o = true)
    let fits := 8496 ≤ s.rd R.GLB_IMG_LEN.LEN ∧ s.rd R.GLB_IMG_LEN.LEN ≤ 512 * 2 ^ 20
    (good ∧ fits → ∃ t, exec .start s = .next t ∧ t.rd R.GLB_IMG_STATUS.BUSY = 1 ∧ t.phase = 1 ∧
      t.rd R.GLB_IMG_STATUS.LOAD_SEQ = (s.rd R.GLB_IMG_STATUS.LOAD_SEQ + 1) % 2 ^ 32 ∧
      t.ten.load = some { owner := o, replace := mode = 1, staged := (List.range 16).filter fun k => s.flag R.HBM_STATE.IN_SERVICE k } ∧ t.ten.images = s.ten.images) ∧
    (¬ good → ∃ t, exec .start s = .next t ∧ refused s t 0x01) ∧
    (good → ¬ fits → ∃ t, exec .start s = .next t ∧ refused s t 0x02)) ∧
  (∀ (bytes : List Byte) (s : State) (l : LoadSt), s.ten.load = some l → s.loadLost = none → s.hostOpen = true → s.phase = 1 → l.hdr = none →
    let h := ImgHeader.ofBytes bytes
    (∀ r, s.checkHeader h = some r → ∃ t, exec (.imageHeaderArrive bytes) s = .next t ∧ refused s t r.reason) ∧
    (s.checkHeader h = none → exec (.imageHeaderArrive bytes) s = .next (s.setLoad { l with hdr := some h }) ∧
      h.totalLen = s.rd R.GLB_IMG_LEN.LEN ∧ h.part = partNumber ∧ h.broken = none ∧ (s.keySlot h.keyId).isSome)) ∧
  (∀ (i : Image) (s : State) (l : LoadSt) (h : ImgHeader), s.ten.load = some l → s.loadLost = none → s.hostOpen = true → s.phase = 1 → l.hdr = some h →
    (∃ t, exec (.fetchEnd i true) s = .next t ∧ t.ten.load = none ∧ t.rd R.GLB_IMG_STATUS.BUSY = 0 ∧ t.rd R.GLB_IMG_STATUS.STATUS = 3 ∧
      t.ten.images = s.ten.images) ∧
    (i.bytes.length = h.sigOff → ImgHeader.ofBytes i.bytes = h →
      ∃ t, exec (.fetchEnd i false) s = .next t ∧ t.phase = 2 ∧ t.ten.load = some { l with img := some { i with digest := beNat (Sha.sha384 i.bytes) } } ∧
        s.regsBut t [R.GLB_IMG_STATUS.PHASE.at_]) ∧
    (i.bytes.length ≠ h.sigOff ∨ ImgHeader.ofBytes i.bytes ≠ h → exec (.fetchEnd i false) s = .next s)) ∧
  (∀ (rsa slh : Bool) (s : State) (l : LoadSt) (h : ImgHeader) (slot floor : Nat), s.ten.load = some l → s.loadLost = none → s.phase = 2 → l.hdr = some h →
    s.keySlot h.keyId = some (slot, floor) →
    ∃ t, exec (.verifyEnd rsa slh) s = .next t ∧ (rsa = false → refused s t 0x07) ∧ (rsa = true → slh = false → refused s t 0x08) ∧
      (rsa = true → slh = true → h.secVer < floor → refused s t 0x09) ∧
      (rsa = true → slh = true → floor ≤ h.secVer → t.phase = 3 ∧ t.ten.load = some { l with slot := slot } ∧
        s.regsBut t [R.GLB_IMG_STATUS.PHASE.at_])) ∧
  (∀ (s : State) (l : LoadSt) (h : ImgHeader) (i : Image), s.ten.load = some l → s.loadLost = none → s.phase = 3 → l.hdr = some h → l.img = some i →
    (∀ r, s.admission l.owner h i = .error r → ∃ t, exec .admitEnd s = .next t ∧ refused s t r.reason) ∧
    (∀ v, s.admission l.owner h i = .ok v → ∃ t, exec .admitEnd s = .next t ∧ t.phase = 4 ∧ t.ten.load = some { l with result := some v } ∧
      s.regsBut t [R.GLB_IMG_STATUS.PHASE.at_] ∧ ∀ (d : Nat), ∀ w ∈ t.samplesOf d, ∀ k ∈ s.placedSites v, w.arbiter ≠ some k ∧
        (w.mismatch = none → w.checker ≠ some k))) ∧
  (∀ (s : State) (o : Nat) (h : ImgHeader) (i : Image) (v : Loaded), s.admission o h i = .ok v →
    v.img = i ∧ i.numeric.bad = false ∧ i.glade = s.isGlade o ∧ (i.glade = true → s.holdsImage o = false ∧ i.atomics = false) ∧
    (∀ c ∈ i.cores, c.storeKiB + c.combKiB ≤ 1536 ∧ c.valid = true) ∧ i.queues.length ≤ s.rd R.SCH_TEN_BUDGET.QUEUES 0 o)

/-- DISTRIBUTE_END begins DRAIN for a replacement and SWITCH for a new image. DRAIN_END begins SWITCH once every accepted item has its completion;
DRAIN_LIMIT_EXPIRE ends incomplete items first. SWITCH_WINDOW_END gives the clearing its cluster-store blocks of that core set, zeroed, and records
the longest window; the last one releases an inference image, and leaves a glade waiting in ACTIVATE. GLADE_ACTIVATE at or after the
activation drumbeat releases it. Where a unit that the load staged or placed on has been contained, each of these ends it Failed instead, and names
the record. A released load ends Done with the clearing holding the image. ABORT ends a load Cancelled, but not one in
SWITCH. -/
def Obligations.ImageLoadToRelease : Prop :=
  let done (s t : State) (o : Nat) (r : Loaded) := t.ten.images.find o = some r ∧ t.holdsImage o = true ∧ t.ten.load = none ∧
    t.rd R.GLB_IMG_STATUS.BUSY = 0 ∧ t.rd R.GLB_IMG_STATUS.STATUS = 0 ∧ t.rd R.GLB_IMG_STATUS.REASON = 0 ∧
    t.rd R.GLB_IMG_COUNTS.DONE = min (s.rd R.GLB_IMG_COUNTS.DONE + 1) (2 ^ 16 - 1)
  (∀ (s : State) (l : LoadSt) (q : Nat), s.ten.load = some l → s.loadLost = some q → s.ten.resets.find l.owner = none →
    ∀ (bytes : List Byte) (i : Image) (c : Cluster) (ns : Fin 50001) (rsa slh poison : Bool),
      ∀ x ∈ [Instr.imageHeaderArrive bytes, .fetchEnd i poison, .verifyEnd rsa slh, .admitEnd, .distributeEnd, .drainEnd, .drainLimitExpire, .switchWindowEnd c ns,
        .gladeActivate],
      ∃ t, exec x s = .next t ∧ t.ten.load = none ∧ t.rd R.GLB_IMG_STATUS.BUSY = 0 ∧ t.rd R.GLB_IMG_STATUS.STATUS = 3 ∧
        t.rd R.GLB_IMG_ERR_SEQ.SEQ = q % 2 ^ R.GLB_IMG_ERR_SEQ.SEQ.w ∧ (s.phase < 6 → t.ten.images = s.ten.images)) ∧
  (∀ (s : State) (l : LoadSt), s.ten.load = some l → s.loadLost = none → s.phase = 4 → l.replace = true →
    ∃ t, exec .distributeEnd s = .next t ∧ t.phase = 5 ∧ t.ten.load = some { l with drainStart := s.elapsed } ∧ t.ten.images = s.ten.images) ∧
  (∀ (s : State) (l : LoadSt) (r : Loaded), s.ten.load = some l → s.loadLost = none → l.result = some r → r.placed ≠ [] →
    let into (t : State) := t.phase = 6 ∧ t.ten.load = some { l with windows := (r.placed.map Placed.cluster).eraseDups } ∧
      t.holdsImage l.owner = false ∧ t.ten.images.find l.owner = none
    (s.phase = 4 → l.replace = false → ∃ t, exec .distributeEnd s = .next t ∧ into t) ∧
    (s.phase = 5 → s.drainLeft l.owner = false → ∃ t, exec .drainEnd s = .next t ∧ into t) ∧
    (s.phase = 5 → s.drainLeft l.owner = true → exec .drainEnd s = .next s) ∧
    (s.phase = 5 → 0 < s.rd R.GLB_IMG_DRAIN.LIMIT_US → l.drainStart + s.rd R.GLB_IMG_DRAIN.LIMIT_US * 5000 ≤ s.elapsed →
      ∃ t, exec .drainLimitExpire s = .next t ∧ (into t ∨ t.drainLeft l.owner = true)) ∧
    (s.phase = 5 → s.elapsed < l.drainStart + s.rd R.GLB_IMG_DRAIN.LIMIT_US * 5000 → exec .drainLimitExpire s = .next s)) ∧
  (∀ (c : Cluster) (ns : Fin 50001) (s : State) (l : LoadSt) (r : Loaded), s.ten.load = some l → s.loadLost = none → l.result = some r → s.phase = 6 →
    c.val ∈ l.windows → s.ten.resets.find l.owner = none →
    let ws := l.windows.filter fun w => w ≠ c.val
    (ws ≠ [] → ∃ t, exec (.switchWindowEnd c ns) s = .next t ∧ t.phase = 6 ∧ t.ten.load = some { l with windows := ws } ∧
      t.rd R.GLB_IMG_WINDOW.LONGEST_NS = max (s.rd R.GLB_IMG_WINDOW.LONGEST_NS) ns.val % 2 ^ 32 ∧
      ∀ b, (c.val, b) ∈ r.blocks → t.mem.blockOwner.find (c.val, b) = some l.owner ∧
        ∀ a, b * 65536 ≤ a → a < b * 65536 + 65536 → t.clusterStore.read (cluAddr c a) = 0) ∧
    (ws = [] → r.img.glade = true → ∃ t, exec (.switchWindowEnd c ns) s = .next t ∧ t.phase = 7 ∧ t.ten.images = s.ten.images ∧
      ∃ l' m, t.ten.load = some l' ∧ l'.actSlot = some m ∧ l'.result = some r) ∧
    (ws = [] → r.img.glade = false → ∃ t, exec (.switchWindowEnd c ns) s = .next t ∧ done s t l.owner r)) ∧
  (∀ (s : State) (l : LoadSt) (r : Loaded) (m : Int), s.ten.load = some l → s.loadLost = none → l.result = some r → s.phase = 7 → l.actSlot = some m →
    let now := s.slotAt ((r.img.radio.map ImgRadio.mu).getD 0) s.tai
    (now < m → exec .gladeActivate s = .next s) ∧ (m ≤ now → ∃ t, exec .gladeActivate s = .next t ∧ done s t l.owner r)) ∧
  (∀ (s : State) (l : LoadSt), s.managed = true → s.ten.load = some l → s.loadLost = none →
    (s.phase = 6 → exec .abort s = .next s) ∧
    (s.phase < 6 → ∃ t, exec .abort s = .next t ∧ t.rd R.GLB_IMG_STATUS.BUSY = 0 ∧ t.rd R.GLB_IMG_STATUS.STATUS = 2 ∧ t.ten.load = none ∧
      t.ten.images = s.ten.images) ∧
    (6 < s.phase → ∃ t, exec .abort s = .next t ∧ t.rd R.GLB_IMG_STATUS.STATUS = 2 ∧ t.ten.load = none ∧ t.holdsImage l.owner = false))

/-- ARM with no cause to refuse it arms the barrier of its clearing: its resident contexts are held, and STATE reads Armed; a cause 1 to 4 makes STATE
read Refused with that CAUSE, and cause 5 sets ARM_REFUSED alone. A barrier is armed only for an Active inference clearing with an image and no incomplete item, at least 20 µs ahead. CANCEL ends it
Cancelled, with no context held (that is no standby). BARRIER_RELEASE before T does nothing; at T it starts the units of every resident context, and ends Released when none is left, with
STATE 5 and its lateness where it is late or a step went past T. -/
def Obligations.BarriersHoldAndRelease : Prop :=
  let st := R.GLB_DET_BAR_STATUS.STATE
  (∀ s : State, s.armCause = 0 → let o := s.rd R.GLB_DET_BAR_TARGET.OWNER
    o < 1024 ∧ s.tenState o = 1 ∧ s.flag R.SCH_TEN_CFG.CLASS 0 o = false ∧ s.holdsImage o = true ∧ s.incomplete o = false ∧
      s.tai + 20000 ≤ s.barTime ∧ s.rd R.GLB_DET_BAR_TIME.NS ≤ 999999999 ∧ s.det.bar = none) ∧
  (∀ s : State, s.managed = true →
    let o := s.rd R.GLB_DET_BAR_TARGET.OWNER
    (s.armCause = 0 → ∃ t, exec .arm s = .next t ∧ t.det.bar = some { owner := o, t := s.barTime, left := s.ctxIxs o } ∧
      t.rd st = 1 ∧ t.rd R.GLB_DET_BAR_STATUS.OWNER = o % 2048 ∧ t.rd R.GLB_DET_BAR_STATUS.CAUSE = 0 ∧
      ∀ i c, s.ctx (o, i) = some c → c.res = .resident → (t.ctx (o, i)).map (fun c => c.held) = some true) ∧
    (s.armCause ≠ 0 → s.armCause ≠ 5 → ∃ t, exec .arm s = .next t ∧ t.rd st = 3 ∧
      t.rd R.GLB_DET_BAR_STATUS.CAUSE = s.armCause ∧ t.rd R.GLB_DET_BAR_STATUS.OWNER = o % 2048 ∧ t = { s with regs := t.regs }) ∧
    (s.armCause = 5 → ∃ t, exec .arm s = .next t ∧ t.rd R.GLB_DET_BAR_STATUS.ARM_REFUSED = 1 ∧
      s.onlyRegs t [R.GLB_DET_BAR_STATUS.ARM_REFUSED.at_])) ∧
  (∀ (s : State) (b : BarSt), s.det.bar = some b → (∀ x ∈ s.err.standby, x.1 ≠ b.owner) →
    (∀ i c, s.ctx (b.owner, i) = some c → c.standby = false) →
    (s.managed = true → ∃ t, exec .cancel s = .next t ∧ t.det.bar = none ∧ t.rd st = 4 ∧ t.rd R.GLB_DET_BAR_STATUS.OWNER = b.owner % 2048 ∧
      ∀ i c, t.ctx (b.owner, i) = some c → c.held = false) ∧
    (s.tai < b.t → exec .barrierRelease s = .next s) ∧
    (b.t ≤ s.tai → b.reached = false →
      let resident (i : Nat) := (s.ctx (b.owner, i)).any fun c => c.res = .resident
      let left := b.left.filter fun i => !resident i
      ∃ t, exec .barrierRelease s = .next t ∧
        (∀ i ∈ b.left, resident i = true → (t.ctx (b.owner, i)).map (fun c => c.held) = some false) ∧
        (left = [] → t.det.bar = none ∧ t.rd st = (if b.late = 0 ∧ b.stepped = false then 2 else 5) ∧
          t.rd R.GLB_DET_BAR_STATUS.LATE_NS = min b.late 0xFFFFFFFF) ∧
        (left ≠ [] → t.det.bar = some { b with reached := true, left := left })))

/-- SENTINEL_SAMPLE puts what a selected engine-pass worked on, with the granule partials its operands give or those an upset engine formed (log entry 101),
into the reserve of its die, or counts it skipped where the reserve is full or the path busy; without a selected pass it does nothing.
SENTINEL_CHECK_START gives the record the checker found, or in arbitration the arbiter found: a site that no clearing holds, not on probation,
and in another quadrant. SENTINEL_CHECK_DONE counts a match and frees the record; on a mismatch two good cores become suspect, the mismatch is
counted and shown. SENTINEL_ARBITER_DONE retires the core that differs from the arbiter, or puts all three on probation. SENTINEL_TIMEOUT drops
a record no checker took within 100 ms, and leaves one that no arbiter took undecided. PENDING_CLEAR frees GLB_SENT_LAST. -/
def Obligations.SentinelSamples : Prop :=
  (∀ (k : Site) (upset : Option (List GranPartial)) (env : CoreEnv) (busy : Bool) (s : State) (a b c : Nat) (f : FieldSt),
    let d := Unit.dieOf k
    s.fieldOf k = some (a, f, b, c) →
    (s.sampled f k = none → exec (.sentinelSample k upset env busy) s = .next s) ∧
    (∀ (n : Nat) (h : PassHead), s.sampled f k = some (n, h) → (f.glade = false ∨ s.flag R.GLB_SENT_CTRL.GLADES = true) →
      let p := s.enginePass f b c h
      let q := upset.getD p.partials
      let new : Sample := { site := k.val, owner := f.owner, item := h.item, pass := p, partials := q, env := s.coreRun k h.since env, since := s.elapsed }
      (busy = false → (s.samplesOf d).length < 64 → ∃ t, exec (.sentinelSample k upset env busy) s = .next t ∧
        t.samplesOf d = s.samplesOf d ++ [new] ∧
        t = { s with fields := t.fields, det := { s.det with samples := t.det.samples } } ∧ ∀ e, e ≠ d → t.samplesOf e = s.samplesOf e) ∧
      ((busy = true ∨ 64 ≤ (s.samplesOf d).length) → ∃ t, exec (.sentinelSample k upset env busy) s = .next t ∧
        t.rd R.GLB_SENT_SKIPPED.COUNT = min (s.rd R.GLB_SENT_SKIPPED.COUNT + 1) (2 ^ 48 - 1) ∧
        s.regsBut t [R.GLB_SENT_SKIPPED.COUNT.at_] ∧ t.det = s.det))) ∧
  (∀ (s : State) (away : List Nat) (pref : Bool) (k : Nat), s.findChecker away pref = some k →
    s.siteHeld k = false ∧ (s.siteRec k).state ≠ .probation ∧ k ∉ s.checking ∧ ∀ a ∈ away, Unit.quadrantOf a ≠ Unit.quadrantOf k) ∧
  (∀ (d : Die) (i : Nat) (s : State) (v : Sample), (s.samplesOf d)[i]? = some v →
    (v.mismatch = none → v.checker = none → ∃ t, exec (.sentinelCheckStart d i) s = .next t ∧ t = { s with det := t.det } ∧
      t.samplesOf d = (s.samplesOf d).set i { v with checker := s.findChecker [v.site] (s.flag R.GLB_SENT_CTRL.PREFER_DIE), runSince := s.elapsed }) ∧
    (∀ got ck, v.mismatch = some got → v.checker = some ck → v.arbiter = none →
      ∃ t, exec (.sentinelCheckStart d i) s = .next t ∧ t = { s with det := t.det } ∧
        t.samplesOf d = (s.samplesOf d).set i { v with arbiter := s.findChecker [v.site, ck] true, runSince := s.elapsed }) ∧
    (∀ (ck : Nat) (upset : Option (List GranPartial)) (env : CoreEnv), v.checker = some ck → v.mismatch = none →
      let p := upset.getD v.pass.partials
      (p = v.partials → ∃ t, exec (.sentinelCheckDone d i upset env) s = .next t ∧ t.samplesOf d = (s.samplesOf d).eraseIdx i ∧
        t.rd R.GLB_SENT_RUNS.COUNT = min (s.rd R.GLB_SENT_RUNS.COUNT + 1) (2 ^ 48 - 1)) ∧
      (p ≠ v.partials → (s.siteRec v.site).state = .good → (s.siteRec ck).state = .good →
        ∃ t w, exec (.sentinelCheckDone d i upset env) s = .next t ∧ t.samplesOf d = (s.samplesOf d).set i w ∧ w.mismatch = some p ∧
          (t.siteRec v.site).state = .suspect ∧ (t.siteRec ck).state = .suspect ∧ t.flag R.GLB_SENT_LAST.PENDING = true ∧
          t.rd R.GLB_SENT_MISMATCH.COUNT = min (s.rd R.GLB_SENT_MISMATCH.COUNT + 1) (2 ^ 32 - 1))) ∧
    (∀ (ck ar : Nat) (got : List GranPartial) (upset : Option (List GranPartial)) (env : CoreEnv), v.checker = some ck → v.arbiter = some ar →
      v.mismatch = some got →
      let p := upset.getD v.pass.partials
      ∃ t, exec (.sentinelArbiterDone d i upset env) s = .next t ∧ t.samplesOf d = (s.samplesOf d).eraseIdx i ∧
        (p = got → (t.siteRec v.site).state = .retired ∧ (v.shown = true → t.rd R.GLB_SENT_LAST.VERDICT = 1)) ∧
        (p ≠ got → p = v.partials → (t.siteRec ck).state = .retired ∧ (v.shown = true → t.rd R.GLB_SENT_LAST.VERDICT = 2)) ∧
        (p ≠ got → p ≠ v.partials → v.site ≠ ck → ar ≠ v.site → ar ≠ ck → (s.siteRec v.site).state = .suspect →
          (s.siteRec ck).state = .suspect → (s.siteRec ar).state = .good →
          (t.siteRec v.site).state = .probation ∧ (t.siteRec ck).state = .probation ∧ (t.siteRec ar).state = .probation)) ∧
    (v.since + millis 100 ≤ s.elapsed →
      (v.mismatch = none → v.checker = none → ∃ t, exec (.sentinelTimeout d i) s = .next t ∧
        t.samplesOf d = (s.samplesOf d).eraseIdx i ∧
        t.rd R.GLB_SENT_SKIPPED.COUNT = min (s.rd R.GLB_SENT_SKIPPED.COUNT + 1) (2 ^ 48 - 1)) ∧
      (v.mismatch ≠ none → v.arbiter = none → ∃ t, exec (.sentinelTimeout d i) s = .next t ∧
        t.samplesOf d = (s.samplesOf d).eraseIdx i ∧ (v.shown = true → t.rd R.GLB_SENT_LAST.VERDICT = 3))) ∧
    (s.elapsed < v.since + millis 100 → exec (.sentinelTimeout d i) s = .next s)) ∧
  (∀ s : State, s.managed = true → ∃ t, exec .pendingClear s = .next t ∧ t.rd R.GLB_SENT_LAST.PENDING = 0 ∧
    s.regsBut t [R.GLB_SENT_LAST.PENDING.at_] ∧ t = { s with regs := t.regs, det := { s.det with samples := t.det.samples } } ∧
    ∀ d, t.samplesOf d = (s.samplesOf d).map fun v => { v with shown := false })

/-- A command of SCH_CMD while BUSY is lost; one with a cause ends Refused with it and changes no clearing. CREATE makes its owner's clearing Active with
the class, reach, budgets and weight of its arguments, its queues taken from the pool. BUDGET sets both budgets, the pool keeping the sum.
MAP_EXTENT begins zeroing; EXTENT_ZERO_DONE leaves its pages reading zero and stops the owner's movers from starting descriptors, or ends Failed.
UNMAP_EXTENT stops them at once. MOVERS_IDLE installs or removes the extent and ends Done; MOVERS_BUSY ends Refused with 0x0D. -/
def Obligations.TenantCommands : Prop :=
  let ended (t : State) (status cause : Nat) := t.rd R.SCH_CMD_STATUS.BUSY = 0 ∧ t.rd R.SCH_CMD_STATUS.STATUS = status ∧
    t.rd R.SCH_CMD_STATUS.CAUSE = cause ∧ t.ten.cmd = none ∧ t.rd R.HST_EVENTS.CMD_DONE = 1
  (∀ (o : Fin 2048) (s : State), s.managed = true →
    ∀ x ∈ [(Instr.create o, 1), (.mapExtent o, 2), (.unmapExtent o, 3), (.budget o, 4), (.reset o, 5), (.remove o, 6)],
    (s.flag R.SCH_CMD_STATUS.BUSY = true → ∃ t, exec x.1 s = .next t ∧ t.rd R.SCH_CMD_STATUS.CMD_LOST = 1 ∧
      s.onlyRegs t [R.SCH_CMD_STATUS.CMD_LOST.at_]) ∧
    (s.flag R.SCH_CMD_STATUS.BUSY = false → s.tenCause x.2 o ≠ 0 → ∃ t, exec x.1 s = .next t ∧ ended t 5 (s.tenCause x.2 o) ∧
      t.rd R.SCH_CMD_STATUS.OP = x.2 ∧ t.rd R.SCH_CMD_STATUS.OWNER = o.val ∧
      t.rd R.SCH_CMD_STATUS.CMD_SEQ = (s.rd R.SCH_CMD_STATUS.CMD_SEQ + 1) % 2 ^ 16 ∧
      (∀ p, t.tenState p = s.tenState p) ∧ t.mem = s.mem ∧ t.que = s.que ∧ t.sched = s.sched)) ∧
  (∀ (o : Fin 2048) (s : State), s.managed = true → s.flag R.SCH_CMD_STATUS.BUSY = false →
    let q := bitsAt (s.schArg 1) 16 17
    (s.tenCause 1 o = 0 → s.rd R.SCH_TEN_BUDGET.QUEUES 0 o = 0 → s.rd R.SCH_POOL.FREE_QUEUES ≤ 2 ^ 20 →
      ∃ t, exec (.create o) s = .next t ∧ ended t 0 0 ∧ t.tenState o = 1 ∧ t.rd R.SCH_TEN_CFG.CLASS 0 o = bitsAt (s.schArg 0) 0 1 ∧
        t.rd R.SCH_TEN_CFG.REACH 0 o = bitsAt (s.schArg 0) 1 2 ∧ t.rd R.SCH_TEN_BUDGET.CORES 0 o = bitsAt (s.schArg 1) 0 11 ∧
        t.rd R.SCH_TEN_BUDGET.QUEUES 0 o = q ∧ t.rd R.SCH_TEN_SHARE.WEIGHT 0 o = bitsAt (s.schArg 2) 0 16 ∧
        t.rd R.SCH_POOL.FREE_QUEUES + q = s.rd R.SCH_POOL.FREE_QUEUES ∧ t.holdsImage o = false ∧
        (∀ p, p ≠ o.val → t.tenState p = s.tenState p ∧ t.rd R.SCH_TEN_BUDGET.QUEUES 0 p = s.rd R.SCH_TEN_BUDGET.QUEUES 0 p) ∧
        t.mem = s.mem) ∧
    (s.tenCause 4 o = 0 → s.rd R.SCH_POOL.FREE_QUEUES + s.rd R.SCH_TEN_BUDGET.QUEUES 0 o ≤ 2 ^ 20 →
      ∃ t, exec (.budget o) s = .next t ∧ ended t 0 0 ∧ t.rd R.SCH_TEN_BUDGET.CORES 0 o = bitsAt (s.schArg 1) 0 11 ∧
        t.rd R.SCH_TEN_BUDGET.QUEUES 0 o = q ∧
        t.rd R.SCH_POOL.FREE_QUEUES + q = s.rd R.SCH_POOL.FREE_QUEUES + s.rd R.SCH_TEN_BUDGET.QUEUES 0 o ∧ t.tenState o = s.tenState o ∧
        t.mem = s.mem) ∧
    (s.tenCause 2 o = 0 → ∃ t, exec (.mapExtent o) s = .next t ∧ t.rd R.SCH_CMD_STATUS.BUSY = 1 ∧ t.mem = s.mem ∧
      t.ten.cmd = some { owner := o, index := bitsAt (s.schArg 0) 32 5, ext := some s.argExtent, phase := .zeroing }) ∧
    (s.tenCause 3 o = 0 → ∃ t, exec (.unmapExtent o) s = .next t ∧ t.rd R.SCH_CMD_STATUS.BUSY = 1 ∧ t.mem.extents = s.mem.extents ∧
      o.val ∈ t.mem.movStop ∧
      t.ten.cmd = some { owner := o, index := bitsAt (s.schArg 0) 32 5, ext := none, phase := .idle, since := s.elapsed })) ∧
  (∀ (s : State) (c : ExtentCmd), s.ten.cmd = some c →
    (∀ e, c.phase = .zeroing → c.ext = some e →
      (∃ t, exec (.extentZeroDone true) s = .next t ∧ c.owner ∈ t.mem.movStop ∧ t.mem.extents = s.mem.extents ∧
        t.ten.cmd = some { c with phase := .idle, since := s.elapsed } ∧
        (∀ a, e.devPage * 4096 ≤ a → a < (e.devPage + e.pages) * 4096 → t.mem.hbm.read a = 0) ∧
        (Mem.wf s.mem.hbm = true → s.mem.hbm.keptOutside t.mem.hbm (e.devPage * 4096) (e.pages * 4096))) ∧
      (∃ t, exec (.extentZeroDone false) s = .next t ∧ ended t 3 0 ∧ t.mem = s.mem)) ∧
    (∀ e, c.phase = .idle → c.ext = some e → s.moversIdle c.owner = true → s.rd R.SCH_TEN_BUDGET.EXTENTS 0 c.owner < 32 →
      ∃ t, exec .moversIdle s = .next t ∧ ended t 0 0 ∧ t.mem.extents.find (c.owner, c.index) = some e ∧
        (∀ k, k ≠ (c.owner, c.index) → t.mem.extents.find k = s.mem.extents.find k) ∧ c.owner ∉ t.mem.movStop ∧
        t.rd R.SCH_TEN_BUDGET.EXTENTS 0 c.owner = s.rd R.SCH_TEN_BUDGET.EXTENTS 0 c.owner + 1 ∧
        ∀ d, d < 8 → t.rd R.HBM_XT_GEN.GEN d = (s.rd R.HBM_XT_GEN.GEN d + 1) % 2 ^ R.HBM_XT_GEN.GEN.w) ∧
    (c.phase = .idle → c.ext = none → s.moversIdle c.owner = true →
      ∃ t, exec .moversIdle s = .next t ∧ ended t 0 0 ∧ t.mem.extents.find (c.owner, c.index) = none ∧
        (∀ k, k ≠ (c.owner, c.index) → t.mem.extents.find k = s.mem.extents.find k) ∧ c.owner ∉ t.mem.movStop) ∧
    (c.phase = .idle → s.moversIdle c.owner = false → exec .moversIdle s = .next s) ∧
    (c.phase = .idle → s.moversIdle c.owner = false → c.since + s.rd R.SCH_TEN_DRAIN.LIMIT_US 0 c.owner * 5000 ≤ s.elapsed →
      ∃ t, exec .moversBusy s = .next t ∧ ended t 5 0x0D ∧ t.mem.extents = s.mem.extents ∧ c.owner ∉ t.mem.movStop))

/-- RESET of an Active clearing, VF_FLR of its bound virtual function, and VF_DISABLE take it to Resetting; REMOVE takes it to Removing, from Active or
from a running reset. RESET_DRAIN_END, once every issued request is answered and no shape of the clearing is lent, and SQUASH after the drain limit leave the clearing with no image, no
stream and no cluster-store block, Active after a reset and Free without extents after a removal, with SQUASHED saying which. While a shape is
lent, SQUASH lets go of the requests, and the reset ends once it has been returned (R371). VF_UNBOUND_ACCESS counts an access of an enabled virtual
function that no clearing is bound to; of one that is bound, an access of a size or alignment that R6 ignores counts in REG of its owner, one of
the MSI-X structures counts nothing, and no access of it changes more than the violation counters of its owner (R296). -/
def Obligations.ResetAndRemoval : Prop :=
  (∀ (o : Fin 2048) (s : State), s.managed = true → s.flag R.SCH_CMD_STATUS.BUSY = false →
    (s.tenCause 5 o = 0 → ∃ t r, exec (.reset o) s = .next t ∧ t.tenState o = 2 ∧ t.ten.resets.find o.val = some r ∧ r.source = 1 ∧
      t.rd R.SCH_CMD_STATUS.STATUS = 0 ∧ t.rd R.SCH_CMD_STATUS.BUSY = 0) ∧
    (s.tenCause 6 o = 0 → s.tenState o ≠ 3 → ∃ t r, exec (.remove o) s = .next t ∧ t.tenState o = 3 ∧ t.ten.resets.find o.val = some r ∧
      r.source = 3 ∧ t.rd R.SCH_CMD_STATUS.STATUS = 0 ∧
      (∀ r', s.ten.resets.find o.val = some r' → r = { r' with source := 3 } ∧ t.mem = s.mem ∧ t.sched = s.sched))) ∧
  (∀ (vf : Fin 1024) (s : State) (o : Nat), s.configOpen = true → s.vfOn vf = true → s.vfOwner vf = some o → s.tenState o = 1 →
    (∃ t r, exec (.vfFlr vf) s = .next t ∧ t.tenState o = 2 ∧ t.ten.resets.find o = some r ∧ r.source = 2 ∧
      t.rd R.HST_VF_IRQ_CTRL.EN 0 vf = 0 ∧ t.rd R.HST_VF_IRQ_PEND.PEND 0 vf = 0) ∧
    (∃ t, exec (.vfDisable none) s = .next t ∧ t.tenState o = 2 ∧ (t.ten.resets.find o).isSome ∧ t.host.cfg.vfEnable = false) ∧
    (∀ n : Fin 1024, n.val < vf.val → ∃ t, exec (.vfDisable (some n)) s = .next t ∧ t.tenState o = 2 ∧ t.host.cfg.numVfs = n.val)) ∧
  (∀ (o : Fin 1024) (s : State) (r : ResetSt), s.ten.resets.find o.val = some r → r.step = .drain →
    let gone (t : State) (sq : Nat) := t.ten.resets.find o.val = none ∧ t.ten.images.find o.val = none ∧ t.holdsImage o = false ∧
      (∀ e ∈ t.str.streams, e.2.owner ≠ o.val) ∧ (∀ e ∈ t.mem.blockOwner, e.2 ≠ o.val) ∧
      t.rd R.SCH_TEN_RESET.SQUASHED 0 o = sq ∧ t.rd R.SCH_TEN_RESET.SOURCE 0 o = r.source % 4 ∧ t.rd R.HST_EVENTS.TENANT_RESET = 1 ∧
      (s.tenState o ≠ 3 → t.tenState o = 1) ∧
      (s.tenState o = 3 → t.tenState o = 0 ∧ t.rd R.SCH_TEN_BUDGET.QUEUES 0 o = 0 ∧ ∀ i, i < 32 → t.mem.extents.find (o.val, i) = none)
    (s.drainOpen o r = false → s.lentOpen o = false → ∃ t, exec (.resetDrainEnd o) s = .next t ∧ gone t (if r.squashed then 1 else 0)) ∧
    (s.drainOpen o r = true ∨ s.lentOpen o = true → exec (.resetDrainEnd o) s = .next s) ∧
    (s.drainOpen o r = true → r.step3 + r.limit * 5000 ≤ s.elapsed →
      (s.lentOpen o = false → ∃ t, exec (.squash o) s = .next t ∧ gone t 1) ∧
      (s.lentOpen o = true → ∃ t, exec (.squash o) s = .next t ∧ t.ten.resets.find o.val = some { r with left := [], squashed := true } ∧
        t.tenState o = s.tenState o ∧ t.ten.images = s.ten.images)) ∧
    (s.elapsed < r.step3 + r.limit * 5000 → exec (.squash o) s = .next s)) ∧
  (∀ (vf : Fin 1024) (off : Fin 0x200000) (size : Fin 65) (s : State), s.answers = true → s.vfOn vf = true →
    ((s.managed = false ∨ s.vfOwner vf = none) → ∃ t, exec (.vfUnboundAccess vf off size) s = .next t ∧
      t.rd R.SCH_VIOL_UNBOUND.COUNT = min (s.rd R.SCH_VIOL_UNBOUND.COUNT + 1) (2 ^ 32 - 1) ∧ s.onlyRegs t [R.SCH_VIOL_UNBOUND.COUNT.at_]) ∧
    (∀ o, s.managed = true → s.vfOwner vf = some o →
      (msixRange off size = true → exec (.vfUnboundAccess vf off size) s = .next s) ∧
      (msixRange off size = false → ((size ≠ 4 ∧ size ≠ 8) ∨ off.val % size.val ≠ 0) → o < 1024 → s.tenState o ≠ 0 →
        ∃ t, exec (.vfUnboundAccess vf off size) s = .next t ∧
          t.rd R.SCH_TEN_VIOL.REG 0 o = min (s.rd R.SCH_TEN_VIOL.REG 0 o + 1) (2 ^ R.SCH_TEN_VIOL.REG.w - 1) ∧ s.onlyRegs t [R.SCH_TEN_VIOL.REG.at_ 0 o]) ∧
      ∃ t, exec (.vfUnboundAccess vf off size) s = .next t ∧
        s.onlyRegs t [R.SCH_TEN_VIOL.REG.at_ 0 o, R.SCH_TEN_VIOL.QUEUE.at_ 0 o, R.SCH_VIOL_UNBOUND.COUNT.at_]))

/-- QUEUE_MAP with no cause binds a free queue to its owner's local index at a home that can hold it, under the next map generation, with nothing accepted;
QUEUE_UNMAP frees it; a cause changes no queue. DOORBELL raises DB, never lowers it, or counts a violation. ACCEPT_ATTEMPT starts reading the next
slot exactly where DB has reached it and no HOLD cause stands. SUBMISSION_ENTRY_READ of the words of that sequence begins their record; other words stop
the agent until the next doorbell. ACCEPTANCE_RECORD_ACK is the moment of acceptance: ACCEPTED rises by one, or a hold makes the writes void; while a stack of either copy cannot acknowledge, nothing happens.
Of a ring in host memory nothing is read while the link is closed. No other queue changes. -/
def Obligations.QueueAcceptance : Prop :=
  let others (s t : State) (q : Nat) := ∀ q', q' ≠ q → t.queue q' = s.queue q'
  (∀ (o : Fin 2048) (loc : Fin 65536) (s : State), s.managed = true →
    let q := bitsAt (s.rd R.QUE_ARG.ARG 0 0) 0 20
    (s.mapCause 1 o loc = 0 → ∃ t v, exec (.queueMap o loc) s = .next t ∧ t.queue q = some v ∧ v.owner = o.val ∧ v.loc = loc.val ∧
      v.accepted = 0 ∧ v.committed = 0 ∧ v.items = [] ∧ s.canHome v.home (q % 2) = true ∧ s.queue q = none ∧
      t.que.mapGen.findD q 0 = (s.que.mapGen.findD q 0 + 1) % 65536 ∧ others s t q ∧ t.rd R.QUE_CMD_STATUS.STATUS = 0) ∧
    (s.mapCause 1 o loc ≠ 0 → ∃ t, exec (.queueMap o loc) s = .next t ∧ t.que = s.que ∧ t.rd R.QUE_CMD_STATUS.STATUS = 5 ∧
      t.rd R.QUE_CMD_STATUS.CAUSE = s.mapCause 1 o loc) ∧
    (s.mapCause 2 o loc = 0 → ∃ t x, exec (.queueUnmap o loc) s = .next t ∧ s.localQueue o loc = some x ∧ t.queue x.1 = none ∧
      others s t x.1 ∧ t.rd R.QUE_CMD_STATUS.STATUS = 0 ∧ ∀ d e, t.que.dedup.find (d, e) = (if e = x.1 then none else s.que.dedup.find (d, e))) ∧
    (s.mapCause 2 o loc ≠ 0 → ∃ t, exec (.queueUnmap o loc) s = .next t ∧ t.que = s.que ∧ t.rd R.QUE_CMD_STATUS.STATUS = 5)) ∧
  (∀ (src : Reach) (v : Word) (s : State) (o : Nat), s.tenState o = 1 →
    (match src with
      | .vf n => s.answers = true ∧ s.managed = true ∧ s.vfOn n = true ∧ s.vfOwner n = some o
      | .node n o' => o' = o ∧ s.rd R.SCH_TEN_CFG.REACH 0 o = 2 ∧ s.rd R.SCH_TEN_CFG.NODE 0 o = n) →
    (∀ q x, s.localQueue o (v.toNat % 65536) = some (q, x) → ∃ t, exec (.doorbell src v) s = .next t ∧
      t.queue q = some { x with db := max x.db (v.toNat / 65536), stuck := false } ∧ others s t q ∧ t.regs = s.regs) ∧
    (s.localQueue o (v.toNat % 65536) = none → o < 1024 → ∃ t, exec (.doorbell src v) s = .next t ∧ s.onlyRegs t [R.SCH_TEN_VIOL.QUEUE.at_ 0 o] ∧
      t.rd R.SCH_TEN_VIOL.QUEUE 0 o = min (s.rd R.SCH_TEN_VIOL.QUEUE 0 o + 1) (2 ^ R.SCH_TEN_VIOL.QUEUE.w - 1))) ∧
  (∀ (q : Nat) (v : QueueSt) (s : State), s.hold q v = 0 → v.lost = false ∧ v.leaving = false ∧ s.tenState v.owner = 1 ∧
    s.holdsImage v.owner = true ∧ s.draining v.owner = false ∧ v.accepted + v.writing.length + 1 ≤ v.consumed + 2 ^ v.cqLog ∧
    s.flag R.QUE_JNL.REBUILD 0 v.home = false ∧ v.accepted + v.writing.length < 2 ^ 48 - 1) ∧
  (∀ (q raw : Nat) (words : Vector Word 8) (poison : Bool) (s : State) (v : QueueSt), s.queue q = some v → v.space = 4 → s.hostOpen = false →
    exec (.acceptAttempt q raw) s = .next s ∧ exec (.submissionEntryRead q words poison) s = .next s) ∧
  (∀ (q raw : Nat) (s : State) (v : QueueSt), s.queue q = some v → v.lost = false → v.space ≠ 2 → (v.space = 4 → s.hostOpen = true) →
    s.spaceClosed v.owner v.space v.ctrl 8 = false →
    let w := v.readConsumed raw
    let n := v.accepted + v.writing.length + 1
    let go := v.msgFed = false ∧ v.reading = none ∧ v.stuck = false ∧ n ≤ v.db ∧ s.hold q w = 0
    (go → ∃ t, exec (.acceptAttempt q raw) s = .next t ∧ t.queue q = some { w with reading := some n } ∧ others s t q) ∧
    (¬ go → ∃ t, exec (.acceptAttempt q raw) s = .next t ∧ t.queue q = some w ∧ others s t q) ∧
    v.consumed ≤ w.consumed ∧ w.consumed ≤ max v.consumed v.committed) ∧
  (∀ (q raw : Nat) (s : State) (v : QueueSt), s.queue q = some v → v.lost = false → (v.space = 4 → s.hostOpen = true) →
    ∃ t x, exec (.acceptAttempt q raw) s = .next t ∧ t.queue q = some x ∧ x.db = v.db ∧ x.accepted = v.accepted ∧ v.consumed ≤ x.consumed ∧
      (x.reading = v.reading ∨ x.reading = some (v.accepted + v.writing.length + 1)) ∧ others s t q ∧ t.mem = s.mem) ∧
  (∀ (q : Nat) (words : Vector Word 8) (poison : Bool) (s : State) (v : QueueSt) (n : Nat), s.queue q = some v → v.reading = some n →
    (v.space = 4 → s.hostOpen = true) →
    ∃ t x, exec (.submissionEntryRead q words poison) s = .next t ∧ t.queue q = some x ∧ x.reading = none ∧ x.accepted = v.accepted ∧ others s t q ∧
      (x.writing = v.writing ∨ ∃ r : AccRec, x.writing = v.writing ++ [(r, .ring)] ∧ r.owner = v.owner ∧ r.words.headD 0 % 2 ^ 48 = n)) ∧
  (∀ (q : Nat) (words : Vector Word 8) (s : State) (v : QueueSt) (n : Nat), s.queue q = some v → v.reading = some n → v.space ≠ 2 →
    s.spaceClosed v.owner v.space (v.sqBase + n % 2 ^ v.sqLog * 64) 64 = false → s.hold q v = 0 → (v.space = 4 → s.hostOpen = true) →
    ((words[0]).toNat % 2 ^ 48 = n → ∃ t r, exec (.submissionEntryRead q words false) s = .next t ∧
      t.queue q = some { v with reading := none, writing := v.writing ++ [(r, .ring)] } ∧ r.words = words.toList.map BitVec.toNat ∧
      r.owner = v.owner ∧ r.epoch = s.rd R.QUE_EPOCH.EPOCH ∧ others s t q) ∧
    ((words[0]).toNat % 2 ^ 48 ≠ n → ∃ t, exec (.submissionEntryRead q words false) s = .next t ∧
      t.queue q = some { v with reading := none, stuck := true } ∧ others s t q) ∧
    (v.space = 4 → ∃ t, exec (.submissionEntryRead q words true) s = .next t ∧ t.queue q = some { v with reading := none, stuck := true } ∧
      t.rd R.QUE_POISON.COUNT = min (s.rd R.QUE_POISON.COUNT + 1) (2 ^ 32 - 1))) ∧
  (∀ (q : Nat) (s : State) (v : QueueSt) (r : AccRec) (src : Origin) (rest : List (AccRec × Origin)), s.queue q = some v →
    v.writing = (r, src) :: rest →
    let held := (s.setQueue q { v with writing := rest }).hold q { v with writing := [] }
    (held = 0 → s.copiesUp q v = false → exec (.acceptanceRecordAck q) s = .next s) ∧
    (held = 0 → s.copiesUp q v = true → ∃ t, exec (.acceptanceRecordAck q) s = .next t ∧ others s t q ∧
      t.queue q = some { v with accepted := v.accepted + 1, writing := rest, items := v.items.put (v.accepted + 1) r }) ∧
    (held ≠ 0 → ∃ t, exec (.acceptanceRecordAck q) s = .next t ∧ others s t q ∧
      t.queue q = some { v with writing := [], reading := none }))

/-- ITEM_RELEASE puts the next accepted item not yet released into its bound entry stream as two flits of its words 1 to 7, the second with EOI, while its
context runs the image it was accepted under. ITEM_FINISH takes the exit flits of an item from each exit stream, and finishes it once EOI has come from all; of an item of one exit stream, EOI finishes it with the code of its status,
Expired where its deadline has passed, and Failed where a status reserved for glades comes in any other clearing's exit. COMMIT takes only the item after COMMITTED, once finished, and, where it ends Done or RU absent, once its stores are performed, and not past step 3 of a reset: its completion record of four words goes to
the completion ring, COMMITTED rises by one, and the effects of an item that is neither Done nor RU absent are discarded. SWEEP re-reads every
slot of a ring-fed queue, and MIRROR_REBUILD_END lets acceptance resume. -/
def Obligations.ItemsReleasedAndCommitted : Prop :=
  (∀ (q n : Nat) (s : State) (v : QueueSt) (r : AccRec) (k : Nat × Nat) (j p : Nat) (c : Ctx) (rc : Nat × Nat) (site : Nat) (w : Port) (l : Loaded),
    s.queue q = some v → v.lost = false → v.committed < n → n ≤ v.accepted →
    (∀ m r', v.committed < m → m < n → v.items.find m = some r' → r'.released = true ∨ r'.finish.isSome) →
    v.items.find n = some r → r.released = false → r.finish = none → s.entryOf v = some (k, j, p) → s.ctx k = some c →
    c.cores[j]? = some rc → s.coreSite c rc = some site → s.port (sitePort site p) = some w → s.runs k = true →
    s.loaded v.owner = some l → l.img.digest = r.digest → w.fifo.length + 2 ≤ 2 ^ w.depthLog2 →
    let tag : Tag := { owner := v.owner, seq := n % 2 ^ 20 }
    let a := r.words.drop 1
    ∃ t, exec (.itemRelease q) s = .next t ∧ t = { s with que := t.que, str := t.str, regs := t.regs, sched := t.sched } ∧
      t.port (sitePort site p) = some { w with fifo := w.fifo ++ [⟨tag, a.take 4, none⟩, ⟨{ tag with eoi := true }, a.drop 4 ++ [0], none⟩] } ∧
      (∀ p', p' ≠ sitePort site p → t.port p' = s.port p') ∧
      t.queue q = some { v with items := v.items.put n { r with released := true } }) ∧
  (∀ (q n : Nat) (s : State) (v : QueueSt) (r : AccRec) (b : ImgQueue) (l : Loaded) (ip : ImgPort) (cp y : Nat × Nat) (c : Ctx) (rc : Nat × Nat)
      (site : Nat) (w : Port) (e : Entry) (rest : List Entry),
    s.queue q = some v → v.lost = false → v.items.find n = some r → r.released = true → r.finish = none → r.exits = {} →
    s.binding v = some b → s.loaded v.owner = some l → b.exits = [ip] → ip.core? = some cp → l.coreAt cp.1 = some y →
    s.ctx (v.owner, y.1) = some c → c.cores[y.2]? = some rc → s.coreSite c rc = some site → s.port (sitePort site cp.2) = some w →
    w.fifo = e :: rest → e.tag.seq = n % 2 ^ 20 → e.tag.eoi = true →
    let foreign := s.isGlade v.owner = false ∧ (e.tag.status = .absent ∨ e.tag.status = .late)
    ∃ t r' f, exec (.itemFinish q n) s = .next t ∧ (¬ foreign → t = { s with que := t.que, str := t.str }) ∧
      (foreign → t.rd R.STR_ERR.STATUS_CLASS site = 1 ∧ t.mem = s.mem ∧ t.sched = s.sched ∧ (r.deadline.any s.passed = false → f.status = 3)) ∧
      t.port (sitePort site cp.2) = some { w with fifo := rest } ∧ t.queue q = some { v with items := v.items.put n r' } ∧
      r'.finish = some f ∧ r'.words = r.words ∧
      (r.deadline.any s.passed = true → f.status = 1) ∧
      (r.deadline.any s.passed = false → s.failed.find ⟨q, n⟩ = none → e.tag.status = .good → r.ruAbsent = false →
        f.status = 0 ∧ f.result = e.words.headD 0) ∧
      (r.deadline.any s.passed = false → s.failed.find ⟨q, n⟩ = none → e.tag.status = .good → r.ruAbsent = true → f.status = 4) ∧
      (r.deadline.any s.passed = false → (s.failed.find ⟨q, n⟩).isSome → f.status = 3)) ∧
  (∀ (q n : Nat) (s : State) (v : QueueSt) (r : AccRec) (b : ImgQueue) (l : Loaded), s.queue q = some v → v.lost = false → v.items.find n = some r →
    r.released = true → r.finish = none → s.binding v = some b → s.loaded v.owner = some l →
    ∃ t r', exec (.itemFinish q n) s = .next t ∧ t.queue q = some { v with items := v.items.put n r' } ∧ r'.words = r.words ∧ t.mem = s.mem ∧
      (r'.finish.isSome = true ↔ ∀ i, i < b.exits.length → i ∈ r'.exits.done) ∧ ∀ q', q' ≠ q → t.queue q' = s.queue q') ∧
  (∀ (q : Nat) (s : State) (v : QueueSt) (r : AccRec) (f : Finish), s.queue q = some v → v.lost = false →
    v.items.find (v.committed + 1) = some r → r.finish = some f →
    let n := v.committed + 1
    let waits := ((f.status = 0 ∨ f.status = 4) ∧ s.storesOpen ⟨q, n⟩ = true) ∨ ∃ x, s.ten.resets.find v.owner = some x ∧ x.step = .drain
    (waits → exec (.commit q) s = .next s) ∧
    (¬ waits →
    let u := s.spaceWrite v.owner v.space (v.cqBase + n % 2 ^ v.cqLog * 32) (wordBytes (v.completion n r f))
    ∃ t, exec (.commit q) s = .next t ∧ t.mem = u.mem ∧ t.wor = u.wor ∧
      (t.queue q).map (fun x => (x.committed, x.accepted, x.owner)) = some (n, v.accepted, v.owner) ∧
      (∀ q', q' ≠ q → t.queue q' = s.queue q') ∧ t.failed.find ⟨q, n⟩ = none ∧
      ((v.items.map Prod.fst).Nodup → ∀ r', (t.queue q).bind (fun x => x.items.find n) = some r' → r'.committed = true ∧
        (f.status ≠ 0 → f.status ≠ 4 → r'.effects = [])))) ∧
  (∀ (q : Nat) (s : State) (v : QueueSt), s.queue q = some v → (∀ r, v.items.find (v.committed + 1) = some r → r.finish = none) →
    exec (.commit q) s = .next s) ∧
  (∀ (v : QueueSt) (n : Nat) (r : AccRec) (f : Finish), (v.completion n r f).length = 4 ∧
    (v.completion n r f).head? = some (n % 2 ^ 48 + f.status % 16 * 2 ^ 48) ∧ (f.status = 0 → (v.completion n r f)[3]? = some (f.result % 2 ^ 64))) ∧
  (∀ (q : Nat) (s : State) (v : QueueSt), s.queue q = some v → v.msgFed = false → q ∈ s.que.sweep →
    ∃ t, exec (.sweep q) s = .next t ∧ t.queue q = some { v with db := v.accepted + 2 ^ v.sqLog, stuck := false } ∧
      q ∉ t.que.sweep ∧ t.regs = s.regs) ∧
  (∀ (d : Die) (s : State), s.flag R.QUE_JNL.REBUILD 0 d = true →
    ∃ t, exec (.mirrorRebuildEnd d) s = .next t ∧ t.rd R.QUE_JNL.REBUILD 0 d = 0 ∧ s.onlyRegs t [R.QUE_JNL.REBUILD.at_ 0 d])

/-- EFFECT_LOG_WRITE of a running item adds an effect at the end of its log; the 4,097th, and an
atomic of a borrow context, fail the item instead, and a full log makes it wait. EFFECT_EMIT sends the oldest effect in doubt (R333), or else the first effect not yet
sent, of a committed item, with its identity: a message under the queue's map generation, an atomic inside an import window toward its node, a frame to the egress port its descriptor names, or counted in TX_DROP where that is no flow. Nothing
is sent past a message its destination has not taken. MESSAGE_RECEIVE and MESSAGE_REOFFER: the destination begins a record for a message of its sender that no hold
stops, and acknowledges without a second record one at or below what it took from that queue under the same generation. EFFECT_ACK moves the
emitted position past the effect. -/
def Obligations.OnceOnlyEffects : Prop :=
  (∀ (q n : Nat) (k : Fin 1024) (e : Effect) (s : State) (v : QueueSt) (r : AccRec) (c : Ctx), s.queue q = some v → v.items.find n = some r →
    s.ctx (v.owner, k.val) = some c → v.lost = false → r.released = true → r.finish = none → s.runs (v.owner, k) = true →
    let ok := e.isAtomic = false ∨ (c.kind ≠ .borrow ∧ s.isGlade v.owner = false)
    (ok → r.effects.length < 4096 → s.effectsFull v.home (q % 2) = false → ∃ t, exec (.effectLogWrite q n k e) s = .next t ∧ t = { s with que := t.que } ∧
      t.queue q = some { v with items := v.items.put n { r with effects := r.effects ++ [e] } }) ∧
    (ok → r.effects.length < 4096 → s.effectsFull v.home (q % 2) = true → exec (.effectLogWrite q n k e) s = .next s) ∧
    (((e.isAtomic = true ∧ c.kind = .borrow) ∨ (ok ∧ 4096 ≤ r.effects.length)) → ∃ t, exec (.effectLogWrite q n k e) s = .next t ∧ t.que = s.que ∧ (t.failed.find ⟨q, n⟩).isSome)) ∧
  (∀ (q : Fin 1048576) (s : State) (v : QueueSt) (r : AccRec) (e : Effect), s.queue q.val = some v → v.lost = false →
    let w := v.skip (v.committed + 1 - v.nextItem)
    let p := w.again.headD (w.nextItem, w.nextIndex)
    let n := p.1
    let i := p.2
    let sent : QueueSt := if w.again = [] then { w with nextIndex := i + 1, sent := w.sent ++ [p] }
      else { w with again := w.again.drop 1, sent := w.sent ++ [p] }
    (s.messageOut q = true → exec (.effectEmit q) s = .next s) ∧ (v.committed < n → exec (.effectEmit q) s = .next s) ∧
    (s.messageOut q = false → n ≤ v.committed → w.items.find n = some r → r.effects[i]? = some e →
      (∀ dst arg, e = .message dst arg → (∀ m ∈ s.que.msgs, ¬ (m.src = q.val ∧ m.item = n ∧ m.index = i)) →
        ∃ t, exec (.effectEmit q) s = .next t ∧ t.queue q = some sent ∧
          t.que.msgs = s.que.msgs ++ [⟨q, n, i, s.que.mapGen.findD q 0, v.owner, dst, arg, .sent⟩] ∧ t.wor = s.wor) ∧
      (∀ dst addr op size8 a b ret, e = .atomic dst addr op size8 a b ret → w.atomicsOut < 32 →
        (s.wor.imports.any fun x => x.1.1 = v.owner && x.2.atomic &&
          x.2.covers (dst % 4096 * 2 ^ 44 + addr % 2 ^ 44) (if size8 then 8 else 4)) = true →
        ∃ t p, exec (.effectEmit q) s = .next t ∧ t.queue q = some sent ∧ t.wor = (s.askFabric p (.effect ⟨q, n, i⟩)).wor ∧
          p.typ = .atomic ∧ p.dst = dst % 4096 ∧ p.op = op ∧ p.atoms.map (fun x => (x.identity, x.operand, x.operand2)) = [(effectId q n i, a, b)]) ∧
      (∀ words, e = .frame words →
        let d := TxDesc.ofWords words
        (∀ t, (s.setQueue q sent).emitFrame v.owner q n i words = some t → exec (.effectEmit q) s = .next t) ∧
        ((s.setQueue q sent).emitFrame v.owner q n i words = none → exec (.effectEmit q) s = .next s) ∧
        (s.rad.flows.find (d.quad, true, d.flow) = none → ∃ t, exec (.effectEmit q) s = .next t ∧ t.rad.ports = s.rad.ports ∧
          t.rd R.RAD_Q_DROP_C.TX_DROP d.quad = min (s.rd R.RAD_Q_DROP_C.TX_DROP d.quad + 1) (2 ^ R.RAD_Q_DROP_C.TX_DROP.w - 1))))) ∧
  (∀ (src : Fin 1048576) (s : State) (m : Msg) (ph : MsgPhase) (v : QueueSt),
    (s.que.msgs.find? fun x => x.src = src.val && x.phase = ph) = some m → s.queue m.dst = some v → v.leaving = false →
    s.tenState v.owner ≠ 3 →
    ∀ x ∈ [(Instr.messageReceive src, MsgPhase.sent), (.messageReoffer src, .waiting)], x.2 = ph →
    let dup := (s.que.dedup.find (v.journal, m.src)).any (dupMessage m.gen m.item m.index)
    (dup = true → ∃ t, exec x.1 s = .next t ∧ t.queue m.dst = s.queue m.dst ∧
      ∃ m' ∈ t.que.msgs, m' = { m with phase := .acked }) ∧
    (dup = false → v.msgFed = true → v.msgFrom = m.owner → s.hold m.dst v = 0 → ∃ t r, exec x.1 s = .next t ∧
      t.queue m.dst = some { v with writing := v.writing ++ [(r, .message m.src m.item m.index)] } ∧
      r.words = (v.accepted + v.writing.length + 1) :: m.arg ∧ ∃ m' ∈ t.que.msgs, m' = { m with phase := .writing }) ∧
    (dup = false → v.msgFed = true → v.msgFrom = m.owner → s.hold m.dst v ≠ 0 → ∃ t, exec x.1 s = .next t ∧ t.queue m.dst = s.queue m.dst ∧
      ∃ m' ∈ t.que.msgs, m' = { m with phase := .waiting }) ∧
    (dup = false → (v.msgFed = false ∨ v.msgFrom ≠ m.owner) → ∃ t, exec x.1 s = .next t ∧ t.queue m.dst = s.queue m.dst ∧
      ∃ m' ∈ t.que.msgs, m' = { m with phase := .acked })) ∧
  (∀ (src : Fin 1048576) (s : State) (m : Msg) (v : QueueSt), (s.que.msgs.find? fun x => x.src = src.val && x.phase = .acked) = some m →
    s.queue src.val = some v → v.leaving = false →
    ∃ t, exec (.effectAck src) s = .next t ∧ (∀ m' ∈ t.que.msgs, ¬ (m'.src = m.src ∧ m'.item = m.item ∧ m'.index = m.index)) ∧
      (t.queue src.val).map (fun x => (x.sent, x.committed, x.accepted)) =
        some (v.sent.filter (fun p => p ≠ (m.item, m.index)), v.committed, v.accepted))

/-- SCHEDULER_DECISION in a cluster that owes one starts the restore of a ready home context whose cores are whole, that nothing occupies and that no other
context of the cluster shares; the decision is then no longer owed. QUANTUM_EXPIRY charges the context's owner for its core time and ends the quantum.
CONTEXT_BLOCKED marks
a resident context whose engines and movers have all stalled for BLOCK_US, CONTEXT_URGENT one that has waited URGENT_MS, and both make a decision due. SCH_CTRL_WRITE sets the three thresholds within their bounds, and
every cluster with contexts owes a decision. No store changes. -/
def Obligations.SchedulerDecides : Prop :=
  let still (s t : State) := t.coreStore = s.coreStore ∧ t.clusterStore = s.clusterStore ∧ t.que = s.que
  (∀ (c : Cluster) (s : State), c.val ∉ s.sched.due → exec (.schedulerDecision c) s = .next s) ∧
  (∀ (c : Cluster) (s : State), c.val ∈ s.sched.due → ∃ t, exec (.schedulerDecision c) s = .next t ∧ still s t ∧ t.mem.hbm = s.mem.hbm ∧
    t.ten = s.ten ∧ t.sched.ctxs.map Prod.fst = s.sched.ctxs.map Prod.fst) ∧
  (∀ (c : Cluster) (s : State) (k : Nat × Nat) (y : Ctx), c.val ∈ s.sched.due → s.ctx k = some y → y.cluster = c.val →
    (∀ e ∈ s.ctxsOf c, e.2.quantumEnd.all (fun q => s.elapsed < q) = true) →
    y.kind = .home → y.res = .saved → y.ready = true → y.standby = false → y.moving = false → (s.ctxSites y).length = y.size →
    (∀ e ∈ s.ctxsOf c, e.1 ≠ k → e.2.overlaps y = false) →
    ∃ t, exec (.schedulerDecision c) s = .next t ∧ (t.ctx k).map (fun d => d.res) = some .restoring ∧ c.val ∉ t.sched.due ∧ still s t) ∧
  (∀ (o : Fin 2048) (n : Fin 1024) (s : State) (y : Ctx), s.ctx (o.val, n.val) = some y →
    let k := (o.val, n.val)
    (∀ q, y.res = .resident → y.quantumEnd = some q → q ≤ s.elapsed → ∃ t d, exec (.quantumExpiry o n) s = .next t ∧ t.ctx k = some d ∧
      d.quantumEnd = none ∧ d.urgent = none ∧ d.res = .resident ∧ y.cluster ∈ t.sched.due ∧ still s t ∧
      t.rd R.SCH_TEN_ENGINE.CORE_NS 0 o = (s.rd R.SCH_TEN_ENGINE.CORE_NS 0 o + y.size * 2 * ((s.elapsed - y.since) / 10)) %
        2 ^ R.SCH_TEN_ENGINE.CORE_NS.w) ∧
    (∀ q, y.quantumEnd = some q → s.elapsed < q → exec (.quantumExpiry o n) s = .next s) ∧
    ((s.ctxSites y).all s.siteStalled = false → exec (.contextBlocked o n) s = .next s) ∧
    ((∀ t0, y.stall = some t0 → s.elapsed < t0 + micros (s.rd R.SCH_CTRL.BLOCK_US)) → exec (.contextBlocked o n) s = .next s) ∧
    (∀ t0, y.res = .resident → y.kind ≠ .glade → y.blocked = none → (s.ctxSites y).all s.siteStalled = true → y.stall = some t0 →
      t0 + micros (s.rd R.SCH_CTRL.BLOCK_US) ≤ s.elapsed → ∃ t d, exec (.contextBlocked o n) s = .next t ∧ t.ctx k = some d ∧
      d.blocked = some s.elapsed ∧ d.res = .resident ∧ y.cluster ∈ t.sched.due ∧ still s t ∧ t.mem = s.mem) ∧
    (y.kind = .home → y.rests = true → y.ready = true → y.urgent = none → y.readySince + millis (s.rd R.SCH_CTRL.URGENT_MS) ≤ s.elapsed →
      s.sched.urgentAt.find (o.val, y.cluster) = none → ∃ t d, exec (.contextUrgent o n) s = .next t ∧ t.ctx k = some d ∧
      d.urgent = some s.elapsed ∧ y.cluster ∈ t.sched.due ∧ t.rd R.SCH_URGENT.COUNT = min (s.rd R.SCH_URGENT.COUNT + 1) (2 ^ R.SCH_URGENT.COUNT.w - 1) ∧
      still s t ∧ t.mem = s.mem)) ∧
  (∀ (v : Word) (s : State), s.managed = true → ∃ t, exec (.schCtrlWrite v) s = .next t ∧
    t.rd R.SCH_CTRL.QUANTUM_US = max 100 (min 100000 (v.toNat % 2 ^ 20)) ∧ t.rd R.SCH_CTRL.BLOCK_US = max 1 (v.toNat / 2 ^ 20 % 2 ^ 8) ∧
    t.rd R.SCH_CTRL.URGENT_MS = max 1 (min 1000 (v.toNat / 2 ^ 32 % 2 ^ 10)) ∧ (∀ e ∈ s.sched.ctxs, e.2.cluster ∈ t.sched.due) ∧
    s.regsBut t [R.SCH_CTRL.QUANTUM_US.at_, R.SCH_CTRL.BLOCK_US.at_, R.SCH_CTRL.URGENT_MS.at_] ∧ still s t)

/-- SAVE_DONE of a stopped context puts the claimed core store of each of its cores into its save place as it stood, and leaves its sites without owner and
their core stores all 0. RESTORE_DONE brings each saved core store back onto the core's present site, which has the context's owner, and the
context is resident; one that is to move, or whose lent shape is being returned, is at once stopped again. PENDING_ENTRY_END ends the pending entry with its answer, wherever the context's mover then is. -/
def Obligations.SavesAndRestores : Prop :=
  (∀ (o : Fin 2048) (n : Fin 1024) (s : State) (c : Ctx), s.ctx (o.val, n.val) = some c → c.res = .saving →
    (s.sched.ctxs.map Prod.fst).Nodup →
    let k := (o.val, n.val)
    (s.stopEnded k c = false → exec (.saveDone o n) s = .next s) ∧
    (s.stopEnded k c = true → c.host ≠ some k → ∃ t d, exec (.saveDone o n) s = .next t ∧ t.ctx k = some d ∧
      d.res = (if c.kind = .borrow then .parked else .saved) ∧ c.cluster ∈ t.sched.due ∧
      (∀ site ∈ s.ctxSites c, t.rd R.STR_SITE.OWNER site = 0x7FF ∧ ∀ off, off < coreStoreSize → t.coreStore.read (coreAddr site off) = 0) ∧
      (∀ (i : Nat) (site : Nat), (s.ctxSites c)[i]? = some site → ∃ v : SavedCore, d.saved[i]? = some v ∧
        ∀ off, off < s.claimOf k i → v.store.read off = s.coreStore.read (coreAddr site off)) ∧
      (∀ a, (∀ site ∈ s.ctxSites c, a < coreAddr site 0 ∨ coreAddr site coreStoreSize ≤ a) → t.coreStore.read a = s.coreStore.read a))) ∧
  (∀ (o : Fin 2048) (n : Fin 1024) (s : State) (c : Ctx), s.ctx (o.val, n.val) = some c → c.res = .restoring → c.kind ≠ .glade →
    let k := (o.val, n.val)
    let sites := s.ctxSites c
    s.occupants k c = [] → sites.Nodup → sites.length = c.size → c.host = none → c.moving = false → c.saved.length = c.size → Mem.wf s.coreStore = true →
    (∀ v ∈ c.saved, Mem.wf v.store = true ∧ ∀ x ∈ v.store, x.1 < coreStoreSize) →
    (∀ v ∈ c.saved, ∀ e ∈ v.regs, e.1.reg ∈ ctxRegs ++ ctxSigRegs) → (s.sched.ctxs.map Prod.fst).Nodup →
    ∃ t d, exec (.restoreDone o n) s = .next t ∧ t.ctx k = some d ∧ d.res = .resident ∧ c.cluster ∈ t.sched.due ∧
      (c.quantumEnd = none → d.quantumEnd = some (s.elapsed + micros (s.rd R.SCH_CTRL.QUANTUM_US))) ∧
      ∀ (i : Nat) (site : Nat) (v : SavedCore), sites[i]? = some site → c.saved[i]? = some v → t.rd R.STR_SITE.OWNER site = o.val ∧
        ∀ off, off < coreStoreSize → t.coreStore.read (coreAddr site off) = v.store.read off) ∧
  (∀ (o : Fin 2048) (n : Fin 1024) (s : State) (c : Ctx),
    let k := (o.val, n.val)
    s.ctx k = some c → c.res = .restoring → c.kind ≠ .glade → s.occupants k c = [] → (s.ctxSites c).length = c.size →
    let back : Prop := c.moving = true ∨ ∃ h l, c.host = some h ∧ s.sched.lent.find h = some l ∧ l.phase = .returning
    ∃ t, exec (.restoreDone o n) s = .next t ∧ c.cluster ∈ t.sched.due ∧ (¬ back → (t.ctx k).map (fun d => d.res) = some .resident) ∧
      (back → (t.ctx k).map (fun d => d.res) = some .saving)) ∧
  (∀ (o : Fin 2048) (n : Fin 1024) (j id : Nat) (data : List Byte) (failed : Bool) (s : State) (c : Ctx) (m : Mover) (r : MovReq),
    s.ctx (o.val, n.val) = some c → s.ctxMover c j = some m → (m.late.find? fun x => x.id = id) = some r →
    ∃ t, exec (.pendingEntryEnd o n j id data failed) s = .next t ∧ t.coreStore = s.coreStore ∧ t.mem.hbm = s.mem.hbm ∧
      (c.rests = true → (((t.ctx (o.val, n.val)).bind fun d => d.saved[j]?).bind fun v => v.mover.map fun m => m.late) =
        some (m.late.filter fun x => x.id ≠ r.id)) ∧
      (∀ rc site, c.rests = false → c.res = .resident → c.cores[j]? = some rc → s.coreSite c rc = some site →
        (t.mover site).late = m.late.filter fun x => x.id ≠ r.id))

/-- LEND_START of an idle glade shape outside its use intervals, at least 10 µs before the next, saves the glade's state and begins the restore of the best
borrow context. RECALL 6 µs before the next use marks the return and stops a running borrower. RETURN_DONE ends the lend with the glade resident
again, or, where its clearing is in the drain of a reset, stopped (R298), keeps the longest return, and sets OVER where it took more than 6 µs. SCH_LEND_CTRL_WRITE with LEND_EN 0 recalls every lent shape. -/
def Obligations.GladeShapesAreLent : Prop :=
  (∀ (o : Fin 2048) (n : Fin 1024) (s : State) (g : Ctx) (d : LendDecl) (mu : Nat) (k : Nat × Nat) (y : Ctx) (rest : List ((Nat × Nat) × Ctx)),
    let h := (o.val, n.val)
    let next := s.nextUse mu d.uses s.tai
    s.ctx h = some g → s.lendDecl h = some (d, mu) → s.borrowers h = (k, y) :: rest → k ≠ h → g.kind = .glade → g.res = .resident →
    g.held = false → s.flag R.SCH_LEND_CTRL.LEND_EN = true → s.inUse mu d.uses s.tai = false →
    (∀ u, next = some u → (s.tai : Int) + 10000 ≤ u) → (s.ctxSites g).all s.siteIdle = true →
    ∃ t, exec (.lendStart o n) s = .next t ∧ t.sched.lent.find h = some { borrower := k, phase := .starting, use := next } ∧
      (t.ctx h).map (fun c => c.res) = some .saved ∧ (t.ctx k).map (fun c => c.res) = some .restoring ∧
      t.rd R.SCH_LENDS.COUNT = min (s.rd R.SCH_LENDS.COUNT + 1) (2 ^ R.SCH_LENDS.COUNT.w - 1) ∧ g.cluster ∈ t.sched.due ∧
      ∀ site ∈ s.ctxSites g, ∀ off, off < coreStoreSize → t.coreStore.read (coreAddr site off) = 0) ∧
  (∀ (o : Fin 2048) (n : Fin 1024) (s : State) (l : LendSt),
    let h := (o.val, n.val)
    s.sched.lent.find h = some l → l.phase ≠ .returning → l.borrower ≠ h →
    (∀ u, l.use = some u → (s.tai : Int) + 6000 < u → exec (.recall o n) s = .next s) ∧
    (∀ u, l.use = some u → u ≤ (s.tai : Int) + 6000 → ∃ t, exec (.recall o n) s = .next t ∧
      t.sched.lent.find h = some { l with phase := .returning, recallAt := s.elapsed } ∧
      ((s.ctx l.borrower).map (fun c => c.res) = some .resident → (t.ctx l.borrower).map (fun c => c.res) = some .saving))) ∧
  (∀ (o : Fin 2048) (n : Fin 1024) (s : State) (l : LendSt) (g : Ctx),
    let h := (o.val, n.val)
    s.sched.lent.find h = some l → s.ctx h = some g → l.phase = .returning → g.res = .restoring → g.moving = false → g.kind = .glade →
    (∀ v ∈ g.saved, ∀ e ∈ v.regs, e.1.reg ∈ ctxRegs ++ ctxSigRegs) →
    let stops := ∃ r, s.ten.resets.find o.val = some r ∧ r.step = .drain
    ∃ t, exec (.returnDone o n) s = .next t ∧ t.sched.lent.find h = none ∧
      (¬ stops → (t.ctx h).map (fun c => c.res) = some .resident) ∧ (stops → (t.ctx h).map (fun c => c.res) = some .saved) ∧
      g.cluster ∈ t.sched.due ∧ t.rd R.SCH_RETURN_MAX.LONGEST_NS =
        (if s.rd R.SCH_RETURN_MAX.LONGEST_NS < (s.elapsed - l.recallAt) / 5 then min ((s.elapsed - l.recallAt) / 5) 0xFFFFFFFF
         else s.rd R.SCH_RETURN_MAX.LONGEST_NS) ∧
      (micros 6 < s.elapsed - l.recallAt → t.flag R.SCH_RETURN_MAX.OVER = true)) ∧
  (∀ (v : Word) (s : State), s.managed = true → ∃ t, exec (.schLendCtrlWrite v) s = .next t ∧ t.rd R.SCH_LEND_CTRL.LEND_EN = v.toNat % 2 ∧
    (v.toNat % 2 = 0 → ∀ h l, t.sched.lent.find h = some l → l.phase = .returning) ∧
    (v.toNat % 2 = 1 → t.sched.lent = s.sched.lent ∧ t.sched.ctxs = s.sched.ctxs ∧ s.regsBut t [R.SCH_LEND_CTRL.LEND_EN.at_]) ∧
    t.coreStore = s.coreStore)

/-- FRAME_RECEIVE on an Ethernet quad whose link is up decides by the first check of Table 12.5 that fails, and a dropped frame moves its counter, and DROPPED
of the flow it matched, and nothing else but the fill of the flow's bucket. Its arrival is the port's receive timestamp. A U-plane frame that passes all checks of an uplink flow takes its length plus
20 bytes from the bucket, by the port's receive timestamp, counts as accepted, and makes its cell heard and present. A delay measurement request is answered on class 7. RAD_Q_MODE_WRITE of
a quad that no flow and no Woruri port uses sets its mode, and the link of an Ethernet or Woruri mode trains; with a flow on the quad it changes nothing. -/
def Obligations.FrameReceiveChecks : Prop :=
  (∀ (q : Quad) (x : RxFrame) (s : State), s.ethernet q = true → s.quadUp q = true →
    let counted (f : Fld) := ∃ t, exec (.frameReceive q x) s = .next t ∧ t.rd f q = min (s.rd f q + 1) (2 ^ f.w - 1) ∧ s.onlyRegs t [f.at_ q]
    (x.fcsOk = false ∨ x.length < 64 ∨ 9216 < x.length → counted R.RAD_Q_DROP_A.MALFORMED) ∧
    (x.fcsOk = true → 64 ≤ x.length → x.length ≤ 9216 → x.etherType = 0x8808 → exec (.frameReceive q x) s = .next s) ∧
    (x.fcsOk = true → 64 ≤ x.length → x.length ≤ 9216 → x.etherType ≠ 0x8808 →
      x.oneTag = false ∨ (x.etherType ≠ 0x88F7 ∧ x.etherType ≠ 0xAEFE) → counted R.RAD_Q_DROP_A.MALFORMED) ∧
    (x.fcsOk = true → 64 ≤ x.length → x.length ≤ 9216 → x.oneTag = true → x.etherType = 0xAEFE → x.revision = 1 → x.concat = false →
      (x.length = 26 + x.payload ∨ (x.length = 64 ∧ 26 + x.payload ≤ 64)) → x.msgType = 0 →
      let here (r : (Nat × Bool × Nat) × FlowEnt) : Bool := r.1.1 = q.val && !r.1.2.1 &&
        (r.2.flow.mac = x.src && r.2.flow.vlan = x.vlan && (x.msgType = 5 || r.2.flow.eaxc = x.pcId))
      (s.rad.flows.find? here = none → counted R.RAD_Q_DROP_A.SPOOFED) ∧
      (∀ key e, s.rad.flows.find? here = some (key, e) → s.rad.flows.find key = some e →
        (x.dst ≠ s.rd R.RAD_Q_MAC.MAC q → counted R.RAD_Q_DROP_A.SPOOFED) ∧
        (x.dst = s.rd R.RAD_Q_MAC.MAC q → s.rad.cells.find e.flow.cell = none → ∃ t, exec (.frameReceive q x) s = .next t ∧
          t.rd R.RAD_Q_DROP_A.MALFORMED q = min (s.rd R.RAD_Q_DROP_A.MALFORMED q + 1) (2 ^ R.RAD_Q_DROP_A.MALFORMED.w - 1)) ∧
        (∀ c m,
          let at_ : Int := s.stampWith (s.rd R.TIM_Q_LAT.RX_LAT 0 q)
          let mu := s.muOf e.owner
          x.dst = s.rd R.RAD_Q_MAC.MAC q → s.rad.cells.find e.flow.cell = some c → s.frameSlot mu x (Int.fdiv at_ nsUnit) = some m →
          let f := s.flowOf (c.serves m) e
          let past := at_ - s.beatTime mu m * nsUnit
          let air := past * 14 - x.symbol * slotNs mu * nsUnit
          let cut := ((s.cellCfg (c.serves m) f.cell).map fun v => v.ulCutoff).getD 0
          let cost := (x.length + 20) * 8 * 5000
          let held := min (e.flow.burstKB * 1024 * 8 * 5000) (e.tokens + e.flow.rate * (s.elapsed - e.filled))
          let dropped (g : Fld) := ∃ t, exec (.frameReceive q x) s = .next t ∧ t.rd g q = min (s.rd g q + 1) (2 ^ g.w - 1) ∧
            s.regsBut t [g.at_ q] ∧ (t.rad.flows.find key).map (fun d => (d.dropped, d.accepted)) = some (e.dropped + 1, e.accepted) ∧
            t = { s with regs := t.regs, rad := { s.rad with flows := t.rad.flows } }
          let good : Prop := x.uplink = true ∧ x.version = 1 ∧ x.sectionsGood f = true ∧ x.symbol < 14
          (¬ good → dropped R.RAD_Q_DROP_A.MALFORMED) ∧
          (good → air < f.winStart * 14 * nsUnit → dropped R.RAD_Q_DROP_B.EARLY) ∧
          (good → f.winStart * 14 * nsUnit ≤ air → f.winEnd * 14 * nsUnit < air ∨ cut * nsUnit ≤ past → dropped R.RAD_Q_DROP_C.LATE) ∧
          (good → f.winStart * 14 * nsUnit ≤ air → air ≤ f.winEnd * 14 * nsUnit → past < cut * nsUnit → held < cost → dropped R.RAD_Q_DROP_B.POLICED) ∧
          (good → f.winStart * 14 * nsUnit ≤ air → air ≤ f.winEnd * 14 * nsUnit → past < cut * nsUnit → cost ≤ held →
            ∃ t d, exec (.frameReceive q x) s = .next t ∧ t.rad.flows.find key = some d ∧ d.accepted = e.accepted + 1 ∧ d.dropped = e.dropped ∧
              d.tokens = held - cost ∧ (∀ k, k ≠ key → t.rad.flows.find k = s.rad.flows.find k) ∧
              (∀ y, s.rad.cells.find f.cell = some y →
                (t.rad.cells.find f.cell).map (fun d => (d.heard, d.quiet, d.absent)) = some (true, 0, false)) ∧
              (∀ k, k ≠ f.cell → t.rad.cells.find k = s.rad.cells.find k) ∧ t.que = s.que)))) ∧
    (x.fcsOk = true → 64 ≤ x.length → x.length ≤ 9216 → x.oneTag = true → x.etherType = 0xAEFE → x.revision = 1 → x.concat = false →
      (x.length = 26 + x.payload ∨ (x.length = 64 ∧ 26 + x.payload ≤ 64)) → x.msgType = 5 → x.dst = s.rd R.RAD_Q_MAC.MAC q →
      ∀ key e, s.rad.flows.find? (fun r => r.1.1 = q.val && !r.1.2.1 && (r.2.flow.mac = x.src && r.2.flow.vlan = x.vlan)) = some (key, e) →
      ∃ t y, exec (.frameReceive q x) s = .next t ∧ (t.txPort q).queues.findD 7 [] = (s.txPort q).queues.findD 7 [] ++ [y] ∧
        y.queued = s.elapsed ∧ y.launch = none ∧ t.regs = s.regs ∧ t.rad.flows = s.rad.flows)) ∧
  (∀ (q : Quad) (v : Word) (s : State), s.managed = true →
    ((s.rad.flows.any fun e => e.1.1 = q.val) = true → exec (.radQModeWrite q v) s = .next s) ∧
    ((s.rad.flows.any fun e => e.1.1 = q.val) = false → s.rd R.WOR_P_STATE.STATE q = 0 ∨ s.rd R.WOR_P_STATE.STATE q = 5 → s.isOut (.quad q) = false →
      ∃ t, exec (.radQModeWrite q v) s = .next t ∧ t.rd R.RAD_Q_MODE.MODE q = v.toNat % 4 ∧ t.rd R.RAD_Q_LINK.LANES q = 0 ∧
        t.rd R.RAD_Q_LINK.STATE q = (if v.toNat % 4 = 1 ∨ v.toNat % 4 = 2 then 3 else 0) ∧
        s.onlyRegs t [R.RAD_Q_MODE.MODE.at_ q, R.RAD_Q_LINK.LANES.at_ q, R.RAD_Q_LINK.STATE.at_ q, R.WOR_P_STATE.STATE.at_ q]))

/-- DRUMBEAT of a released glade delivers the latest slot reached: LAST_M holds it, the slots passed over count in SKIPPED, an engine that waits at
WAITBEAT receives its number in G14 and G15, and a downlink slot creates its item with its argument words and deadline. UPLINK_CUTOFF takes the cut-off, keeps the RU
state by R389 and creates the uplink item. RADIO_ITEM_OFFER gives an item to a queue that nothing holds; RADIO_ITEM_DISCARD drops one whose
deadline has passed and counts it. CELL_MOVE sets the pending move and MOVE_CANCEL withdraws it, each with its status; a refused one changes no cell.
FEC_USE_WINDOW counts an excess and begins the next window. -/
def Obligations.RadioSlotsAndMoves : Prop :=
  (∀ (o : Fin 1024) (s : State) (g : GladeSt) (l : Int), s.rad.glades.find o.val = some g → g.lastM = some l →
    let m := s.slotAt g.radio.mu s.tai
    (m ≤ l → exec (.drumbeat o) s = .next s) ∧
    (l < m → ∃ t, exec (.drumbeat o) s = .next t ∧ (t.rad.glades.find o.val).bind (fun g => g.lastM) = some m ∧
      t.rd R.RAD_GLADE_DRUM.LAST_M 0 o = slotLow m ∧
      t.rd R.RAD_GLADE_DRUM.SKIPPED 0 o = min (s.rd R.RAD_GLADE_DRUM.SKIPPED 0 o + (m - l - 1).toNat) (2 ^ 32 - 1) ∧
      (∀ k y a, s.ctx k = some y → k.1 = o.val → y.onCores = true → y.res = .resident → a ∈ s.ctxSites y → ∀ e, e = 2 * a ∨ e = 2 * a + 1 →
        s.flag R.SIG_STATE.RUNNING e = true → s.rd R.SIG_STATE.WAIT e = 3 →
        t.greg e 14 = slotLow m % 65536 ∧ t.greg e 15 = slotLow m / 65536 ∧ t.rd R.SIG_STATE.WAIT e = 0) ∧
      (∀ cfg c, g.radio.cells = [cfg] → s.rad.cells.find cfg.cell = some c → (∀ e ∈ s.rad.cells, e.2.next = none) →
        (cfg.slotOf (m + cfg.dlLead)).1 = true → c.serves (m + cfg.dlLead) = o.val →
        (s.rad.waiting.any fun y => y.owner = o.val && y.loc = cfg.dlLoc) = true →
        ∃ x, t.rad.waiting = s.rad.waiting ++ [x] ∧ x.owner = o.val ∧ x.cell = cfg.cell ∧ x.loc = cfg.dlLoc ∧ x.ruAbsent = false ∧
          x.deadline = (s.beatTime g.radio.mu (m + cfg.dlLead) + cfg.dlDeadline).toNat ∧ x.words = radioWords (m + cfg.dlLead) cfg.cell true c.absent 0
            cfg.nbuf (s.beatTime g.radio.mu (m + cfg.dlLead) + cfg.dlDeadline)))) ∧
  (∀ (cell : Fin 512) (s : State) (c : CellSt) (g : Nat) (m : Int) (rest : List (Nat × Int)) (cfg : ImgCell),
    s.rad.cells.find cell.val = some c → c.cutoffs = (g, m) :: rest → s.cellCfg g cell = some cfg →
    ((s.tai : Int) < s.beatTime (s.muOf g) m + cfg.ulCutoff → exec (.uplinkCutoff cell) s = .next s) ∧
    (s.beatTime (s.muOf g) m + cfg.ulCutoff ≤ s.tai → ∃ t d, exec (.uplinkCutoff cell) s = .next t ∧ t.rad.cells.find cell.val = some d ∧
      d.cutoffs = rest ∧ d.heard = false ∧ d.quiet = (if c.heard then 0 else c.quiet + 1) ∧
      d.absent = (c.absent || decide (s.rd R.RAD_CTRL.ABSENT_SLOTS ≤ d.quiet)) ∧
      t.rd R.RAD_CELL_CNT.ABSENCES 0 cell =
        (if d.absent && !c.absent then min (s.rd R.RAD_CELL_CNT.ABSENCES 0 cell + 1) (2 ^ 16 - 1) else s.rd R.RAD_CELL_CNT.ABSENCES 0 cell) ∧
      ((s.rad.waiting.any fun y => y.owner = g && y.loc = cfg.ulLoc) = true → ∃ x, t.rad.waiting = s.rad.waiting ++ [x] ∧ x.owner = g ∧
        x.cell = cell.val ∧ x.deadline = (s.beatTime (s.muOf g) m + cfg.ulDeadline).toNat ∧ (d.absent = true → x.ruAbsent = true)))) ∧
  (∀ (i : Nat) (s : State) (x : RadItem), s.rad.waiting[i]? = some x →
    (∀ q v, s.radioAhead i x = false → s.localQueue x.owner x.loc = some (q, v) → v.msgFed = true →
      (s.hold q v = 0 → s.passed x.deadline = false → ∃ t d r, exec (.radioItemOffer i) s = .next t ∧ t.rad.waiting = s.rad.waiting.eraseIdx i ∧ t.queue q = some d ∧
        d.writing = v.writing ++ [(r, .radio)] ∧ r.owner = x.owner ∧ r.words = (v.accepted + v.writing.length + 1) :: x.words ∧
        r.deadline = some x.deadline ∧ r.cell = some x.cell ∧ t.regs = s.regs ∧ t.rad.cells = s.rad.cells) ∧
      (s.hold q v ≠ 0 ∨ s.passed x.deadline = true → exec (.radioItemOffer i) s = .next s)) ∧
    (s.passed x.deadline = false → exec (.radioItemDiscard i) s = .next s) ∧
    (s.passed x.deadline = true → ∃ t, exec (.radioItemDiscard i) s = .next t ∧ t.rad.waiting = s.rad.waiting.eraseIdx i ∧
      t.rd R.RAD_CELL_CNT.UNSENT 0 x.cell = min (s.rd R.RAD_CELL_CNT.UNSENT 0 x.cell + 1) (2 ^ 16 - 1) ∧
      s.regsBut t [R.RAD_CELL_CNT.UNSENT.at_ 0 x.cell] ∧ t = { s with regs := t.regs, rad := { s.rad with waiting := t.rad.waiting } })) ∧
  (∀ s : State, s.managed = true →
    let k := s.rd R.RAD_MOVE_ARG.CELL
    let goesTo := s.rd R.RAD_MOVE_ARG.TO
    (∀ c, s.rad.cells.find k = some c → s.moveCause k goesTo = 0 → ∃ t, exec .cellMove s = .next t ∧
      t.rad.cells.find k = some { c with next := some (goesTo, s.switchSlot (s.muOf c.owner)) } ∧
      (∀ j, j ≠ k → t.rad.cells.find j = s.rad.cells.find j) ∧ t.rd R.RAD_MOVE_STATUS.STATUS = 0 ∧ t.rd R.RAD_MOVE_STATUS.CAUSE = 0 ∧
      t.mem = s.mem) ∧
    (s.moveCause k goesTo ≠ 0 → ∃ t, exec .cellMove s = .next t ∧ t.rad = s.rad ∧ t.rd R.RAD_MOVE_STATUS.STATUS = 5 ∧
      t.rd R.RAD_MOVE_STATUS.CAUSE = s.moveCause k goesTo) ∧
    (s.rad.cells.find k = none → s.moveCause k goesTo = 1 ∧ ∃ t, exec .moveCancel s = .next t ∧ t.rad = s.rad ∧
      t.rd R.RAD_MOVE_STATUS.STATUS = 5 ∧ t.rd R.RAD_MOVE_STATUS.CAUSE = 1) ∧
    (∀ c goesTo m, s.rad.cells.find k = some c → c.next = some (goesTo, m) → s.slotAt (s.muOf c.owner) s.tai < m → ∃ t, exec .moveCancel s = .next t ∧
      t.rad.cells.find k = some { c with next := none } ∧ (∀ j, j ≠ k → t.rad.cells.find j = s.rad.cells.find j) ∧
      t.rd R.RAD_MOVE_STATUS.STATUS = 0 ∧ t.mem = s.mem) ∧
    (∀ c, s.rad.cells.find k = some c → c.next = none → ∃ t, exec .moveCancel s = .next t ∧ t.rad = s.rad ∧
      t.rd R.RAD_MOVE_STATUS.STATUS = 5 ∧ t.rd R.RAD_MOVE_STATUS.CAUSE = 6)) ∧
  (∀ s : State,
    let w := Int.fdiv ((s.tai : Int) - gpsEpoch - s.frameOffset) 500000
    (w = s.rad.window → exec .fecUseWindow s = .next s) ∧
    (w ≠ s.rad.window → ∃ t, exec .fecUseWindow s = .next t ∧ t.rad.window = w ∧ t.rad.cells = s.rad.cells ∧ t.mem = s.mem ∧
      (∀ e ∈ t.eng.fecUse, w - 1 ≤ e.1.1) ∧
      ∀ v o c enc use counted, s.eng.fecUse = [((v, o, c, enc), (use, counted))] →
        let f := if enc then R.RAD_GLADE_FEC.OVER_ENC else R.RAD_GLADE_FEC.OVER_DEC
        let unit := if enc then (s.declared o c).2 else (s.declared o c).1
        (v < w → counted = false → s.holdsImage o = true → unit * 900 < use →
          t.rd f 0 o = min (s.rd f 0 o + 1) (2 ^ 32 - 1) ∧ s.regsBut t [f.at_ 0 o] ∧ (v = w - 1 → t.eng.fecUse = [((v, o, c, enc), (use, true))])) ∧
        (w ≤ v ∨ counted = true ∨ use ≤ unit * 900 → t.regs = s.regs ∧ (w - 1 ≤ v → t.eng.fecUse = s.eng.fecUse))))

/-- FRAME_TRANSMIT starts the eligible head frame of the highest class, and a frame that asks for it leaves a timestamp. FRAME_SENT ends it once its bytes have
left, counts it for its flow and acknowledges its effect. TX_DROP drops a head frame that is too late, and QUAD_DOWN every frame of the port; each is counted. GATE_INTERVAL
brings the shapers' credits up to now, an idle slope for a class that waited behind an open gate, and takes the gates of now. QUEUE_SAMPLE,
once SAMPLE_NS has passed, records depth and head delay of each class and keeps the largest. -/
def Obligations.EgressOfAQuad : Prop :=
  (∀ (q : Quad) (s : State) (k : Fin 8) (f : TxFrame), (s.txPort q).sending = none → s.ethernet q = true → s.quadUp q = true →
    let left (j : Nat) : List TxFrame := if j = k.val then ((s.txPort q).queues.findD j []).drop 1 else (s.txPort q).queues.findD j []
    ((s.txPort q).queues.findD k.val []).head? = some f → (s.creditTo q).eligible q k f = true →
    (∀ (j : Fin 8) (y : TxFrame), k < j → ((s.txPort q).queues.findD j.val []).head? = some y → (s.creditTo q).eligible q j y = false) →
    ∃ t, exec (.frameTransmit q) s = .next t ∧ (t.txPort q).sending = some (k.val, f, s.elapsed) ∧
      (∀ j, j ≠ 7 → (t.txPort q).queues.findD j [] = left j) ∧ (∃ more, (t.txPort q).queues.findD 7 [] = left 7 ++ more) ∧
      (s.tim.ring.find q.val = none → (t.txPort q).queues.findD 7 [] = left 7 ∧ (f.stamp = none → t.tim = s.tim ∧ t.regs = s.regs)) ∧
      (∀ id, f.stamp = some id → (s.tim.stamps.findD q.val []).length < 64 → ∃ e, t.tim.stamps.findD q.val [] = s.tim.stamps.findD q.val [] ++ [e] ∧
        e.id = id ∧ (e.timing = true ↔ k.val = 7))) ∧
  (∀ (q : Quad) (s : State) (k : Nat) (f : TxFrame) (start : Nat), (s.txPort q).sending = some (k, f, start) →
    (10 * (s.elapsed - start) < f.bytes.length + 24 → exec (.frameSent q) s = .next s) ∧
    (f.bytes.length + 24 ≤ 10 * (s.elapsed - start) → ∃ t, exec (.frameSent q) s = .next t ∧ (t.txPort q).sending = none ∧
      (t.txPort q).queues = (s.txPort q).queues ∧
      (∀ i e, f.flow = some i → s.rad.flows.find (q.val, true, i) = some e →
        t.rad.flows.find (q.val, true, i) = some { e with accepted := e.accepted + 1 }) ∧
      (∀ a b c v, f.effect = some (a, b, c) → s.queue a = some v → v.leaving = false →
        (t.queue a).map (fun d => d.sent) = some (v.sent.filter fun p => p ≠ (b, c))) ∧
      (f.effect = none → t.que = s.que))) ∧
  (∀ (q : Quad) (k : Fin 8) (s : State) (f : TxFrame) (r : List TxFrame), (s.txPort q).queues.findD k.val [] = f :: r →
    let late := (f.launch.any fun t => s.passed (t + s.rd R.RAD_Q_TXCFG.TX_LATE_NS q)) || !s.quadUp q
    (late = false → exec (.txDrop q k) s = .next s) ∧
    let left (j : Nat) : List TxFrame := if j = k.val then r else (s.txPort q).queues.findD j []
    (late = true → ∃ t, exec (.txDrop q k) s = .next t ∧ (∀ j, j ≠ 7 → (t.txPort q).queues.findD j [] = left j) ∧
      (∃ more, (t.txPort q).queues.findD 7 [] = left 7 ++ more) ∧ (t.txPort q).sending = (s.txPort q).sending ∧
      (∀ i e, f.flow = some i → s.rad.flows.find (q.val, true, i) = some e →
        t.rad.flows.find (q.val, true, i) = some { e with dropped := e.dropped + 1 }) ∧
      (f.effect = none → t.que = s.que) ∧
      (s.tim.ring.find q.val = none → (t.txPort q).queues.findD 7 [] = left 7 ∧
        t.rd R.RAD_Q_DROP_C.TX_DROP q = min (s.rd R.RAD_Q_DROP_C.TX_DROP q + 1) (2 ^ R.RAD_Q_DROP_C.TX_DROP.w - 1) ∧
        (f.effect = none → s.regsBut t [R.RAD_Q_DROP_C.TX_DROP.at_ q])))) ∧
  (∀ (q : Quad) (s : State),
    let frames := ((s.txPort q).sending.map fun x => x.2.1).toList ++ (s.txPort q).queues.flatMap fun e => e.2
    (s.quadUp q = false → exec (.quadDown q) s = .next s) ∧
    (s.quadUp q = true → s.rd R.RAD_Q_DROP_C.TX_DROP q < 2 ^ R.RAD_Q_DROP_C.TX_DROP.w → ∃ t, exec (.quadDown q) s = .next t ∧
      t.rd R.RAD_Q_LINK.STATE q = 2 ∧ t.rd R.RAD_Q_LINK.LANES q = 0 ∧ (t.txPort q).queues = [] ∧ (t.txPort q).sending = none ∧
      t.rd R.RAD_Q_DROP_C.TX_DROP q = min (s.rd R.RAD_Q_DROP_C.TX_DROP q + frames.length) (2 ^ R.RAD_Q_DROP_C.TX_DROP.w - 1) ∧
      t.rad.cells = s.rad.cells)) ∧
  (∀ (q : Quad) (s : State), ∃ t, exec (.gateInterval q) s = .next t ∧ (t.txPort q).creditAt = s.elapsed ∧ (t.txPort q).gates = s.gatesNow q ∧
    (t.txPort q).queues = (s.txPort q).queues ∧ (t.txPort q).sending = (s.txPort q).sending ∧
    t = { s with rad := { s.rad with ports := t.rad.ports } } ∧
    ∀ k : Fin 7, s.flag R.RAD_Q_CBS.EN q k = true → (s.txPort q).queues.findD k.val [] ≠ [] → (s.txPort q).gates.testBit k = true →
      (s.txPort q).sending = none →
      let idle : Int := s.rd R.RAD_Q_CBS.IDLE_MBPS q k
      (t.txPort q).credit.findD k.val 0 = max (-4618 * (400000 - idle))
        (min ((s.txPort q).credit.findD k.val 0 + 5 * idle * (s.elapsed - (s.txPort q).creditAt : Nat)) (s.rd R.RAD_Q_CBS.HI_BYTES q k * 200000))) ∧
  (∀ (q : Quad) (s : State), s.elapsed < (s.txPort q).sampledAt + 5 * s.rd R.RAD_Q_TXCFG.SAMPLE_NS q → exec (.queueSample q) s = .next s) ∧
  (∀ (q : Quad) (s : State), (s.txPort q).sampledAt + 5 * s.rd R.RAD_Q_TXCFG.SAMPLE_NS q ≤ s.elapsed →
    ∃ t, exec (.queueSample q) s = .next t ∧ t = { s with regs := t.regs, rad := { s.rad with ports := t.rad.ports } } ∧
    (t.txPort q).sampledAt = s.elapsed ∧ (t.txPort q).queues = (s.txPort q).queues ∧
    ∀ k : Fin 8,
      let l := (s.txPort q).queues.findD k.val []
      let depth := l.foldl (fun n f => n + f.wire) 0
      let delay := match l with | f :: _ => min ((s.elapsed - f.queued) / 5) 0xFFFFFFFF | [] => 0
      depth < 2 ^ 24 → t.rd R.RAD_Q_DEPTH.LAST_BYTES q k = depth ∧ t.rd R.RAD_Q_DELAY.LAST_NS q k = delay ∧
        t.rd R.RAD_Q_DEPTH.MAX_BYTES q k = max (s.rd R.RAD_Q_DEPTH.MAX_BYTES q k) depth ∧
        t.rd R.RAD_Q_DELAY.MAX_NS q k = max (s.rd R.RAD_Q_DELAY.MAX_NS q k) delay)

/-- SET loads seconds and nanoseconds, with no fraction, and makes VALID 1; one of more than 999,999,999 ns changes nothing. STEP adds its signed amount; the reserved
amount of -2^47 changes nothing. Each counts in STEPS, a backward one moves no toll and no barrier, and a forward one past the
time of an armed barrier reaches it. After a backward step a periodic toll's next pulse is the first after the last given that the counter has not reached. SNAP and PPS_EDGE latch the counter; the edge counts, and PPS_LOSS clears
PPS_OK after 1.1 s without one. HOLDOVER clears REF_OK and sets its flag; REF_CLK_RESTORE, 1 ms after the last gap, sets REF_OK. None of these but SET and STEP moves the counter. -/
def Obligations.CounterSetAndLatched : Prop :=
  (∀ s : State, s.managed = true →
    (999999999 < s.rd R.TIM_SET_NS.NS → exec .set s = .next s) ∧
    (s.rd R.TIM_SET_NS.NS ≤ 999999999 → ∃ t, exec .set s = .next t ∧ t.sec = s.rd R.TIM_SET_SEC.SEC % 2 ^ 64 ∧ t.ns = s.rd R.TIM_SET_NS.NS ∧ t.frac = 0 ∧
      t.rd R.TIM_STATUS.VALID = 1 ∧ t.rd R.TIM_STATUS.STEPS = (s.rd R.TIM_STATUS.STEPS + 1) % 2 ^ 32 ∧ t.elapsed = s.elapsed ∧
      ((s.det.bar = none ∧ s.sched.lent = []) ∨ t.tai ≤ s.tai → t.mem = s.mem ∧ t.sched = s.sched) ∧
      (∀ b, s.det.bar = some b → s.tai < b.t → b.t < t.tai → ∀ b', t.det.bar = some b' → b'.reached = true) ∧
      (t.tai ≤ s.tai → t.tim = { s.tim with tolls := t.tim.tolls } ∧ t.det = s.det ∧ s.regsBut t [R.TIM_STATUS.VALID.at_, R.TIM_STATUS.STEPS.at_])) ∧
    (s.rd R.TIM_STEP.STEP_NS = 2 ^ 47 → exec .step s = .next s) ∧
    (∀ d : Int, -2 ^ 47 < d → d < 2 ^ 47 → s.rd R.TIM_STEP.STEP_NS = (d % 2 ^ 48).toNat → 0 ≤ (s.count : Int) + d * nsUnit →
      (s.count : Int) + d * nsUnit < 2 ^ 64 * secUnit →
      ∃ t, exec .step s = .next t ∧ (t.count : Int) = s.count + d * nsUnit ∧ (t.tai : Int) = s.tai + d ∧ t.frac = s.frac ∧
        t.rd R.TIM_STATUS.STEPS = (s.rd R.TIM_STATUS.STEPS + 1) % 2 ^ 32 ∧ ((s.det.bar = none ∧ s.sched.lent = []) ∨ d ≤ 0 → t.mem = s.mem ∧ t.sched = s.sched) ∧
        (∀ b, s.det.bar = some b → s.tai < b.t → b.t < t.tai → ∀ b', t.det.bar = some b' → b'.reached = true) ∧
        (d ≤ 0 → t.tim = { s.tim with tolls := t.tim.tolls } ∧ t.det = s.det ∧ s.regsBut t [R.TIM_STATUS.STEPS.at_]) ∧
        (∀ (i : Fin 8) (x : TollSt), d < 0 → s.tim.tolls.find i.val = some x → x.pulseEnd = none → s.flag R.TIM_TOLL_CTRL.PERIODIC 0 i = true →
          let period := s.rd R.TIM_TOLL_PERIOD.PERIOD_NS 0 i
          let lo := x.given.elim x.first (· + 1)
          0 < period → ∃ n, t.tim.tolls.find i.val = some { x with next := n } ∧ lo ≤ n ∧ t.tai < x.start + n * period ∧
            ∀ m, lo ≤ m → m < n → x.start + m * period ≤ t.tai))) ∧
  (∀ s : State, s.managed = true → ∃ t, exec .snap s = .next t ∧ t.rd R.TIM_SNAP_SEC.SEC = s.sec ∧ t.rd R.TIM_SNAP_NS.NS = s.ns ∧
    t.rd R.TIM_SNAP_NS.FRAC = s.frac ∧ s.onlyRegs t [R.TIM_SNAP_SEC.SEC.at_, R.TIM_SNAP_NS.NS.at_, R.TIM_SNAP_NS.FRAC.at_]) ∧
  (∀ s : State,
    (∃ t, exec .ppsEdge s = .next t ∧ t.rd R.TIM_PPS_SEC.SEC = s.sec ∧ t.rd R.TIM_PPS_NS.NS = s.ns ∧ t.rd R.TIM_PPS_NS.FRAC = s.frac ∧
      t.rd R.TIM_PPS_NS.COUNT = (s.rd R.TIM_PPS_NS.COUNT + 1) % 2 ^ 16 ∧ t.rd R.TIM_STATUS.PPS_OK = 1 ∧ t.tim.ppsAt = s.elapsed ∧
      t.count = s.count ∧ s.regsBut t [R.TIM_PPS_SEC.SEC.at_, R.TIM_PPS_NS.NS.at_, R.TIM_PPS_NS.FRAC.at_, R.TIM_PPS_NS.COUNT.at_,
        R.TIM_STATUS.PPS_OK.at_]) ∧
    (s.elapsed < s.tim.ppsAt + 5 * 1100000000 → exec .ppsLoss s = .next s) ∧
    (s.tim.ppsAt + 5 * 1100000000 ≤ s.elapsed → ∃ t, exec .ppsLoss s = .next t ∧ t.rd R.TIM_STATUS.PPS_OK = 0 ∧ s.onlyRegs t [R.TIM_STATUS.PPS_OK.at_]) ∧
    (∃ t, exec .holdover s = .next t ∧ t.rd R.TIM_STATUS.REF_OK = 0 ∧ t.rd R.TIM_STATUS.HOLDOVER = 1 ∧ t.tim.lostAt.isSome = true ∧ t.tim.gapAt = s.elapsed ∧ t.count = s.count ∧
      s.regsBut t [R.TIM_STATUS.REF_OK.at_, R.TIM_STATUS.HOLDOVER.at_]) ∧
    (s.elapsed < s.tim.gapAt + 5 * 1000000 → exec .refClkRestore s = .next s) ∧
    (s.tim.gapAt + 5 * 1000000 ≤ s.elapsed → ∃ t, exec .refClkRestore s = .next t ∧ t.rd R.TIM_STATUS.REF_OK = 1 ∧ t.tim.lostAt = none ∧ t.count = s.count ∧
      s.regsBut t [R.TIM_STATUS.REF_OK.at_]))

/-- TOLL_ARM with EN 0 takes the fields and, by R423, arms the toll with its first edge at START, or at the first periodic edge at least 1 µs away, or sets BAD or LATE instead.
TOLL_EDGE of an armed toll whose edge time the counter has reached begins a pulse that ends at that time plus WIDTH_NS, or counts the edge as skipped while a pulse is
active or no die drives the pins. TOLL_PULSE_END, when that end has come, ends the pulse and disarms a once toll; TOLL_DISARM disarms. TOLL_HANDOVER gives the pins to die 7. TX_RING_PROD_WRITE sends
a good slot on class 7 or counts a bad one, and advances CONS. POP takes the oldest timestamp. SYNCE_SQUELCH holds an output low by the causes of R418. -/
def Obligations.TollsRingsAndClocks : Prop :=
  (∀ (i : Fin 8) (v : Word) (s : State), s.managed = true → v.toNat % 2 = 1 →
    let per : Prop := v.toNat / 2 % 2 = 1
    let width := v.toNat / 2 ^ 32 % 2 ^ 29
    let period := s.rd R.TIM_TOLL_PERIOD.PERIOD_NS 0 i
    let start := s.complete (s.rd R.TIM_TOLL_START.SEC_LO 0 i) (s.rd R.TIM_TOLL_START.NS 0 i)
    let soon (n : Nat) : Prop := n * nsUnit < s.count + 1000 * nsUnit
    let bad : Prop := width < 8 ∨ 500000000 < width ∨ (per ∧ (period < 100 ∨ period ≤ width))
    (s.flag R.TIM_TOLL_CTRL.EN 0 i = true → exec (.tollArm i v) s = .next s) ∧
    (s.rd R.TIM_TOLL_CTRL.EN 0 i = 0 →
      ∃ t, exec (.tollArm i v) s = .next t ∧ t.rd R.TIM_TOLL_CTRL.WIDTH_NS 0 i = width ∧ (t.rd R.TIM_TOLL_CTRL.PERIODIC 0 i = 1 ↔ per) ∧
        t.rd R.TIM_TOLL_CTRL.INVERT 0 i = v.toNat / 4 % 2 ∧ (∀ j, j ≠ i.val → t.tim.tolls.find j = s.tim.tolls.find j) ∧
        (bad → t.rd R.TIM_TOLL_STAT.BAD 0 i = 1 ∧ t.rd R.TIM_TOLL_CTRL.EN 0 i = 0 ∧ t.tim = s.tim) ∧
        (¬ bad → ¬ per → soon start → t.rd R.TIM_TOLL_STAT.LATE 0 i = 1 ∧ t.rd R.TIM_TOLL_CTRL.EN 0 i = 0 ∧ t.tim = s.tim) ∧
        (¬ bad → per ∨ ¬ soon start → t.rd R.TIM_TOLL_CTRL.EN 0 i = 1 ∧ t.rd R.TIM_TOLL_STAT.ARMED 0 i = 1 ∧
          ∃ n, t.tim.tolls.find i.val = some { start := start, next := n, first := n } ∧ ¬ soon (start + n * period) ∧
            ∀ k, k < n → soon (start + k * period)))) ∧
  (∀ (i : Fin 8) (v : Word) (s : State), s.managed = true →
    (s.flag R.TIM_TOLL_CTRL.EN 0 i = true → ∃ t, exec (.tollDisarm i v) s = .next t ∧ t.rd R.TIM_TOLL_CTRL.EN 0 i = 0 ∧
      t.rd R.TIM_TOLL_STAT.ARMED 0 i = 0 ∧ t.tim.tolls.find i.val = none ∧ t.tollActive i = false ∧
      s.regsBut t [R.TIM_TOLL_CTRL.EN.at_ 0 i, R.TIM_TOLL_STAT.ARMED.at_ 0 i]) ∧
    (s.flag R.TIM_TOLL_CTRL.EN 0 i = false → ∃ t, exec (.tollDisarm i v) s = .next t ∧ t.rd R.TIM_TOLL_CTRL.WIDTH_NS 0 i = v.toNat / 2 ^ 32 % 2 ^ 29 ∧
      t.rd R.TIM_TOLL_CTRL.EN 0 i = 0 ∧ t.tim = s.tim)) ∧
  (∀ (i : Fin 8) (s : State) (x : TollSt), s.tim.tolls.find i.val = some x →
    let at_ := x.start + x.next * s.rd R.TIM_TOLL_PERIOD.PERIOD_NS 0 i
    let live : Prop := s.flag R.TIM_TOLL_CTRL.PERIODIC 0 i = true ∨ x.next = 0
    (s.tai < at_ → exec (.tollEdge i) s = .next s) ∧
    (live → at_ ≤ s.tai → x.pulseEnd = none → s.tollDie ≠ none → ∃ t, exec (.tollEdge i) s = .next t ∧
      t.tim.tolls.find i.val = some
        { x with next := x.next + 1, given := some x.next, pulseEnd := some (.count ((at_ + s.rd R.TIM_TOLL_CTRL.WIDTH_NS 0 i) * nsUnit)) } ∧
      t.tollActive i = true ∧ t.tollLevel i = !(s.flag R.TIM_TOLL_CTRL.INVERT 0 i) ∧ t.rd R.TIM_TOLL_STAT.PULSES 0 i = (s.rd R.TIM_TOLL_STAT.PULSES 0 i + 1) % 2 ^ 32 ∧
      s.regsBut t [R.TIM_TOLL_STAT.PULSES.at_ 0 i]) ∧
    (live → at_ ≤ s.tai → x.pulseEnd ≠ none ∨ s.tollDie = none → ∃ t, exec (.tollEdge i) s = .next t ∧
      t.tim.tolls.find i.val = some { x with next := x.next + 1 } ∧
      t.rd R.TIM_TOLL_STAT.SKIPPED 0 i = min (s.rd R.TIM_TOLL_STAT.SKIPPED 0 i + 1) (2 ^ 16 - 1) ∧ s.regsBut t [R.TIM_TOLL_STAT.SKIPPED.at_ 0 i]) ∧
    let done (e : PulseEnd) : Prop := match e with
      | .count c => c ≤ s.count
      | .elapsed n => n ≤ s.elapsed
    (∀ e, x.pulseEnd = some e → ¬ done e → exec (.tollPulseEnd i) s = .next s) ∧
    (∀ e, x.pulseEnd = some e → done e → ∃ t, exec (.tollPulseEnd i) s = .next t ∧ t.tollActive i = false ∧
      (s.flag R.TIM_TOLL_CTRL.PERIODIC 0 i = true → t.tim.tolls.find i.val = some { x with pulseEnd := none } ∧ t.regs = s.regs) ∧
      (s.flag R.TIM_TOLL_CTRL.PERIODIC 0 i = false → t.tim.tolls.find i.val = none ∧ t.rd R.TIM_TOLL_CTRL.EN 0 i = 0))) ∧
  (∀ s : State,
    (s.isOut (.die 0) = true → s.isOut (.die 7) = false → ∃ t, exec .tollHandover s = .next t ∧ t.tollDie = some 7 ∧
      t = { s with tim := { s.tim with taken := true } }) ∧
    (s.isOut (.die 0) = false → exec .tollHandover s = .next s)) ∧
  (∀ (q : Quad) (prod : BitVec 16) (slot : List Byte) (s : State), s.managed = true →
    (s.ethernet q = false → exec (.txRingProdWrite q prod [slot] []) s = .next s) ∧
    (s.ethernet q = true → ∀ slots bad, ∃ t, exec (.txRingProdWrite q prod slots bad) s = .next t ∧ t.rd R.TIM_Q_TXIDX.PROD 0 q = prod.toNat ∧ t.mem = s.mem ∧
      (s.quadUp q = false → slots ≠ [] → prod.toNat ≠ s.rd R.TIM_Q_TXIDX.CONS 0 q → s.rd R.TIM_Q_TXIDX.CONS 0 q < 65536 →
        t.rd R.TIM_Q_TXIDX.CONS 0 q = s.rd R.TIM_Q_TXIDX.CONS 0 q ∧ (t.tim.ring.findD q.val []).length ≠ 0)) ∧
    (s.ethernet q = true → s.quadUp q = true → s.queuedBytes q + 248 ≤ 8388608 → s.tim.ring.findD q.val [] = [] →
      s.rd R.TIM_Q_TXIDX.CONS 0 q < 65536 → prod.toNat ≠ s.rd R.TIM_Q_TXIDX.CONS 0 q →
      ∃ t, exec (.txRingProdWrite q prod [slot] []) s = .next t ∧ t.rd R.TIM_Q_TXIDX.PROD 0 q = prod.toNat ∧
        t.rd R.TIM_Q_TXIDX.CONS 0 q = (s.rd R.TIM_Q_TXIDX.CONS 0 q + 1) % 65536 ∧
        (s.slotGood q slot = true → ∃ y, (t.txPort q).queues.findD 7 [] = (s.txPort q).queues.findD 7 [] ++ [y] ∧
          y.bytes = (slot.drop 32).take (leNat (slot.take 8) % 2 ^ 14) ∧ y.launch = none ∧
          s.regsBut t [R.TIM_Q_TXIDX.PROD.at_ 0 q, R.TIM_Q_TXIDX.CONS.at_ 0 q]) ∧
        (s.slotGood q slot = false → (t.txPort q).queues = (s.txPort q).queues ∧
          t.rd R.RAD_Q_DROP_C.TX_DROP q = min (s.rd R.RAD_Q_DROP_C.TX_DROP q + 1) (2 ^ R.RAD_Q_DROP_C.TX_DROP.w - 1)))) ∧
  (∀ (q : Quad) (s : State), s.managed = true → s.ethernet q = true → ∃ t, exec (.pop q) s = .next t ∧
    t.tim.stamps.findD q.val [] = (s.tim.stamps.findD q.val []).drop 1 ∧ (∀ j, j ≠ q.val → t.tim.stamps.find j = s.tim.stamps.find j) ∧ t.regs = s.regs) ∧
  (∀ (k : Fin 2) (s : State), ∃ t, exec (.synceSquelch k) s = .next t ∧ s.onlyRegs t [R.TIM_SYNCE.SQUELCHED.at_ 0 k] ∧
    let q := s.rd R.TIM_SYNCE.QUAD 0 k
    (t.rd R.TIM_SYNCE.SQUELCHED 0 k = 0 ↔ s.flag R.TIM_SYNCE.EN 0 k = true ∧ s.rd R.RAD_Q_MODE.MODE q = 1 ∧ s.rd R.RAD_Q_LINK.STATE q = 1 ∧
      (s.rd R.RAD_Q_LINK.LANES q).testBit (s.rd R.TIM_SYNCE.LANE 0 k) = true) ∧
    (s.squelched k = false → s.tim.synceAt.find k.val = none → t.synceOut k = some (q, s.rd R.TIM_SYNCE.LANE 0 k)))

/-- A READ, WRITE, ATOMIC or INV at an up port is checked in the order of R456. A failed integrity tag or a repeated LINK_CTR below the fence
threshold counts and changes nothing but the port's record; a malformed packet, one beyond its source's window of 1,024 among them, is counted and dropped. Where the input does not stall, a request at or below what its source has had delivered counts as a duplicate
and is answered with PROBE_ACK; one that comes early waits in the reorder buffer and asks for the missing one with NACK; where another stalls the input, a request that passed the checks waits behind it. In none of these cases
does a byte of memory or a merge buffer change. -/
def Obligations.FabricPacketChecks : Prop :=
  let cmd (i : InPkt) : Instr := match i.pkt.typ with | .read => .read i | .write => .write i | .atomic => .atomic i | _ => .inv i
  ∀ (i : InPkt) (s : State) (l : PortLink), i.pkt.typ = .read ∨ i.pkt.typ = .write ∨ i.pkt.typ = .atomic ∨ i.pkt.typ = .inv →
    s.wor.links.find i.quad.val = some l → s.rd R.WOR_P_STATE.STATE i.quad = 3 →
    let q := i.quad
    let p := i.pkt
    let recent := l.fails.filter fun t => s.elapsed < t + 5000000
    let counted (f : Fld) (l' : PortLink) := ∃ t, exec (cmd i) s = .next t ∧ t.rd f q = min (s.rd f q + 1) (2 ^ f.w - 1) ∧ s.regsBut t [f.at_ q] ∧
      t.wor.links.find q.val = some l' ∧ t = { s with regs := t.regs, wor := { s.wor with links := t.wor.links } }
    (i.tagOk = false → recent.length + 1 < s.rd R.WOR_P_CTRL.FENCE_THRESH q →
      counted R.WOR_P_SEC.INTEG { l with fails := recent ++ [s.elapsed] }) ∧
    (i.tagOk = true → l.takes i.ctr = false → recent.length + 1 < s.rd R.WOR_P_CTRL.FENCE_THRESH q →
      counted R.WOR_P_SEC.REPLAY { l with fails := recent ++ [s.elapsed] }) ∧
    (i.tagOk = false → s.rd R.WOR_P_CTRL.FENCE_THRESH q ≤ recent.length + 1 → ∃ t, exec (cmd i) s = .next t ∧
      t.rd R.WOR_P_STATE.STATE q = 4 ∧ t.wor.links.find q.val = none ∧ (t.err.last.find (q.val / 2)).map (fun r => r.cls) = some 0x10 ∧ t.mem = s.mem) ∧
    (i.tagOk = true → l.takes i.ctr = true → p.legal = false ∨ p.dst ≠ s.rd R.WOR_CTRL.NODE ∨ p.src = s.rd R.WOR_CTRL.NODE →
      counted R.WOR_P_DROP.MALFORMED (l.accept i.ctr)) ∧
    (∀ v, i.tagOk = true → l.takes i.ctr = true → p.legal = true → p.combined = false → s.wor.srcs.find p.src = some v → v.incarn = p.incarn →
      seqLe p.seq (v.cum + 1024) = false → counted R.WOR_P_DROP.MALFORMED (l.accept i.ctr)) ∧
    (i.tagOk = true → l.takes i.ctr = true → p.legal = true → p.dst = s.rd R.WOR_CTRL.NODE → p.src ≠ s.rd R.WOR_CTRL.NODE → p.combined = false →
      l.stalled = none → ∀ v, s.wor.srcs.find p.src = some v → v.incarn = p.incarn → seqLe p.seq (v.cum + 1024) = true →
      (seqLe p.seq v.cum = true → ∃ t a, exec (cmd i) s = .next t ∧ t.rd R.WOR_P_DROP.DUP q = min (s.rd R.WOR_P_DROP.DUP q + 1) (2 ^ R.WOR_P_DROP.DUP.w - 1) ∧
        (t.dest p.src).replies = (s.dest p.src).replies ++ [a] ∧ a.typ = .probeAck ∧ a.incarn = p.incarn ∧ (t.dest p.src).dead = false ∧
        (t.dest p.src).heard = s.elapsed ∧ t.wor.srcs = s.wor.srcs ∧ t.wor.merge = s.wor.merge ∧ t.mem = s.mem) ∧
      (seqLe p.seq v.cum = false → p.seq ≠ seqNext v.cum → s.wor.reorder.length < 2048 →
        (∀ j ∈ s.wor.reorder, ¬ (j.pkt.parts = [(p.src, p.seq)] ∧ j.pkt.incarn = p.incarn)) →
        ∃ t a, exec (cmd i) s = .next t ∧ t.wor.reorder = s.wor.reorder ++ [i] ∧ (t.dest p.src).replies = (s.dest p.src).replies ++ [a] ∧
          a.typ = .nack ∧ a.seq = seqNext v.cum ∧ (t.srcOf p.src).cum = v.cum ∧ t.wor.merge = s.wor.merge ∧ t.mem = s.mem)) ∧
    (∀ v, i.tagOk = true → l.takes i.ctr = true → p.legal = true → p.dst = s.rd R.WOR_CTRL.NODE → p.src ≠ s.rd R.WOR_CTRL.NODE → p.combined = false →
      s.wor.srcs.find p.src = some v → v.incarn = p.incarn → seqLe p.seq (v.cum + 1024) = true → l.stalled.isSome = true →
      ∃ t, exec (cmd i) s = .next t ∧ (t.wor.links.find q.val).map (fun x => x.behind) = some (l.behind ++ [i]) ∧ t.wor.srcs = s.wor.srcs ∧
        t.wor.reorder = s.wor.reorder ∧ t.wor.merge = s.wor.merge ∧ t.mem = s.mem)

/-- A request that passes the checks as the next of its source is delivered. READ answers the line as the stores delivered before it leave it, or zeros where no window
grants it. WRITE enters the merge buffer of its line, or stalls its input while that is full; a denied one is acknowledged and writes nothing, and one that is a doorbell write of the sender's reach window rings the doorbell. ATOMIC applied for the first time writes the result of its operation,
answers the old value and records it; a recorded one answers again and writes nothing. INV leaves no copy of its lines in any line cache and is answered.
MERGE_APPLY applies and acknowledges the oldest store; REPLAY_ENTRY_FREE frees an entry idle for 10 s. -/
def Obligations.FabricHomeServes : Prop :=
  (∀ (i : InPkt) (s : State) (l : PortLink) (v : SrcSt),
    let q := i.quad
    let p := i.pkt
    s.wor.links.find q.val = some l → s.rd R.WOR_P_STATE.STATE q = 3 → l.stalled = none → i.tagOk = true → l.takes i.ctr = true → p.legal = true →
    p.dst = s.rd R.WOR_CTRL.NODE → p.src ≠ s.rd R.WOR_CTRL.NODE → p.combined = false → s.wor.reorder = [] → s.wor.srcs.find p.src = some v →
    v.incarn = p.incarn → p.seq = seqNext v.cum →
    let answered (t : State) (typ : PktType) (f : Packet → Prop) := (t.srcOf p.src).cum = p.seq ∧
      ∃ r, (t.dest p.src).replies = (s.dest p.src).replies ++ [r] ∧ r.typ = typ ∧ r.seq = p.seq ∧ r.incarn = p.incarn ∧ f r
    let denied (t : State) := t.rd R.WOR_COUNTS_A.DENIED = min (s.rd R.WOR_COUNTS_A.DENIED + 1) (2 ^ R.WOR_COUNTS_A.DENIED.w - 1) ∧ t.mem = s.mem
    (∀ o n, p.typ = .read → s.serve p.src p.addr 256 false (fun w => w.read) = .line o n → ∃ t, exec (.read i) s = .next t ∧ t.mem = s.mem ∧
      answered t .readRsp fun r => r.data = (s.merged (channelOf n)).foldl (fun d m => if m.line = n then applyBytes d m.bytes else d) (s.seenLine n)) ∧
    (p.typ = .read → s.serve p.src p.addr 256 false (fun w => w.read) = .denied none → ∃ t, exec (.read i) s = .next t ∧ denied t ∧
      answered t .readRsp fun r => r.data = zeroLine) ∧
    (∀ o n, p.typ = .write → s.serve p.src p.addr p.len true (fun w => w.write) = .line o n →
      ((s.merged (channelOf n)).length < 256 → ∃ t m, exec (.write i) s = .next t ∧ t.merged (channelOf n) = s.merged (channelOf n) ++ [m] ∧
        m.line = n ∧ m.bytes = p.lineBytes ∧ m.src = p.src ∧ m.seq = p.seq ∧ (t.srcOf p.src).cum = p.seq ∧ t.mem = s.mem ∧
        (t.dest p.src).replies = (s.dest p.src).replies) ∧
      (256 ≤ (s.merged (channelOf n)).length → ∃ t, exec (.write i) s = .next t ∧ (t.wor.links.find q.val).map (fun x => x.stalled) = some (some (i, s.elapsed)) ∧
        t.wor.srcs = s.wor.srcs ∧ t.wor.merge = s.wor.merge ∧ t.mem = s.mem)) ∧
    (p.typ = .write → s.serve p.src p.addr p.len true (fun w => w.write) = .denied none → ∃ t, exec (.write i) s = .next t ∧ denied t ∧
      t.wor.merge = s.wor.merge ∧ answered t .writeAck fun _ => True) ∧
    (∀ o off, p.typ = .write → s.serve p.src p.addr p.len true (fun w => w.write) = .reach o off →
      (p.doorbell off = none → ∃ t, exec (.write i) s = .next t ∧ denied t ∧ t.wor.merge = s.wor.merge ∧ answered t .writeAck fun _ => True) ∧
      (∀ v g d, p.doorbell off = some v → s.tenState o = 1 → s.localQueue o (v.toNat % 65536) = some (g, d) → ∃ t, exec (.write i) s = .next t ∧
        (t.queue g).map (fun x => x.db) = some (max d.db (v.toNat / 65536)) ∧ t.mem = s.mem ∧ answered t .writeAck fun _ => True)) ∧
    (∀ o n a, p.typ = .atomic → s.serve p.src p.addr (if p.size8 then 8 else 4) true (fun w => w.atomic) = .line o n → s.merged (channelOf n) = [] →
      p.atoms = [a] →
      let b := if p.size8 then 8 else 4
      let old := leNat (((s.seenLine n).drop (p.addr % 256)).take b)
      let new := atomResult p.op (8 * b) old (a.operand % 2 ^ (8 * b)) (a.operand2 % 2 ^ (8 * b))
      (s.wor.replay.find (a.key p.src) = none → s.wor.replay.length < 65536 → ∃ t, exec (.atomic i) s = .next t ∧
        t.mem = (if new = old then s.mem else (s.coherentWrite n ((leBytes b new).zipIdx.map fun x => (p.addr % 256 + x.2, x.1))).mem) ∧
        t.replayed p.src a = .recorded old ∧ answered t .atomicRsp fun r => r.atoms.map (fun x => x.ret) = [old] ∧ r.busy = false ∧ r.stale = false) ∧
      (∀ k, s.replayed p.src a = .recorded k → ∃ t, exec (.atomic i) s = .next t ∧ t.mem = s.mem ∧
        (∀ x, (t.wor.replay.find x).map (fun e => e.pairs) = (s.wor.replay.find x).map fun e => e.pairs) ∧
        answered t .atomicRsp fun r => r.atoms.map (fun x => x.ret) = [k])) ∧
    (p.typ = .inv → ∃ t, exec (.inv i) s = .next t ∧ (answered t .invAck fun _ => True) ∧ t.mem.hbm = s.mem.hbm ∧
      ∀ d n, p.addr / 256 ≤ n → n < p.addr / 256 + p.lines → ∀ x ∈ (t.cache d).lines, x.key ≠ .wor n)) ∧
  (∀ (k : Stack) (c : Fin 32) (s : State) (m : MergeStore) (rest : List MergeStore), s.merged (k.val * 32 + c.val) = m :: rest →
    s.wor.reorder = [] → (∀ e ∈ s.wor.links, e.2.stalled = none) → ∃ t r, exec (.mergeApply k c) s = .next t ∧ t.merged (k.val * 32 + c.val) = rest ∧
      t.mem = (if m.bytes = [] then s.mem else (s.coherentWrite m.line m.bytes).mem) ∧ (t.dest m.src).replies = (s.dest m.src).replies ++ [r] ∧ r.typ = .writeAck ∧ r.seq = m.seq) ∧
  (∀ (src : Fin 4096) (epoch gen queue : Nat) (s : State) (e : ReplayEntry), s.wor.replay.find (src.val, epoch, gen, queue) = some e →
    (s.elapsed < e.used + 50000000000 → exec (.replayEntryFree src epoch gen queue) s = .next s) ∧
    (e.used + 50000000000 ≤ s.elapsed → ∃ t, exec (.replayEntryFree src epoch gen queue) s = .next t ∧
      t.wor.replay.find (src.val, epoch, gen, queue) = none ∧
      (∀ k, k ≠ (src.val, epoch, gen, queue) → t.wor.replay.find k = s.wor.replay.find k) ∧ t.mem = s.mem))

/-- A response that passes the checks ends what its request waits for: READ_RSP gives a fill its data, WRITE_ACK a mover its answer, INV_ACK the INV command Done, ATOMIC_RSP acknowledges its
effect, or has it asked again after BUSY. NACK and a PROBE_ACK below the oldest request make the packet go again; a PROBE_ACK moves CUM; PROBE is answered with PROBE_ACK.
PROBE_INTERVAL probes a request that has waited, and repeats the NACK of a source while a gap remains. DEAD_TARGET makes a silent node dead, counts it, and leaves none of its requests open; DEAD_CLEAR ends that. PACKET_SEND, below the LINK_CTR at which the key must be updated, sends the port's next packet,
spends its credits, and gives a response or control packet the CUM of its node. -/
def Obligations.FabricSource : Prop :=
  (∀ (i : InPkt) (s : State) (l : PortLink),
    let q := i.quad
    let p := i.pkt
    s.wor.links.find q.val = some l → s.rd R.WOR_P_STATE.STATE q = 3 → i.tagOk = true → l.takes i.ctr = true → p.legal = true →
    p.dst = s.rd R.WOR_CTRL.NODE → p.src ≠ s.rd R.WOR_CTRL.NODE →
    (p.cls = .response → s.matchReq p = none →
      let stray (c : Instr) := ∃ t, exec c s = .next t ∧ t.rd R.WOR_COUNTS_A.STRAY = min (s.rd R.WOR_COUNTS_A.STRAY + 1) (2 ^ R.WOR_COUNTS_A.STRAY.w - 1) ∧
        t.wor.dests = s.wor.dests ∧ t.mem = s.mem
      (p.typ = .readRsp → stray (.readRsp i)) ∧ (p.typ = .writeAck → stray (.writeAck i)) ∧ (p.typ = .invAck → stray (.invAck i)) ∧
      (p.typ = .atomicRsp → stray (.atomicRsp i))) ∧
    (∀ u, s.matchReq p = some u →
      (∀ d line f, p.typ = .readRsp → u.wait = .fill d line → (s.cache d).fill (.wor line) = some f → f.data = none → ∃ t, exec (.readRsp i) s = .next t ∧
        ((t.cache d).fill (.wor line)).bind (fun x => x.data) = some p.data) ∧
      (∀ site r, p.typ = .writeAck → u.wait = .write site r → u.acked = false → (s.mover site).expects r = true → r.squashed = false →
        ∃ t, exec (.writeAck i) s = .next t ∧
        ⟨r, [], false, r.space = .woruri || r.space = .host⟩ ∈ (t.mover site).resp ∧ t.mem.hbm = s.mem.hbm) ∧
      (p.typ = .invAck → u.wait = .inv → ∃ t, exec (.invAck i) s = .next t ∧ t.rd R.WOR_INV_STATUS.BUSY = 0 ∧ t.rd R.WOR_INV_STATUS.STATUS = 0) ∧
      (∀ e v, p.typ = .atomicRsp → u.wait = .effect e → s.queue e.queue = some v → v.leaving = false → p.combined = false →
        (p.busy = false → p.stale = false → ∃ t, exec (.atomicRsp i) s = .next t ∧
          (t.queue e.queue).map (fun d => d.sent) = some (v.sent.filter fun x => x ≠ (e.item, e.index))) ∧
        (p.busy = true → ∃ t, exec (.atomicRsp i) s = .next t ∧ t.que = s.que ∧ t.mem.lc = s.mem.lc ∧
          ∃ x ∈ (t.dest p.src).again, x.1.nocomb = true ∧ x.2.1 = .effect e ∧ s.elapsed < x.2.2))) ∧
    (p.incarn = s.rd R.WOR_STATUS.INCARN → (s.dest p.src).waiting = [] →
      (p.typ = .nack → ∃ t, exec (.nack i) s = .next t ∧ t.mem = s.mem ∧
        (t.dest p.src).unacked = (s.dest p.src).unacked.map fun u =>
          if u.pkt.seq = p.seq ∧ !u.acked ∧ !u.unsent then { u with unsent := true, resent := true } else u) ∧
      (p.typ = .probeAck → seqBelow (s.dest p.src).cum p.cum = true → seqLe p.cum ((s.dest p.src).next + 2 ^ 32 - 1) = true →
        ∃ t, exec (.probeAck i) s = .next t ∧ (t.dest p.src).cum = p.cum % 2 ^ 32 ∧
          ∀ u ∈ (s.dest p.src).unacked, u.acked = false → u.unsent = false → u.answered = true → seqLe u.pkt.seq p.cum = true →
            { u with acked := true } ∉ (t.dest p.src).unacked) ∧
      (∀ u, p.typ = .probeAck → seqBelow (s.dest p.src).cum p.cum = false → p.held = false → (s.dest p.src).oldest = some u → seqBelow p.cum u.pkt.seq = true →
        ∃ t, exec (.probeAck i) s = .next t ∧ ∃ w ∈ (t.dest p.src).unacked, w.pkt.seq = u.pkt.seq ∧ w.unsent = true ∧ w.acked = false)) ∧
    (p.typ = .probe → ∃ t r, exec (.probe i) s = .next t ∧ (t.dest p.src).replies = (s.dest p.src).replies ++ [r] ∧ r.typ = .probeAck ∧
      r.incarn = p.incarn ∧ (t.srcOf p.src).incarn = p.incarn ∧ (s.wor.srcs.find p.src = none → (t.srcOf p.src).cum = 0) ∧ t.mem = s.mem)) ∧
  (∀ (n : Fin 4096) (s : State) (u : OutReq),
    let d := s.dest n
    let iv := max 5000 (s.rd R.WOR_CTRL.DEAD_US * 625)
    d.oldest = some u → d.again = [] →
    let v := s.srcOf n
    (v.gap = true → v.lastNack + iv ≤ s.elapsed → ∃ t r, exec (.probeInterval n) s = .next t ∧ r ∈ (t.dest n).replies ∧ r.typ = .nack ∧
      r.seq = seqNext v.cum ∧ (t.srcOf n).lastNack = s.elapsed ∧ t.mem = s.mem) ∧
    (v.gap = false → s.elapsed < u.issued + iv → ∃ t, exec (.probeInterval n) s = .next t ∧ t.dest n = d ∧ t.mem = s.mem) ∧
    (v.gap = false → u.issued + iv ≤ s.elapsed → d.lastProbe + iv ≤ s.elapsed → ∃ t r, exec (.probeInterval n) s = .next t ∧
      t.dest n = { d with lastProbe := s.elapsed, replies := d.replies ++ [r] } ∧ r.typ = .probe ∧ r.seq = u.pkt.seq ∧ t.mem = s.mem)) ∧
  (∀ (n : Fin 4096) (s : State), (s.dest n).dead = false →
    (s.silent (s.dest n) = false → exec (.deadTarget n) s = .next s) ∧
    (s.silent (s.dest n) = true → ∃ t, exec (.deadTarget n) s = .next t ∧ (t.dest n).dead = true ∧
      ((∀ x, s.wor.inv = some x → x.1.dst ≠ n.val) → (t.dest n).waiting = [] ∧ (t.dest n).again = []) ∧
      (∀ u ∈ (t.dest n).unacked, u.answered = true ∨ (u.acked = true ∧ u.wait.isWrite = true)) ∧
      t.rd R.WOR_COUNTS_B.DEAD_EVENTS = min (s.rd R.WOR_COUNTS_B.DEAD_EVENTS + 1) (2 ^ R.WOR_COUNTS_B.DEAD_EVENTS.w - 1))) ∧
  (∀ s : State, s.managed = true →
    let n := s.rd R.WOR_NODE_SEL.NODE
    ((s.dest n).dead = false → exec .deadClear s = .next s) ∧
    ((s.dest n).dead = true → ∃ t, exec .deadClear s = .next t ∧ (t.dest n).dead = false ∧ t.mem = s.mem ∧
      (1 ≤ s.rd R.WOR_STATUS.DEAD_NODES → s.rd R.WOR_STATUS.DEAD_NODES < 4096 → t.rd R.WOR_STATUS.DEAD_NODES = s.rd R.WOR_STATUS.DEAD_NODES - 1))) ∧
  (∀ (q : Quad) (n : Fin 4096) (req rsp ctl : Fin 2049) (s : State) (l : PortLink) (c : PktClass) (p : Packet),
    s.wor.links.find q.val = some l → s.flag R.WOR_CTRL.EN = true → s.rd R.WOR_P_STATE.STATE q = 3 →
    (2 ^ 47 ≤ s.rd R.WOR_P_KEY.TX_CTR q + 1 → ∃ t, exec (.packetSend q n req rsp ctl) s = .next t ∧ t.wor.dests = s.wor.dests ∧ t.regs = s.regs) ∧
    (s.rd R.WOR_P_KEY.TX_CTR q + 1 < 2 ^ 47 →
    let g := l.grant req rsp ctl
    s.sendClass q g = some c → (s.dest n).port = some q.val → (s.dest n).nextOf c = some p → p.units ≤ g.cred c →
    ∃ t, exec (.packetSend q n req rsp ctl) s = .next t ∧ (∃ o, t.wor.links.find q.val = some { g.spend c p.units with last := some o } ∧ o.typ = p.typ ∧ o.seq = p.seq ∧
        o.src = s.rd R.WOR_CTRL.NODE ∧ (c = .request → o.incarn = s.rd R.WOR_STATUS.INCARN) ∧ (c ≠ .request → o.cum = (s.srcOf n).cum)) ∧
      t.dest n = (s.dest n).sent p (s.rd R.WOR_STATUS.INCARN) (s.rd R.WOR_CTRL.NODE) ∧
      t.rd R.WOR_P_TX.COUNT q = (s.rd R.WOR_P_TX.COUNT q + 1) % 2 ^ R.WOR_P_TX.COUNT.w ∧ t.mem = s.mem))

/-- WOR_PORT_EN_WRITE takes a port down or makes it train; QUAD_TRAINING_END with all four lanes brings its link up and the port to securing, where SPDM messages reach Mewait, and PORT_SECURED, after such
messages and with a root that is present, brings it up with full credits. KEY_UPDATE replaces the key of an up port. REROUTE takes a port out of the up state: no node is served through it any more and what it had sent unacknowledged
goes again. A window command without a cause of Table 14.8 installs or removes its window; a refused one changes no window. SEND is BUSY until its INV ends, and issues it
at once where every earlier fabric request is acknowledged; otherwise the INV waits for them. -/
def Obligations.FabricPortsAndWindows : Prop :=
  (∀ (q : Quad) (v : Word) (s : State), s.managed = true → s.rd R.RAD_Q_MODE.MODE q = 2 → s.isOut (.quad q) = false →
    (v.toNat % 2 = 0 → s.rd R.WOR_P_CTRL.EN q = 1 → ∃ t, exec (.worPortEnWrite q v) s = .next t ∧ t.rd R.WOR_P_CTRL.EN q = 0 ∧
      t.rd R.WOR_P_STATE.STATE q = 5 ∧ t.wor.links.find q.val = none ∧ t.mem = s.mem) ∧
    (v.toNat % 2 = 1 → s.rd R.WOR_P_CTRL.EN q = 0 → ∃ t, exec (.worPortEnWrite q v) s = .next t ∧ t.rd R.WOR_P_CTRL.EN q = 1 ∧
      t.rd R.WOR_P_STATE.STATE q = 1 ∧ t.rd R.RAD_Q_LINK.STATE q = 3 ∧ t.rd R.WOR_P_CTRL.FENCE_THRESH q = max 1 (v.toNat / 256 % 256) ∧
      s.onlyRegs t [R.WOR_P_CTRL.EN.at_ q, R.WOR_P_CTRL.FENCE_THRESH.at_ q, R.WOR_P_STATE.STATE.at_ q, R.RAD_Q_LINK.STATE.at_ q])) ∧
  (∀ (q : Quad) (ok : Bool) (lanes : BitVec 4) (s : State),
    (s.rd R.RAD_Q_LINK.STATE q ≠ 3 → exec (.quadTrainingEnd q ok lanes) s = .next s) ∧
    (s.rd R.RAD_Q_LINK.STATE q = 3 → s.isOut (.quad q) = false →
      (s.rd R.RAD_Q_MODE.MODE q = 2 → s.rd R.WOR_P_STATE.STATE q = 1 → ∃ t, exec (.quadTrainingEnd q true 15) s = .next t ∧
        t.rd R.RAD_Q_LINK.STATE q = 1 ∧ t.rd R.RAD_Q_LINK.LANES q = 15 ∧ t.rd R.WOR_P_STATE.STATE q = 2 ∧ t.wor.links.find q.val = some {} ∧
        t.mem = s.mem) ∧
      (s.rd R.RAD_Q_MODE.MODE q = 1 → s.tim.ring.find q.val = none → ∃ t, exec (.quadTrainingEnd q true 15) s = .next t ∧
        t.quadUp q = true ∧ t.rd R.RAD_Q_LINK.LANES q = 15 ∧ s.regsBut t [R.RAD_Q_LINK.STATE.at_ q, R.RAD_Q_LINK.LANES.at_ q]) ∧
      (ok = false ∨ lanes ≠ 15 →
       let ts := s.elapsed :: (s.err.quadFails.findD q.val []).filter fun t => s.elapsed < t + 5000000000
       (ts.length < 3 → ∃ t, exec (.quadTrainingEnd q ok lanes) s = .next t ∧ t.err.quadFails.find q.val = some ts ∧ t.regs = s.regs ∧ t.mem = s.mem) ∧
       (3 ≤ ts.length → s.chainAt (.quad q) = none → s.err.queue.length < 256 → ∃ t, exec (.quadTrainingEnd q ok lanes) s = .next t ∧
         t.isOut (.quad q) = true ∧ t.rd R.RAD_Q_LINK.STATE q = 0 ∧ (t.err.last.find (q.val / 2)).map (fun r => r.cls) = some 0x0D)))) ∧
  (∀ (i : InPkt) (s : State), i.pkt.typ = .spdm → s.rd R.WOR_P_STATE.STATE i.quad = 2 →
    ∃ t, exec (.spdm i) s = .next t ∧ (t.wor.links.findD i.quad.val {}).spdm = (s.wor.links.findD i.quad.val {}).spdm ++ [i.pkt.data] ∧ t.mem = s.mem) ∧
  (∀ (q : Quad) (root : Option (Fin 4)) (s : State), s.rd R.WOR_P_STATE.STATE q = 2 →
    let ready_ : Prop := (s.wor.links.findD q.val {}).spdm ≠ [] ∧ ∀ n, root = some n → s.mgt.anchors.has n.val = true
    (¬ ready_ → exec (.portSecured q root) s = .next s) ∧
    (ready_ → ∃ t l, exec (.portSecured q root) s = .next t ∧ t.rd R.WOR_P_STATE.STATE q = 3 ∧ t.wor.links.find q.val = some l ∧ l.credReq = 2048 ∧ l.credRsp = 2048 ∧
      l.credCtl = 128 ∧ l.givenReq = 2048 ∧ l.givenRsp = 2048 ∧ l.givenCtl = 128 ∧ l.fresh = true ∧ t.rd R.WOR_P_KEY.UPDATES q = 0 ∧ t.rd R.WOR_P_KEY.TX_CTR q = 0)) ∧
  (∀ (q : Quad) (s : State), s.rd R.WOR_P_STATE.STATE q = 3 →
    (∀ l, s.wor.links.find q.val = some l → ∃ t, exec (.keyUpdate q) s = .next t ∧
      t.wor.links.find q.val = some { l with high := 0, fresh := true, accepted := [] } ∧ t.rd R.WOR_P_KEY.TX_CTR q = 0 ∧
      t.rd R.WOR_P_KEY.UPDATES q = (s.rd R.WOR_P_KEY.UPDATES q + 1) % 2 ^ R.WOR_P_KEY.UPDATES.w ∧
      s.regsBut t [R.WOR_P_KEY.TX_CTR.at_ q, R.WOR_P_KEY.UPDATES.at_ q]) ∧
    (∃ t, exec (.reroute q) s = .next t ∧ t.rd R.WOR_P_STATE.STATE q = 5 ∧ t.wor.links.find q.val = none ∧ t.mem = s.mem ∧
      ∀ n d, s.wor.dests.find n = some d → (t.dest n).port ≠ some q.val ∧
        (d.port = some q.val → ∀ u ∈ (t.dest n).unacked, u.acked = false → u.unsent = true))) ∧
  (∀ (o : Fin 2048) (k : Fin 256) (s : State), s.managed = true →
    let a := s.winArg 1
    let done (c : Instr) (op : Nat) (exp : Bool) (f : State → Prop) :=
      (s.winCause op o k exp = 0 → ∃ t, exec c s = .next t ∧ f t ∧ t.rd R.WOR_WIN_STATUS.STATUS = 0 ∧ t.rd R.WOR_WIN_STATUS.CAUSE = 0 ∧ t.mem = s.mem) ∧
      (s.winCause op o k exp ≠ 0 → ∃ t, exec c s = .next t ∧ t.wor = s.wor ∧ t.rd R.WOR_WIN_STATUS.STATUS = 5 ∧
        t.rd R.WOR_WIN_STATUS.CAUSE = s.winCause op o k exp)
    done (.mapImport o k) 1 false (fun t => t.wor.imports.find (o.val, k.val) = some ⟨s.winArg 0, a % 2 ^ 24, a.testBit 24, a.testBit 25, a.testBit 26⟩) ∧
    done (.mapExport o k) 2 true (fun t => t.wor.exports.find k.val =
      some ⟨s.winArg 0, a % 2 ^ 24, a.testBit 24, a.testBit 25, a.testBit 26, a.testBit 27, a / 2 ^ 32 % 2 ^ 12, o.val, s.winArg 2⟩) ∧
    done (.unmap o k true) 3 true (fun t => t.wor.exports.find k.val = none ∧ t.wor.imports = s.wor.imports) ∧
    done (.unmap o k false) 3 false (fun t => t.wor.imports.find (o.val, k.val) = none ∧ t.wor.exports = s.wor.exports) ∧
    (s.tenState o = 0 → o.val < 1024 → s.winCause 1 o k false = 3)) ∧
  (∀ s : State, s.managed = true →
    (s.flag R.WOR_INV_STATUS.BUSY = true → exec .send s = .next s) ∧
    (s.flag R.WOR_INV_STATUS.BUSY = false →
      let n := s.rd R.WOR_INV_ARG.ARG 0 1 % 4096
      let d := s.dest n
      ((∃ e ∈ s.wor.dests, e.2.dead = false ∧ ∃ u ∈ e.2.unacked, u.acked = false) → ∃ t p f, exec .send s = .next t ∧
        t.rd R.WOR_INV_STATUS.BUSY = 1 ∧ t = { s with regs := t.regs, wor := { s.wor with inv := some (p, f) } } ∧ p.typ = .inv ∧ p.dst = n ∧
        s.regsBut t [R.WOR_INV_STATUS.BUSY.at_]) ∧
      ((∀ e ∈ s.wor.dests, e.2.waiting = [] ∧ (e.2.dead = true ∨ ∀ u ∈ e.2.unacked, u.acked = true)) → d.dead = false → d.waiting = [] → d.inPlay < 1024 → ∃ t u, exec .send s = .next t ∧ t.rd R.WOR_INV_STATUS.BUSY = 1 ∧
        (t.dest n).unacked = d.unacked ++ [u] ∧ u.wait = .inv ∧ u.pkt.typ = .inv ∧ u.pkt.seq = d.next ∧ u.pkt.addr % 256 = 0 ∧
        u.pkt.lines = s.rd R.WOR_INV_ARG.ARG 0 1 / 2 ^ 16 % 2 ^ 13 ∧ s.onlyRegs { t with wor := s.wor } [R.WOR_INV_STATUS.BUSY.at_])))

/-- ERROR_DETECT of level 0 writes one record and fails its item, and stops no unit; of a core it stops the site's engines, fails the site and queues a recovery; of a quadrant, cluster, stack or
die it takes the unit out of service, the loss of the chief's own die beginning the election that comes first. CORE_HANG contains its site. HEARTBEAT counts what each die sent, and misses, and the fourth miss in a row is the loss of the die. RECOVERY_START, while there is a chief, takes the
first queued recovery and orphans the active owner of every context it hits; RECOVERY_END ends it, a row taking its new mask and a cleared spare.
STANDBY_RELEASE takes the protected group's old place away, once no shape of the standby is lent: a lent one is recalled. CE_LIMIT_REACHED puts a good site on probation and retires one that is on it; PROBATION_END makes a site good again. -/
def Obligations.ErrorsAndRecoveries : Prop :=
  let free (s : State) (u : RecUnit) := s.chainAt u = none ∧ s.err.queue.length < 256 ∧ s.ten.load = none
  (∀ (c : CellClass) (sub : Fin 11) (site : Site) (unit : Fin 8) (item : Option ItemRef) (detail : BitVec 64) (s : State),
    s.siteServes site = true → sub.val < c.subs → (∀ it, item = some it → s.failed.find it = none) →
    let seq := max 1 (s.rd R.ERR_STATUS.NEXT_SEQ)
    ∃ t r, exec (.errorDetect (.cell c sub site unit item detail)) s = .next t ∧
      (∀ it, item = some it → t.failed.find it = some seq ∧ r.queue = it.queue ∧ r.item = it.item) ∧ (item = none → t.failed = s.failed) ∧
      t.err.ring.find (seq % 65536) = some r ∧ r.seq = seq ∧ r.cls = c.cls.code ∧ r.sub = sub.val + 1 ∧ r.level = 0 ∧
      t.rd R.ERR_STATUS.NEXT_SEQ = (seq + 1) % 2 ^ 48 ∧ t.rd R.HST_EVENTS.ERROR = 1 ∧ t.err.queue = s.err.queue ∧ t.err.out = s.err.out ∧ t.mem = s.mem ∧ t.eng = s.eng) ∧
  (∀ (site : Site) (sub : Fin 4) (unit : Fin 8) (s : State), s.siteServes site = true → free s (.row (Unit.rowIx site)) →
    let stopped (c : Instr) := ∃ t, exec c s = .next t ∧ (t.siteRec site).state = .failed ∧ t.flag R.VEC_STATE.STOPPED site = true ∧
      t.rd R.SIG_STATE.RUNNING (2 * site.val) = 0 ∧ t.rd R.SIG_STATE.RUNNING (2 * site.val + 1) = 0 ∧
      ⟨max 1 (s.rd R.ERR_STATUS.NEXT_SEQ), 1, .row (Unit.rowIx site), some site.val⟩ ∈ t.err.queue ∧ t.siteServes site = false
    stopped (.errorDetect (.core site sub unit)) ∧ stopped (.coreHang site false) ∧
    ((∃ e ∈ s.sched.ctxs, e.2.res = .restoring ∧ site.val ∈ s.ctxSites e.2) → stopped (.coreHang site true))) ∧
  (∀ (k : Stack) (s : State) (l : LoadSt), s.ten.load = some l → 1 ≤ s.phase → s.phase ≤ 6 → s.stackUp k = true → k.val ∈ l.staged →
    ∃ t, exec (.errorDetect (.staging k)) s = .next t ∧ t.mem.hbm = s.mem.hbm ∧ t.rd R.ERR_STATUS.NEXT_SEQ = (max 1 (s.rd R.ERR_STATUS.NEXT_SEQ) + 1) % 2 ^ 48 ∧
      (s.phase = 5 → t.ten = s.ten) ∧
      (s.phase ≠ 5 → t.ten.load = none ∧ t.rd R.GLB_IMG_STATUS.BUSY = 0 ∧ t.rd R.GLB_IMG_STATUS.STATUS = 3)) ∧
  (∀ (site : Site) (s : State), s.siteServes site = false → exec (.coreHang site false) s = .next s) ∧
  (∀ (s : State) (sub : Fin 3) (sub2 : Fin 2) (q : Fin 32) (c : Cluster) (k : Stack) (d : Die),
    (s.isOut (.quadrant q) = false → free s (.quadrant q) → ∃ t, exec (.errorDetect (.quadrant q sub)) s = .next t ∧ t.isOut (.quadrant q) = true) ∧
    (s.isOut (.cluster c) = false → free s (.cluster c) → ∃ t, exec (.errorDetect (.cluster c sub)) s = .next t ∧ t.isOut (.cluster c) = true ∧
      t.rd R.CLU_STATE.IN_SERVICE c = 0) ∧
    (s.isOut (.stack k) = false → free s (.stack k) → ∃ t, exec (.errorDetect (.stack k sub2)) s = .next t ∧ t.isOut (.stack k) = true ∧
      t.rd R.HBM_STATE.IN_SERVICE k = 0) ∧
    (s.isOut (.die d) = false → free s (.die d) → d.val ≠ s.rd R.GLB_DIE_STATE.CHIEF → ∃ t, exec (.errorDetect (.die d sub)) s = .next t ∧
      t.isOut (.die d) = true ∧ t.rd (R.GLB_DIE_STATE.DIE d) = 2 ∧ t.ziu.due = true) ∧
    (s.isOut (.die d) = false → d.val = s.rd R.GLB_DIE_STATE.CHIEF → 5 ≤ s.rd R.MGT_STATUS.STAGE → s.rd R.MGT_STATUS.STAGE ≤ 7 → s.boot.lostChief = none →
      ∃ t, exec (.errorDetect (.die d sub)) s = .next t ∧ t = { s with boot := t.boot } ∧ t.boot.lostChief = some (sub.val + 1) ∧
        t.boot.electStart = s.elapsed) ∧
    (s.isOut (.die d) = true → exec (.errorDetect (.die d sub)) s = .next s)) ∧
  (∀ (answered : BitVec 8) (s : State), s.err.heartAt ≤ s.elapsed →
    ((∀ d, d < 8 → s.dieUp d = true → answered.toNat.testBit d = false → s.err.missed.findD d 0 + 1 < 4) → ∃ t, exec (.heartbeat answered) s = .next t ∧
      t.err.out = s.err.out ∧ t.err.ring = s.err.ring ∧ t.mem = s.mem ∧
      ∀ d, d < 8 → s.dieUp d = true →
        (answered.toNat.testBit d = true → t.err.missed.find d = none ∧ t.rd R.DIE_HEARTBEAT.SENT d = (s.rd R.DIE_HEARTBEAT.SENT d + 1) % 2 ^ 32) ∧
        (answered.toNat.testBit d = false → t.err.missed.find d = some (s.err.missed.findD d 0 + 1))) ∧
    (∀ d : Die, s.dieUp d = true → s.isOut (.die d) = false → answered.toNat.testBit d = false → 3 ≤ s.err.missed.findD d.val 0 →
      d.val ≠ s.rd R.GLB_DIE_STATE.CHIEF → free s (.die d) → (∀ e, e < 8 → e ≠ d.val → answered.toNat.testBit e = true) →
      ∃ t, exec (.heartbeat answered) s = .next t ∧ t.isOut (.die d) = true)) ∧
  (∀ (s : State) (ch : Chain) (rest : List Chain), s.err.running = none → s.err.queue = ch :: rest →
    (s.boot.lostChief ≠ none → exec .recoveryStart s = .next s) ∧
    (s.boot.lostChief = none → s.ten.load = none → ∃ t, exec .recoveryStart s = .next t ∧ t.err.running = some ch ∧ t.err.queue = rest ∧
      ((∃ c, ch.unit = .cluster c) ∨ (∃ d, ch.unit = .die d) ∨ (∃ q, ch.unit = .quadrant q) → (∀ e ∈ s.sched.ctxs, s.hasStandby e.1 e.2 = false) →
        ∀ k y, s.ctx k = some y → s.unitHit ch.unit y = true → s.holdsImage k.1 = true → s.tenState k.1 = 1 →
          t.holdsImage k.1 = false ∧ t.err.orphans.find k.1 = some ch.first))) ∧
  (∀ (s : State) (ch : Chain), s.err.running = some ch →
    (exec .recoveryStart s = .next s) ∧
    (ch.unit ≠ .package → (∀ r k, ¬ (ch.unit = .row r ∧ ch.site = some k)) → ∃ t, exec .recoveryEnd s = .next t ∧ t.err.running = none ∧
      t.err.queue = s.err.queue ∧ t.mem = s.mem ∧ s.regsBut t [R.ERR_STATUS.MIRROR_OK.at_]) ∧
    (ch.unit = .package → exec .recoveryEnd s = .next s) ∧
    (∀ r k, ch.unit = .row r → ch.site = some k →
      (∀ e ∈ s.movingOf r, e.2.res ≠ .resident ∧ e.2.res ≠ .saving ∧ ∀ cn ∈ s.streamsOf e.1 e.2, s.inRouters cn.1 cn.2 = 0) →
      ∃ t, exec .recoveryEnd s = .next t ∧ t.err.running = none ∧ t.err.queue = s.err.queue ∧ t.rowMask r = s.maskAfter r k ∧
        ∀ j, j ≠ r → t.rowMask j = s.rowMask j) ∧
    (∀ r k, ch.unit = .row r → ch.site = some k → s.movingOf r = [] → s.maskAfter r k ≠ s.rowMask r → ∃ t, exec .recoveryEnd s = .next t ∧
      t.err.running = none ∧ t.err.queue = s.err.queue ∧ t.rowMask r = s.maskAfter r k ∧ (∀ j, j ≠ r → t.rowMask j = s.rowMask j) ∧
      ∀ a, s.spareOf r = some a → ∀ off, off < coreStoreSize → t.coreStore.read (coreAddr a off) = 0)) ∧
  (∀ (glade : Fin 2048) (group : Fin 1024) (s : State) (l : Loaded) (x : Nat × Nat × Nat),
    (s.err.standby.find? fun x => x.1 = glade.val && x.2.1 = group.val) = some x → s.loaded glade = some l → s.sched.lent = [] →
    ∃ t m, exec (.standbyRelease glade group) s = .next t ∧ t.err.standby = (s.err.standby.filter fun x => !(x.1 = glade.val && x.2.1 = group.val)) ∧
      t.loaded glade = some m ∧ group.val ∈ m.gone ∧ m.img = l.img) ∧
  (∀ (glade : Fin 2048) (group : Fin 1024) (s : State) (l : Loaded) (x : Nat × Nat × Nat) (i : Nat) (p : Placed),
    (s.err.standby.find? fun x => x.1 = glade.val && x.2.1 = group.val) = some x → s.loaded glade = some l → l.placed[i]? = some p →
    p.group = group.val → p.standby = true → (s.sched.lent.find (glade.val, i)).isSome = true →
    ∃ t, exec (.standbyRelease glade group) s = .next t ∧ t.err.standby = s.err.standby ∧ t.ten = s.ten ∧
      ∀ y, t.sched.lent.find (glade.val, i) = some y → y.phase = .returning) ∧
  (∀ (site : Site) (s : State), s.siteServes site = true → max 1 (s.rd R.ERR_CTRL.CE_LIMIT) ≤ s.ceHour site → (s.siteRec site).ceHit ≠ some s.hour →
    ((s.siteRec site).state = .good → ∃ t, exec (.ceLimitReached site) s = .next t ∧ (t.siteRec site).state = .probation ∧ (t.siteRec site).samples = 0 ∧
      (t.siteRec site).probStart = s.elapsed ∧ t.err.queue = s.err.queue) ∧
    ((s.siteRec site).state = .probation → ∃ t, exec (.ceLimitReached site) s = .next t ∧ (t.siteRec site).state = .retired ∧
      ((t.mgt.flash.newest).any fun p => p.1.retired.contains site.val) = true)) ∧
  (∀ (site : Site) (s : State), (s.siteRec site).state = .probation →
    let due := (s.siteRec site).probStart + s.rd R.ERR_CTRL.PROBATION_H * (5 * 3600 * 10 ^ 9)
    ((s.siteRec site).samples < 1024 ∨ s.elapsed < due → exec (.probationEnd site) s = .next s) ∧
    (1024 ≤ (s.siteRec site).samples → due ≤ s.elapsed → ∃ t, exec (.probationEnd site) s = .next t ∧ (t.siteRec site).state = .good ∧ t.mem = s.mem))

/-- SWITCH with port B held, and LINK_TIMEOUT with AUTO_SWITCH after LINK_TMO_MS out of L0, move the active role to port B: configuration space and translations go, the move counts, and a LINK record
is written. PORT_SWITCH brings the new port to L0, raises its event, and has every ring in host memory read again; CXL_LINK_L0 brings a training or lost link to L0. LINK_RESET takes the link down and PF_FLR resets the PF's
registers; both clear configuration space, and PF_FLR begins the reset of each bound clearing. IDE_FAIL makes a secure stream insecure, with its count, event and record. -/
def Obligations.HostPortPair : Prop :=
  let switched (s t : State) := t.rd R.HST_PORT.ACTIVE = 1 ∧ t.rd R.HST_PORT.STATE_B = 2 ∧ t.rd R.HST_PORT.WIDTH = 0 ∧ t.rd R.HST_PORT.SPEED = 0 ∧
    t.rd R.HST_PORT.STATE_A = (if s.rd R.HST_PORT.STATE_A = 5 then 5 else 4) ∧ t.rd R.HST_PORT.SWITCHES = (s.rd R.HST_PORT.SWITCHES + 1) % 2 ^ 32 ∧
    t.host.cfg = {} ∧ t.host.xlat = [] ∧ t.host.switching = true ∧ t.host.waiting = s.host.waiting ∧
    (t.err.last.find 7).map (fun r => (r.cls, r.sub)) = some (0x10, 3) ∧ t.mem = s.mem ∧ t.que = s.que
  (∀ s : State, s.managed = true →
    (s.rd R.HST_PORT.STATE_B = 1 → ∃ t, exec .switch s = .next t ∧ switched s t) ∧ (s.rd R.HST_PORT.STATE_B ≠ 1 → exec .switch s = .next s)) ∧
  (∀ (s : State) (since : Nat), s.host.down = some since →
    let due := since + s.rd R.HST_CTRL.LINK_TMO_MS * 5000000
    (s.elapsed < due ∨ s.flag R.HST_CTRL.AUTO_SWITCH = false → exec .linkTimeout s = .next s) ∧
    (due ≤ s.elapsed → s.flag R.HST_CTRL.AUTO_SWITCH = true → s.rd R.HST_PORT.STATE_B = 1 → ∃ t, exec .linkTimeout s = .next t ∧ switched s t)) ∧
  (∀ (x16 gt64 : Bool) (s : State),
    let up (t : State) := t.rd s.activeField = 3 ∧ t.rd R.HST_PORT.WIDTH = (if x16 then 16 else 8) ∧ t.rd R.HST_PORT.SPEED = (if gt64 then 6 else 5) ∧
      t.host.down = none ∧ t.host.switching = false ∧ t.mem = s.mem
    (s.host.switching = true → ∃ t, exec (.portSwitch x16 gt64) s = .next t ∧ up t ∧ t.rd R.HST_EVENTS.PORT_SWITCH = 1 ∧
      t.que.queues = s.que.queues ∧ ∀ q v, s.queue q = some v → v.msgFed = false → q ∈ t.que.sweep) ∧
    (s.host.switching = false → exec (.portSwitch x16 gt64) s = .next s) ∧
    (s.host.switching = false → s.rd s.activeField = 2 ∨ s.rd s.activeField = 4 → ∃ t, exec (.cxlLinkL0 x16 gt64) s = .next t ∧ up t ∧ t.que = s.que ∧
      ((∀ w ∈ s.host.waiting, w.rx = none) → s.regsBut t [s.activeField.at_, R.HST_PORT.WIDTH.at_, R.HST_PORT.SPEED.at_]))) ∧
  (∀ s : State, s.rd s.activeField = 3 → ∃ t, exec .linkReset s = .next t ∧ t.rd s.activeField = 4 ∧ t.host.cfg = {} ∧ t.host.down.isSome = true ∧
    t.mem = s.mem ∧ s.regsBut t [s.activeField.at_, R.HST_PORT.WIDTH.at_, R.HST_PORT.SPEED.at_]) ∧
  (∀ s : State, s.configOpen = true → ∃ t, exec .pfFlr s = .next t ∧ t.host.cfg = {} ∧ t.host.doe = none ∧ t.rd R.HST_CTRL.LINK_TMO_MS = 10 ∧
    t.rd R.HST_CTRL.AUTO_SWITCH = 1 ∧ t.rd R.HST_CTRL.IDE_REQUIRED = 0 ∧ t.rd R.HST_EVENT_EN.ERROR = 1 ∧
    t.rd R.HST_PORT.SWITCHES = 0 ∧ t.rd R.HST_PORT.ACTIVE = s.rd R.HST_PORT.ACTIVE ∧
    ((∀ o, o < 1024 → s.rd R.SCH_TEN_CFG.REACH 0 o ≠ 1) → t.rd R.HST_EVENTS.ERROR = 0 ∧ t.rd R.HST_EVENTS.CMD_DONE = 0 ∧ t.mem = s.mem ∧ t.que = s.que) ∧
    ∀ o, o < 1024 → s.rd R.SCH_TEN_CFG.REACH 0 o = 1 → s.tenState o = 1 → 1 ≤ s.rd R.SCH_TEN_CFG.VF 0 o → s.vfOwner (s.rd R.SCH_TEN_CFG.VF 0 o) = some o →
      t.tenState o ≠ 1) ∧
  (∀ (cache : Bool) (s : State),
    let f := if cache then R.HST_IDE.CACHE_STATE else R.HST_IDE.IO_STATE
    (s.rd f ≠ 1 → exec (.ideFail cache) s = .next s) ∧
    (s.rd f = 1 → ∃ t, exec (.ideFail cache) s = .next t ∧ t.rd f = 2 ∧ t.rd R.HST_IDE.FAILS = min (s.rd R.HST_IDE.FAILS + 1) (2 ^ 32 - 1) ∧
      t.rd R.HST_EVENTS.IDE_FAIL = 1 ∧ (t.err.last.find s.activeDie).map (fun r => r.cls) = some 0x10 ∧ t.hostOpen = false ∧ t.mem = s.mem))

/-- HOST_READ_DATA answers the mover with the data, and poisoned data fail it with a count and a record; GLOBAL_OBSERVATION makes a write stand in host memory at its translated address and answers the mover. ATS_TRANSLATION that
grants what waits is held and lets it go out; one that denies it is a fault, answered with zeros. ATS_INVALIDATE drops its translations and is answered once no request that used them is open. SNOOP is answered RspIHitI.
IRQ_HOLDOFF_END sends a held message whose bit still stands. DOE_OBJECT holds the object and answers it, with an error while there is no identity, and a signed answer
is collected with both signatures, the SLH-DSA one in the vendor's element (its identifier by log entry 123); DOE_ABORT empties the mailbox. -/
def Obligations.HostMemoryAndMailboxes : Prop :=
  (∀ (site : Site) (id : Nat) (s : State) (r : MovReq), s.hostOpen = true → s.hostReq site id = some r → s.inFlight site r = true → (s.mover site).expects r = true →
    r.squashed = false →
    (r.write = none → ∀ (data : Vector Byte 256) (poison : Bool), ∃ t, exec (.hostReadData site id data poison) s = .next t ∧
      (t.mover site).resp = (s.mover site).resp ++ [⟨r, data.toList, poison, r.space = .woruri || r.space = .host⟩] ∧ t.mem.hbm = s.mem.hbm ∧ t.coreStore = s.coreStore ∧
      (poison = true → t.rd R.HST_POISON.COUNT = min (s.rd R.HST_POISON.COUNT + 1) (2 ^ 32 - 1) ∧
        (t.err.last.find (Unit.dieOf site)).map (fun e => (e.cls, e.sub)) = some (0x13, 2)) ∧
      (poison = false → t.err = s.err)) ∧
    (∀ b fn x, r.write = some b → s.hostFn r.owner = some fn → s.xlatOf fn r.hostPage true = some x → ∃ t, exec (.globalObservation site id) s = .next t ∧
      t.host.writes = s.host.writes ++ b.map (fun y => (x.tr * 4096 + r.line * 256 % 4096 + y.1, [y.2])) ∧
      (t.mover site).resp = (s.mover site).resp ++ [⟨r, [], false, r.space = .woruri || r.space = .host⟩] ∧ t.mem.hbm = s.mem.hbm)) ∧
  (∀ (x : Xlat) (victim : Nat) (s : State),
    (s.hostReqs = [] → s.host.waiting = [] → exec (.atsTranslation x victim) s = .next s) ∧
    (∀ w ∈ s.host.waiting, w.fn = x.fn → w.addr / 4096 = x.page → ∃ t, exec (.atsTranslation x victim) s = .next t ∧ t.mem.hbm = s.mem.hbm ∧
      (x.read = true ∨ x.write = true → x ∈ t.host.xlat) ∧ (x.write = false → w ∉ t.host.waiting)) ∧
    (∀ w, s.hostOpen = true → s.hostReqs = [] → s.host.waiting = [w] → w.fn = x.fn → w.addr / 4096 = x.page → x.write = true → s.host.xlat.length < 8192 →
      ∃ t, exec (.atsTranslation x victim) s = .next t ∧ t.host.waiting = [] ∧ x ∈ t.host.xlat ∧ (w.rx = none → t.regs = s.regs) ∧
        (∀ q : Quad, w.rx = some q.val → t.rd R.TIM_Q_RXIDX.PROD 0 q = (s.rd R.TIM_Q_RXIDX.PROD 0 q + 1) % 65536 ∧
          s.onlyRegs { t with host := s.host } [R.TIM_Q_RXIDX.PROD.at_ 0 q]) ∧
        t.host.writes = s.host.writes ++ [(x.tr * 4096 + w.addr % 4096, w.bytes)]) ∧
    (∀ site r, s.hostReqs = [(site, r)] → s.host.waiting = [] → s.hostFn r.owner = some x.fn → r.hostPage = x.page → s.inFlight site r = false →
      (s.mover site).expects r = true → r.squashed = false → x.read = false → x.write = false → ∃ t, exec (.atsTranslation x victim) s = .next t ∧
        (t.mover site).resp = (s.mover site).resp ++ [⟨r, zeroLine, false, r.space = .woruri || r.space = .host⟩] ∧
        t.rd R.HST_XLAT_FAULT.COUNT = min (s.rd R.HST_XLAT_FAULT.COUNT + 1) (2 ^ 32 - 1) ∧ ∀ y ∈ t.host.xlat, ¬ (y.fn = x.fn ∧ y.page = x.page))) ∧
  (∀ (fn : Fin 1024) (page n : Nat) (s : State), ∃ t, exec (.atsInvalidate fn page n) s = .next t ∧ t.regs = s.regs ∧ t.mem = s.mem ∧
    t.host.xlat = (s.host.xlat.filter fun x => !(x.fn = fn.val && decide (page ≤ x.page ∧ x.page < page + n))) ∧
    (s.hostReqs = [] → t.host.answers = s.host.answers ++ [.invalidated fn page n]) ∧
    (∀ site r, s.hostReqs = [(site, r)] → s.hostFn r.owner = some fn.val → page ≤ r.hostPage → r.hostPage < page + n → s.inFlight site r = true →
      t.host.answers = s.host.answers ∧ ∃ v ∈ t.host.inval, v.fn = fn.val ∧ v.open_ = [(site, r.id)])) ∧
  (∀ s : State, exec .snoop s = .next { s with host := { s.host with answers := s.host.answers ++ [.rspIHitI] } }) ∧
  (∀ (vf : Fin 1024) (v : Fin 4) (s : State) (since : Nat), s.host.lastMsg.find (vf.val, v.val) = some since → s.host.holdoff.contains (vf.val, v.val) = true →
    let due := since + s.rd R.HST_VF_IRQ_CTRL.HOLDOFF_US 0 vf * 5000
    (s.elapsed < due → exec (.irqHoldoffEnd vf v) s = .next s) ∧
    (due ≤ s.elapsed → ∃ t, exec (.irqHoldoffEnd vf v) s = .next t ∧ (vf.val, v.val) ∉ t.host.holdoff ∧ t.regs = s.regs ∧
      t.host.sent = s.host.sent ++ (if (s.rd R.HST_VF_IRQ_PEND.PEND 0 vf).testBit v then [(vf.val, v.val)] else []))) ∧
  (∀ (len : Nat) (s : State), len ≤ 65536 → s.configOpen = true →
    (∀ i, i ≤ 2 → ∃ t, exec (.doeObject ⟨len, .discovery i⟩) s = .next t ∧ t.host.doe = some ⟨len, .discovery i⟩ ∧
      t.host.answers = s.host.answers ++ [.doe (.discovery i ((i + 1) % 3))] ∧ t.regs = s.regs) ∧
    (∀ r, s.flag R.SEC_STATE.IDENTITY_READY = false → ∃ t, exec (.doeObject ⟨len, .spdm r⟩) s = .next t ∧
      t.host.answers = s.host.answers ++ [.doe (.spdm .error)] ∧ t.mgt = s.mgt) ∧
    (s.chiefRuns = true → s.flag R.SEC_STATE.IDENTITY_READY = true → s.flag R.SEC_STATE.DEBUG = false →
      (∃ t, exec (.doeObject ⟨len, .spdm .version⟩) s = .next t ∧ t.host.answers = s.host.answers ++ [.doe (.spdm (.version 1 3))]) ∧
      (∃ t, exec (.doeObject ⟨len, .spdm (.challenge 0)⟩) s = .next t ∧ t.host.answers = s.host.answers ++ [.doe (.spdm (.notReady 2))] ∧
        ∀ id, s.mgt.identity = some id → ∃ u h g, exec (.doeObject ⟨len, .spdm .respondIfReady⟩) t = .next u ∧
          u.host.answers = t.host.answers ++ [.doe (.spdm (.challengeAuth 0 g))] ∧ g.rsa = Config.rsaSign id.rsaSeed h t.freeCtr.succ ∧
          g.elem.slh = Config.slhSign id.slhSeed h t.freeCtr.succ ∧ (g.elem.registry, g.elem.vendor) = folnexVendor))) ∧
  (∀ s : State, ∃ t, exec .doeAbort s = .next t ∧ t.host.doe = none ∧ (∀ x ∈ t.mgt.spdm.deferred, x.1 ≠ .doe) ∧ t.mgt.spdm.sessions = s.mgt.spdm.sessions ∧
    t.host.answers = s.host.answers ∧ t.regs = s.regs)

/-- Each event of a stage moves its die on, or stops it at the stage where it failed: SELF_TEST_END, PUF_END, FLASH_READER_TAKEOVER, FIRMWARE_END. MANIFEST_END takes a genuine manifest
into force, and enters RECOVERY with its cause otherwise. The third ELECTION_ROUND in a row with the same candidates makes the lowest die chief; ELECTION_TIMEOUT asks for a warm reset, and after three elections that failed
in a row enters RECOVERY. IDENTITY_END derives the identity where the secret unwraps, and, the first time after power-on, advances the epoch; BRING_UP_END makes the package ready. In RECOVERY, BEGIN starts a push, APPEND and the end of its flash write move a chunk, and END of a genuine
container whose bytes the chunks brought resumes boot at stage 0x2. -/
def Obligations.BootStagesAndRecovery : Prop :=
  (∀ (d : Die) (ports : BitVec 3) (s : State), s.held = false → s.dieStage d = 0 → s.boot.failed.contains d.val = false → s.tim.lostAt = none →
    s.tim.gapAt + 5000000 ≤ s.elapsed →
    (d.val = s.boot.reader → ∃ t, exec (.selfTestEnd d true ports) s = .next t ∧ t.dieStage d = 1 ∧ t.stage = 1 ∧ t.boot = s.boot ∧ t.mem = s.mem) ∧
    (∃ t, exec (.selfTestEnd d false ports) s = .next t ∧ t.dieStage d = 0 ∧ t.boot.failed = d.val :: s.boot.failed ∧ t.mem = s.mem)) ∧
  (∀ (d : Die) (s : State), s.held = false → s.dieStage d = 1 → s.boot.failed.contains d.val = false → s.boot.off.contains d.val = false →
    (∃ t, exec (.pufEnd d false) s = .next t ∧ t.boot.failed = d.val :: s.boot.failed ∧ t.regs = s.regs) ∧
    (d.val = s.boot.reader → ∃ t, exec (.pufEnd d true) s = .next t ∧ t.dieStage d = 2 ∧ t.rd R.DIE_STATE.PUF_OK d = 1 ∧ t.stage = 2 ∧
      t.rd (if s.boot.reader = 0 then R.HST_PORT.STATE_A else R.HST_PORT.STATE_B) = 2 ∧ t.host.down = some s.elapsed ∧ d.val ∈ t.boot.puf) ∧
    (d.val ≠ s.boot.reader → ∃ t, exec (.pufEnd d true) s = .next t ∧ t.dieStage d = (if s.mgt.manifest.isSome then 3 else 2) ∧
      t.rd R.DIE_STATE.PUF_OK d = 1 ∧ t.stage = s.stage)) ∧
  (∀ s : State, s.held = false → s.boot.reader = 0 → s.stage ≤ 2 → s.boot.failed.contains 7 = false →
    (s.boot.failed.contains 0 = true ∨ (s.mgt.manifest = none ∧ s.boot.start + 5 * 20000000 ≤ s.elapsed) → ∃ t, exec .flashReaderTakeover s = .next t ∧
      t.boot.reader = 7 ∧ t.stage = s.dieStage 7 % 16 ∧ t.mem = s.mem) ∧
    (s.boot.failed.contains 0 = false → s.elapsed < s.boot.start + 5 * 20000000 → exec .flashReaderTakeover s = .next s)) ∧
  (∀ s : State, s.held = false → s.stage = 2 → s.dieStage s.boot.reader = 2 →
    (s.mgt.flash.readable = false → ∃ t, exec .manifestEnd s = .next t ∧ t.stage = 8 ∧ t.rd R.MGT_STATUS.RCV_CAUSE = 3) ∧
    (s.mgt.flash.readable = true → (s.mgt.flash.manifest.any fun m => m.genuine) = false → ∃ t, exec .manifestEnd s = .next t ∧ t.stage = 8 ∧
      t.rd R.MGT_STATUS.RCV_CAUSE = 1) ∧
    (∀ m, s.mgt.flash.readable = true → s.mgt.flash.manifest = some m → m.genuine = true → ∃ t, exec .manifestEnd s = .next t ∧ t.stage = 3 ∧
      t.mgt.manifest = some m ∧ t.boot.off = m.badDies ∧ t.mgt.flash = s.mgt.flash ∧
      ∀ d, d < 8 → d ∉ m.badDies → d ∉ s.boot.failed → s.isOut (.die d) = false → s.dieStage d = 2 → t.dieStage d = 3)) ∧
  (∀ (d : Die) (s : State), s.held = false → s.stage = 3 → s.dieStage d = 3 → s.boot.failed.contains d.val = false → s.boot.off.contains d.val = false →
    s.isOut (.die d) = false →
    (∀ f, s.mgt.flash.image = some f → f.genuine = true → s.flashFloor ≤ f.secVer → ∃ t, exec (.firmwareEnd d true) s = .next t ∧ t.dieStage d = 4 ∧
      t.rd R.DIE_STATE.CANDIDATE d = 1 ∧ t.rd R.DIE_FW.VERSION d = f.version % 2 ^ 32 ∧ t.mgt.running = some f ∧
      ((∀ e ∈ s.liveDies, e ≠ d.val → 4 ≤ s.dieStage e) → t.stage = 4 ∧ t.boot.electStart = s.elapsed)) ∧
    (∃ t, exec (.firmwareEnd d false) s = .next t ∧ d.val ∈ t.boot.failed ∧ t.dieStage d ≠ 4)) ∧
  (∀ (heard : BitVec 8) (s : State) (c : Nat), s.electing = true → s.boot.roundDue ≤ s.elapsed →
    let set_ := s.candidateSet.foldl (fun n d => if heard.toNat.testBit d then n + 2 ^ d else n) 0
    ((List.range 8).find? fun d => set_.testBit d) = some c →
    (s.boot.heard ≠ set_ → ∃ t, exec (.electionRound heard) s = .next t ∧ t.boot.heard = set_ ∧ t.boot.rounds = 1 ∧ t.regs = s.regs) ∧
    (s.boot.heard = set_ → s.boot.rounds = 2 → s.boot.lostChief = none → ∃ t, exec (.electionRound heard) s = .next t ∧ t.rd R.GLB_DIE_STATE.CHIEF = c ∧
      t.rd R.TIM_STATUS.MASTER = c ∧ t.stage = 5 ∧ t.rd R.DIE_STATE.CHIEF c = 1 ∧ t.rd R.MGT_ELECT.ROUND = (s.rd R.MGT_ELECT.ROUND + 1) % 2 ^ 16 ∧
      t.boot.electFails = 0 ∧ t.mem = s.mem) ∧
    (∀ sub, s.boot.heard = set_ → s.boot.rounds = 2 → s.boot.lostChief = some sub → c ≠ s.rd R.GLB_DIE_STATE.CHIEF →
      ∃ t, exec (.electionRound heard) s = .next t ∧ t.rd R.GLB_DIE_STATE.CHIEF = c ∧ t.rd R.TIM_STATUS.MASTER = c ∧
        t.rd R.MGT_ELECT.LOST_CHIEF = 1 ∧ t.boot.electFails = 0 ∧ t.boot.lostChief = none)) ∧
  (∀ s : State, s.electing = true →
    let limit := if s.boot.lostChief = none then 5000000 else 100000
    (s.elapsed ≤ s.boot.electStart + limit → exec .electionTimeout s = .next s) ∧
    (s.boot.electStart + limit < s.elapsed → s.boot.electFails < 2 → ∃ t, exec .electionTimeout s = .next t ∧ t.err.packageStop = true ∧
      t.boot.electFails = s.boot.electFails + 1) ∧
    (s.boot.electStart + limit < s.elapsed → 2 ≤ s.boot.electFails → ∃ t, exec .electionTimeout s = .next t ∧ t.stage = 8 ∧
      t.rd R.MGT_STATUS.RCV_CAUSE = 4 ∧ t.boot.electFails = 0)) ∧
  (∀ s : State, s.held = false → s.stage = 5 →
    let p := ((s.mgt.flash.newest).map fun x => x.1).getD {}
    ∃ t, exec .identityEnd s = .next t ∧ t.stage = 6 ∧ t.rd R.SEC_STATE.FW_FLOOR = p.fwFloor % 2 ^ 32 ∧ t.mgt.anchors = p.anchors ∧
      (t.flag R.SEC_STATE.IDENTITY_READY = true ↔ s.secretDies ≠ [] ∧ s.flag R.SEC_STATE.DEBUG = false) ∧
      (∀ m, s.mgt.manifest = some m → s.secretDies ≠ [] → s.flag R.SEC_STATE.DEBUG = false → t.mgt.identity = some (identityOf m.secret) ∧
        t.rd R.SEC_DSN.VALUE = serialOf (identityOf m.secret) % 2 ^ 64) ∧ (t.flag R.SEC_STATE.STATE_FRESH = true ↔ s.mgt.flash.newest = none) ∧
      (s.que.epochRead = false → t.que.epochRead = true ∧ t.rd R.QUE_EPOCH.EPOCH = (p.epoch + 1) % 2 ^ 32 ∧ (t.mgt.flash.newest.map fun x => x.1.epoch) = some ((p.epoch + 1) % 2 ^ 32)) ∧
      (s.que.epochRead = true → t.rd R.QUE_EPOCH.EPOCH = s.rd R.QUE_EPOCH.EPOCH ∧ t.mgt.flash = s.mgt.flash)) ∧
  (∀ (b : BringUp) (s : State) (m : Manifest), s.mgt.manifest = some m → s.held = false → s.stage = 6 → s.copiesLost = false →
    ∃ t, exec (.bringUpEnd b) s = .next t ∧ t.stage = 7 ∧ (∀ d ∈ s.liveDies, t.isOut (.die d) = true ∨ t.dieStage d = 7) ∧
      t.rd R.QUE_EPOCH.EPOCH = s.rd R.QUE_EPOCH.EPOCH) ∧
  (∀ s : State, s.inRecovery = true → s.rd R.MGT_RCV_STATUS.BUSY = 0 →
    (∀ manifest, ∃ t, exec (.begin manifest) s = .next t ∧ t.mgt.push = some { manifest := manifest } ∧ t.rd R.MGT_RCV_STATUS.OFFSET = 0 ∧
      t.rd R.MGT_RCV_STATUS.RESULT = 0 ∧ t.mgt.flash = s.mgt.flash) ∧
    (∀ p, s.mgt.push = some p →
      (∀ len : BitVec 16, 1 ≤ len.toNat → len.toNat ≤ 32768 → p.done + len.toNat ≤ (if p.manifest then 65536 else 33550336) →
        ∃ t, exec (.append len) s = .next t ∧ t.rd R.MGT_RCV_STATUS.BUSY = 1 ∧ t.mgt.job = some (.chunk p.manifest len.toNat) ∧
          (if p.manifest then t.mgt.flash.manifest = none else t.mgt.flash.image = none) ∧
          ∀ ok, ∃ u, exec (.flashWriteEnd ok) t = .next u ∧ u.rd R.MGT_RCV_STATUS.BUSY = 0 ∧ u.mgt.push.map (fun q => q.done) = some (p.done + len.toNat) ∧
            u.mgt.push.map (fun q => q.bytes) = some (p.bytes ++ Mem.readBytes s.mgt.rcvData 0 len.toNat) ∧
            u.rd R.MGT_RCV_STATUS.OFFSET = (s.rd R.MGT_RCV_STATUS.OFFSET + len.toNat) % 2 ^ 32) ∧
      (∀ f, p.manifest = false → p.passed = false → 0 < p.done → f.genuine = true → f.bytes.isPrefixOf p.bytes = true → s.flashFloor ≤ f.secVer →
        ∃ t, exec (.end_ { image := some f }) s = .next t ∧ t.stage = 2 ∧ t.mgt.flash.image = some f ∧ t.mgt.push = none ∧
          t.rd R.MGT_STATUS.RCV_CAUSE = 0 ∧ t.rd R.MGT_RCV_STATUS.RESULT = 0) ∧
      (p.manifest = false → ∃ t, exec (.end_ {}) s = .next t ∧ t.stage = 8 ∧ t.rd R.MGT_RCV_STATUS.RESULT = 3 ∧ t.mgt.push = none ∧
        t.mgt.flash = s.mgt.flash)))

/-- While a chief runs Mewait, the link is open and the mailbox is idle: FW_STAGE of a genuine image stages it; FW_COMMIT empties the image region and begins its write; FW_FLOOR, KEY_SET, KEY_CLEAR, KEY_FLOOR and ANCHOR_SET
begin to write the persistent state with their change, and the change is in force when FLASH_WRITE_END finds the write good; one that is not verified ends the command Failed and changes nothing that runs. Under LOCK a
key or anchor command is refused with cause 0x0B. DEBUG_UNLOCK by a genuine record of this device and nonce opens debug and erases the identity; every attempt, and NONCE_READ, makes a fresh nonce. -/
def Obligations.MailboxCommands : Prop :=
  (∀ s : State, s.chiefRuns = true → s.answers = true → s.rd R.MGT_MBX_STATUS.BUSY = 0 →
    let n := s.mbxArg 0
    let refused (c : Instr) (cause : Nat) := ∃ t, exec c s = .next t ∧ t.rd R.MGT_MBX_STATUS.STATUS = 5 ∧ t.rd R.MGT_MBX_STATUS.CAUSE = cause ∧
      t.rd R.MGT_MBX_STATUS.BUSY = 0 ∧ t.mgt.slots = s.mgt.slots ∧ t.mgt.anchors = s.mgt.anchors ∧ t.mgt.flash = s.mgt.flash ∧ t.mgt.staged = s.mgt.staged ∧
      t.rd R.MGT_MBX_STATUS.CMD_SEQ = (s.rd R.MGT_MBX_STATUS.CMD_SEQ + 1) % 2 ^ 16
    let writes (c : Instr) (op : Nat) (f : Persist → Prop) := ∃ t p, exec c s = .next t ∧ t.rd R.MGT_MBX_STATUS.BUSY = 1 ∧
      t.mgt.job = some (.persist op p) ∧ f p ∧ t.mgt.slots = s.mgt.slots ∧ t.mgt.anchors = s.mgt.anchors ∧ t.mgt.flash = s.mgt.flash.put none ∧
      t.rd R.MGT_MBX_STATUS.CMD_SEQ = (s.rd R.MGT_MBX_STATUS.CMD_SEQ + 1) % 2 ^ 16
    (∀ img, n % 4096 = 0 → 8496 ≤ s.mbxArg 1 → s.mbxArg 1 ≤ 33550336 → img.bytes.length + 8240 ≤ s.mbxArg 1 →
      (img.genuine = true → s.rd R.SEC_STATE.FW_FLOOR ≤ img.secVer → ∃ t, exec (.fwStage img) s = .next t ∧ t.mgt.staged = some img ∧
        t.rd R.MGT_MBX_STATUS.STATUS = 0 ∧ t.rd R.MGT_MBX_STATUS.BUSY = 0 ∧ t.mgt.flash = s.mgt.flash) ∧
      (img.genuine = false → refused (.fwStage img) 0x0E) ∧ (img.genuine = true → img.secVer < s.rd R.SEC_STATE.FW_FLOOR → refused (.fwStage img) 0x0F)) ∧
    (∀ f, s.mgt.staged = some f → ∃ t, exec .fwCommit s = .next t ∧ t.rd R.MGT_MBX_STATUS.BUSY = 1 ∧ t.mgt.job = some (.image f) ∧ t.mgt.flash.image = none ∧
      ∃ u, exec (.flashWriteEnd true) t = .next u ∧ u.mgt.flash.image = some f ∧ u.rd R.MGT_MBX_STATUS.BUSY = 0 ∧ u.rd R.MGT_MBX_STATUS.STATUS = 0) ∧
    (s.mgt.staged = none → refused .fwCommit 0x0D) ∧
    (n < 2 ^ 32 → s.rd R.SEC_STATE.FW_FLOOR ≤ n → n ≤ ((s.mgt.flash.image).map fun f => f.secVer).getD 0 → writes .fwFloor 3 fun p => p.fwFloor = n) ∧
    (n < s.rd R.SEC_STATE.FW_FLOOR → n < 2 ^ 32 → refused .fwFloor 0x0F) ∧
    (1 ≤ n → n ≤ 7 → s.mbxArg 2 < 2 ^ 32 → s.flag R.SEC_CTRL.LOCK = false → s.ten.load = none →
      (∀ key, writes (.keySet key) 4 fun p => p.slots.find n = some { key := keyIdOf key.toList, floor := s.mbxArg 2 }) ∧
      (∀ k, s.mgt.slots.find n = some k →
        (writes .keyClear 5 fun p => p.slots.find n = none) ∧
        (k.floor ≤ s.mbxArg 2 → writes .keyFloor 6 fun p => p.slots.find n = some { k with floor := s.mbxArg 2 })) ∧
      (s.mgt.slots.find n = none → refused .keyClear 0x10)) ∧
    (1 ≤ n → n ≤ 7 → s.mbxArg 2 < 2 ^ 32 → s.flag R.SEC_CTRL.LOCK = true → (∀ key, refused (.keySet key) 0x0B) ∧ refused .keyClear 0x0B ∧
      refused .keyFloor 0x0B) ∧
    (∀ cert, n ≤ 3 → s.mbxArg 2 ≤ 2048 → (s.flag R.SEC_CTRL.LOCK = true → refused (.anchorSet cert) 0x0B) ∧
      (s.flag R.SEC_CTRL.LOCK = false → writes (.anchorSet cert) 7 fun p =>
        p.anchors.find n = if s.mbxArg 2 = 0 then none else some (cert.take (s.mbxArg 2)))) ∧
    (∀ r : UnlockRec,
      let fresh (t : State) := t.rd R.SEC_NONCE.VALUE = (Config.nonce s.freeCtr).toNat ∧ t.freeCtr = s.freeCtr + 1
      (r.genuine = true → (∀ o, o < 1024 → s.tenState o = 0) → r.serial.toNat = s.rd R.SEC_DSN.VALUE → r.nonce.toNat = s.rd R.SEC_NONCE.VALUE →
        ∃ t, exec (.debugUnlock r) s = .next t ∧ t.rd R.SEC_STATE.DEBUG = 1 ∧ t.rd R.SEC_STATE.IDENTITY_READY = 0 ∧ t.mgt.identity = none ∧
          t.rd R.MGT_MBX_STATUS.STATUS = 0 ∧ fresh t) ∧
      (r.genuine = false → refused (.debugUnlock r) 0x0E ∧ ∃ t, exec (.debugUnlock r) s = .next t ∧ fresh t ∧
        t.rd R.SEC_STATE.DEBUG = s.rd R.SEC_STATE.DEBUG))) ∧
  (∀ (s : State) (op : Nat) (p : Persist), s.mgt.job = some (.persist op p) →
    (∃ t, exec (.flashWriteEnd true) s = .next t ∧ t.mgt.flash = s.mgt.flash.put (some p) ∧ (∀ n, n ≠ 0 → t.mgt.slots.find n = p.slots.find n) ∧
      t.mgt.anchors = p.anchors ∧ t.rd R.SEC_STATE.FW_FLOOR = p.fwFloor % 2 ^ 32 ∧ t.rd R.MGT_MBX_STATUS.BUSY = 0 ∧ t.rd R.MGT_MBX_STATUS.STATUS = 0 ∧ t.mgt.job = none) ∧
    (∃ t, exec (.flashWriteEnd false) s = .next t ∧ t.mgt.flash = s.mgt.flash ∧ t.mgt.slots = s.mgt.slots ∧ t.mgt.anchors = s.mgt.anchors ∧
      t.rd R.MGT_MBX_STATUS.BUSY = 0 ∧ t.rd R.MGT_MBX_STATUS.STATUS = 3 ∧ t.mgt.job = none)) ∧
  (∀ s : State, s.managed = true → ∃ t, exec .nonceRead s = .next t ∧ t.rd R.SEC_NONCE.VALUE = (Config.nonce s.freeCtr).toNat ∧
    t.freeCtr = s.freeCtr + 1 ∧ s.regsBut t [R.SEC_NONCE.VALUE.at_])

/-- While the I3C target runs, ENTDAA and SETDASA give it an address when it has none, RSTDAA takes it, GETSTATUS and SET_ENDPOINT_ID are answered, and MCTP_MESSAGE answers control messages and a sensor's
reading. The JTAG instructions select their registers; EXTEST, CLAMP and HIGHZ act on the pins only while the package is held in reset; TAP_RESET returns the port to IDCODE. None of them changes a byte of memory, and a JTAG instruction
changes nothing but the port. -/
def Obligations.ManagementPorts : Prop :=
  (∀ (addr static_ : BitVec 7) (eid : BitVec 8) (s : State), s.i3cRuns = true →
    (s.rd R.MGT_I3C.DYN_ADDR = 0 → ∃ t, exec (.entdaa addr) s = .next t ∧ t.rd R.MGT_I3C.DYN_ADDR = addr.toNat ∧ s.onlyRegs t [R.MGT_I3C.DYN_ADDR.at_]) ∧
    (∀ m, s.rd R.MGT_I3C.DYN_ADDR = 0 → s.mgt.manifest = some m →
      (m.i3cStatic = static_.toNat → ∃ t, exec (.setdasa static_ addr) s = .next t ∧ t.rd R.MGT_I3C.DYN_ADDR = addr.toNat ∧
        s.onlyRegs t [R.MGT_I3C.DYN_ADDR.at_]) ∧
      (m.i3cStatic ≠ static_.toNat → exec (.setdasa static_ addr) s = .next s)) ∧
    (∃ t, exec .rstdaa s = .next t ∧ t.rd R.MGT_I3C.DYN_ADDR = 0 ∧ s.onlyRegs t [R.MGT_I3C.DYN_ADDR.at_]) ∧
    (∃ t n, exec .getstatus s = .next t ∧ t.mgt.answers = s.mgt.answers ++ [.i3cStatus n] ∧ t.regs = s.regs ∧ t.mem = s.mem) ∧
    (∃ t, exec (.setEndpointId eid) s = .next t ∧ t.rd R.MGT_I3C.EID = eid.toNat ∧ t.mgt.answers = s.mgt.answers ++ [.control 1] ∧
      s.regsBut t [R.MGT_I3C.EID.at_] ∧ t.mem = s.mem) ∧
    (∀ op, ∃ t, exec (.mctpMessage (.control op)) s = .next t ∧ t.mgt.answers = s.mgt.answers ++ [.control op] ∧ t.regs = s.regs) ∧
    (∀ d, d < 8 → ∃ t st, exec (.mctpMessage (.pldm 2 (some (d + 1)))) s = .next t ∧
      t.mgt.answers = s.mgt.answers ++ [.reading (d + 1) (s.rd R.DIE_THERM_DC.DIE_C d) st] ∧
      (95 ≤ s.rd R.DIE_THERM_DC.DIE_C d ↔ st = 3) ∧ t.regs = s.regs)) ∧
  (∀ s : State, s.i3cRuns = false → ∀ m, exec (.mctpMessage m) s = .next s) ∧
  (∀ (pins : Nat) (s : State),
    let jtag (i : JtagInstr) (driven : Option Nat) (floating : Bool) (b : Nat) : State := { s with jtag := ⟨i, b, driven, floating⟩ }
    let b := s.jtag.boundary
    exec .idcode s = .next (jtag .idcode none false b) ∧ (jtag .idcode none false b).jtagData = 0x15A819A7 ∧
    exec .bypass s = .next (jtag .bypass none false b) ∧ exec (.samplePreload pins) s = .next (jtag .samplePreload none false pins) ∧
    exec .tapReset s = .next (jtag .idcode none false b) ∧
    (s.held = true → exec .extest s = .next (jtag .extest (some b) false b) ∧ exec .clamp s = .next (jtag .clamp (some b) false b) ∧
      exec .highz s = .next (jtag .highz none true b)) ∧
    (s.held = false → exec .extest s = .next s ∧ exec .clamp s = .next s ∧ exec .highz s = .next s))

/-- POWER_ON_RESET and THERMTRIP leave the flash alone; POR_RELEASE and WARM_RESET_RELEASE begin boot. WARM_RESET by its pin, or after a containment at level 5, keeps the time counter, HBM, extents, clearings and epoch, and no clearing then
holds an image. RAIL_OUT_OF_RANGE and RAIL_IN_RANGE set the rail's state and reading, and a quadrant's rail contains its quadrant. HBM_LOST leaves every byte of the stacks it feeds 0. THERMAL_SAMPLE, once due, moves each K by one step by the
rule of R559, down for power above the limit, and each GLADE_K down from 93 °C on, and notes since when each sensor is at 95 °C or more; THERMAL_CONTAINMENT 1 ms later contains the unit. PLL_LOCK_LOSS 1 ms after the loss of REF_CLK contains every die in service. -/
def Obligations.ResetsRailsAndHeat : Prop :=
  (∀ (s : State) (d : Die),
    (∃ t, exec .powerOnReset s = .next t ∧ t.boot.phase = .por ∧ t.regs = State.reset.regs ∧ t.mem = State.reset.mem ∧ t.coreStore = [] ∧ t.count = 0 ∧
      t.mgt.flash = s.mgt.flash ∧ t.pending = s.pending ∧ t.que = State.reset.que) ∧
    (∃ t, exec (.thermtrip d) s = .next t ∧ t.boot.phase = .tripped ∧ t.pow.trip = true ∧ t.held = true ∧ t.mgt.flash = s.mgt.flash ∧ t.regs = State.reset.regs) ∧
    (s.boot.phase = .por → ∃ t, exec .porRelease s = .next t ∧ t.held = false ∧ t.boot.start = s.elapsed ∧ t.boot.warm = false ∧ t = { s with boot := t.boot }) ∧
    (s.boot.phase ≠ .por → exec .porRelease s = .next s) ∧
    (s.boot.phase = .warm → ∃ t, exec .warmResetRelease s = .next t ∧ t.held = false ∧ t.boot.warm = s.boot.warm ∧ t = { s with boot := t.boot }) ∧
    (s.boot.phase ≠ .warm → exec .warmResetRelease s = .next s)) ∧
  (∀ (pin : Bool) (lost : BitVec 8) (s : State), s.boot.phase = .stages →
    (pin = false → s.err.packageStop = false → exec (.warmReset pin lost) s = .next s) ∧
    (pin = true ∨ s.err.packageStop = true → ∃ t, exec (.warmReset pin lost) s = .next t ∧ t.boot.phase = (if pin then .warm else .stages) ∧ t.count = s.count ∧
      t.boot.warm = true ∧ t.coreStore = [] ∧ t.clusterStore = [] ∧ t.mem.extents = s.mem.extents ∧ t.ten.images = [] ∧ t.sched.ctxs = [] ∧ t.mgt.flash = s.mgt.flash ∧
      t.rd R.GLB_PWR_RESET.CAUSE = (if pin then 1 else 2) ∧ t.rd R.QUE_EPOCH.EPOCH = s.rd R.QUE_EPOCH.EPOCH ∧
      (∀ o, t.tenState o = s.tenState o ∧ t.holdsImage o = false) ∧ (s.mem.wb = [] → s.mem.lc = [] → s.que.queues = [] → t.mem.hbm = s.mem.hbm))) ∧
  (∀ (d : Die) (r : Fin 16) (mv : BitVec 13) (da : BitVec 16) (s : State), hasRail d r = true →
    let reads (t : State) (st : Nat) := t.rd R.DIE_RAIL.STATE d r = st ∧ t.rd R.DIE_RAIL.MV d r = mv.toNat ∧ t.rd R.DIE_RAIL.DA d r = da.toNat
    let keys := [R.DIE_RAIL.STATE.at_ d r, R.DIE_RAIL.MV.at_ d r, R.DIE_RAIL.DA.at_ d r]
    (s.held = false → s.rd R.DIE_RAIL.STATE d r ≠ 2 →
      (r.val = 15 → ∃ t, exec (.railOutOfRange d r mv da) s = .next t ∧ reads t 2 ∧ s.onlyRegs t keys) ∧
      (r.val ≠ 13 → s.stage ≠ 7 → ∃ t, exec (.railOutOfRange d r mv da) s = .next t ∧ reads t 2 ∧ s.onlyRegs t keys) ∧
      (r.val < 4 → s.stage = 7 → s.isOut (.quadrant (4 * d.val + r.val)) = false → s.chainAt (.quadrant (4 * d.val + r.val)) = none →
        s.err.queue.length < 256 → s.ten.load = none →
        ∃ t, exec (.railOutOfRange d r mv da) s = .next t ∧ reads t 2 ∧ t.isOut (.quadrant (4 * d.val + r.val)) = true) ∧
      (∃ t, exec (.railOutOfRange d r mv da) s = .next t ∧ t.rd R.DIE_RAIL.STATE d r = 2 ∧ t.mem.hbm = s.mem.hbm)) ∧
    (∃ t, exec (.railInRange d r mv da) s = .next t ∧ reads t 1 ∧ (r.val ≠ 13 → s.regsBut t keys) ∧
      (∀ k, k ∉ keys → k.reg ≠ .ZIU_PORT_STATE → t.regs.find k = s.regs.find k) ∧ (r.val = 13 → ∀ x ∈ t.ziu.railOut, x.1 ≠ d.val) ∧ t.err = s.err)) ∧
  (∀ (d : Die) (s : State), s.flag R.HBM_STATE.SELF_REFRESH (2 * d.val) = true → ∃ t, exec (.hbmLost d 0) s = .next t ∧ t.rd R.GLB_PWR_RESET.HBM_LOST = 1 ∧
    2 * d.val ∈ t.boot.lostStacks ∧ (∀ a, 2 * d.val * 2 ^ 36 ≤ a → a < (2 * d.val + 1) * 2 ^ 36 → t.mem.hbm.read a = 0) ∧
    (∀ a, a < 2 * d.val * 2 ^ 36 ∨ (2 * d.val + 1) * 2 ^ 36 ≤ a → t.mem.hbm.read a = s.mem.hbm.read a)) ∧
  (∀ (d : Die) (r : Fin 4) (k : Nat) (s : State),
    (k = 2 * d.val ∧ r.val ≠ 1) ∨ (k = 2 * d.val + 1 ∧ r.val ≠ 0) → s.flag R.HBM_STATE.SELF_REFRESH k = true →
    ∃ t, exec (.hbmLost d r) s = .next t ∧ t.rd R.GLB_PWR_RESET.HBM_LOST = 1 ∧ k ∈ t.boot.lostStacks ∧
      (∀ a, k * 2 ^ 36 ≤ a → a < (k + 1) * 2 ^ 36 → t.mem.hbm.read a = 0) ∧
      ∀ a, a < 2 * d.val * 2 ^ 36 ∨ (2 * d.val + 2) * 2 ^ 36 ≤ a → t.mem.hbm.read a = s.mem.hbm.read a) ∧
  (∀ (x : ThermalSample) (s : State), s.held = false → s.pow.due ≤ s.elapsed → ∃ t, exec (.thermalSample x) s = .next t ∧ t.rd R.GLB_PWR_STATUS.POWER_W = x.power.toNat ∧
    (t.rd R.GLB_PWR_STATUS.CAPPED = 1 ↔ s.rd R.GLB_PWR_CTRL.PWR_LIMIT_W < x.power.toNat) ∧ t.mem = s.mem ∧ t.err = s.err ∧
    (∀ y ∈ sensors, (95 ≤ x.read_ y → s.pow.hot.find y = none → t.pow.hot.find y = some s.elapsed) ∧ (x.read_ y < 95 → t.pow.hot.find y = none)) ∧
    ∀ q : Fin 32,
      let k := s.rd R.DIE_THERM.K (q.val / 4) (q.val % 4)
      let thr := s.rd R.GLB_PWR_CTRL.THROTTLE_C
      let temp := x.read_ (.quadrant q)
      8 ≤ k → k ≤ 16 → t.rd R.DIE_THERM.TEMP (q.val / 4) (q.val % 4) = temp ∧
        t.rd R.DIE_THERM.K (q.val / 4) (q.val % 4) = (if s.rd R.GLB_PWR_CTRL.PWR_LIMIT_W < x.power.toNat ∨ thr ≤ temp then max 8 (k - 1)
          else if temp ≤ thr - 3 then min 16 (k + 1) else k) ∧
        let g := s.rd R.DIE_THERM.GLADE_K (q.val / 4) (q.val % 4)
        (g ≤ 16 → t.rd R.DIE_THERM.GLADE_K (q.val / 4) (q.val % 4) =
          (if 93 ≤ temp then max 8 (g - 1) else if temp ≤ thr - 3 then min 16 (g + 1) else g))) ∧
  (∀ (q : Fin 32) (s : State) (since : Nat), s.pow.hot.find (.quadrant q) = some since →
    (s.elapsed < since + 5000000 → exec (.thermalContainment (.quadrant q)) s = .next s) ∧
    (since + 5000000 ≤ s.elapsed → s.isOut (.quadrant q) = false → s.chainAt (.quadrant q) = none → s.err.queue.length < 256 → s.ten.load = none →
      ∃ t, exec (.thermalContainment (.quadrant q)) s = .next t ∧ t.isOut (.quadrant q) = true ∧ t.pow.hot.find (.quadrant q) = none)) ∧
  (∀ (y : Sensor) (d : Die) (s : State) (since : Nat), (y = .common d ∨ ∃ k : Stack, y = .stack k ∧ k.val / 2 = d.val) → s.pow.hot.find y = some since →
    since + 5000000 ≤ s.elapsed → s.isOut (.die d) = false → s.chainAt (.die d) = none → s.err.queue.length < 256 → s.ten.load = none →
    d.val ≠ s.rd R.GLB_DIE_STATE.CHIEF →
    ∃ t, exec (.thermalContainment y) s = .next t ∧ t.isOut (.die d) = true ∧ t.pow.hot.find y = none) ∧
  (∀ (s : State) (since : Nat), s.tim.lostAt = some since →
    (s.elapsed < since + 5000000 → exec .pllLockLoss s = .next s) ∧
    (since + 5000000 ≤ s.elapsed → s.held = false → s.stage ≠ 0 → s.err.queue = [] → s.err.running = none → s.ten.load = none →
      ∃ t, exec .pllLockLoss s = .next t ∧ ∀ d, d < 8 → s.dieUp d = true → t.isOut (.die d) = true))
end

