-- ==== Sys2Proof/Laws/Mem.lean ====
section
/-!
SUPPORT. Laws of byte memories: read after write, and that every operation keeps the canonical form.
-/
namespace Sys2Proof.Mem

/-- Below the first listed address nothing is listed. -/
theorem read_above {a : Nat} (m : Mem) (hw : wf m = true) (h : above a m = true) : ∀ b, b ≤ a → read m b = 0 := by
  induction m with
  | nil => intro b _; rfl
  | cons e r ih =>
    obtain ⟨k, v⟩ := e
    simp only [above, decide_eq_true_eq] at h
    simp only [wf, Bool.and_eq_true] at hw
    intro b hb
    have hk : k ≠ b := by omega
    simp only [read, hk, if_false]
    refine ih hw.2 ?_ b hb
    have := hw.1.1
    cases r with
    | nil => rfl
    | cons e' _ => obtain ⟨k', v'⟩ := e'; simp only [above, decide_eq_true_eq] at this ⊢; omega

/-- A read after a write: the byte written at its address, what was there at every other. -/
theorem read_write (m : Mem) (hw : wf m = true) (a b : Nat) (v : Byte) : read (write m a v) b = if a = b then v else read m b := by
  induction m with
  | nil => by_cases hv : v = 0#8 <;> by_cases h : a = b <;> simp [write, read, hv, h]
  | cons e r ih =>
    obtain ⟨k, w⟩ := e
    have hw' := hw
    simp only [wf, Bool.and_eq_true] at hw
    by_cases h1 : a < k
    · have hz : read ((k, w) :: r) a = 0 := read_above (a := a) _ hw' (by simp [above, h1]) a (Nat.le_refl a)
      by_cases hv : v = 0#8
      · by_cases h : a = b
        · subst h; simp only [write, h1, hv, if_true]; exact hz
        · simp [write, h1, hv, h]
      · have e : write ((k, w) :: r) a v = (a, v) :: (k, w) :: r := by
          simp only [write, h1, if_true]; exact if_neg hv
        rw [e]; by_cases h : a = b <;> simp [read, h]
    · by_cases h2 : k = a
      · subst h2
        have hz : read r k = 0 := read_above (a := k) r hw.2 hw.1.1 k (Nat.le_refl k)
        by_cases hv : v = 0#8
        · by_cases h : k = b
          · subst h; simp [write, hv, hz]
          · simp [write, hv, h, read]
        · by_cases h : k = b <;> simp [write, hv, read, h]
      · have e : write ((k, w) :: r) a v = (k, w) :: write r a v := by simp only [write, h1, h2, if_false]
        rw [e]
        by_cases h3 : k = b
        · subst h3; have h4 : ¬a = k := fun e => h2 e.symm
          simp [read, h4]
        · simp [read, h3, ih hw.2]

theorem above_write {c : Nat} (m : Mem) (a : Nat) (v : Byte) (ha : c < a) (h : above c m = true) (hw : wf m = true) :
    above c (write m a v) = true := by
  cases m with
  | nil => by_cases hv : v = 0#8 <;> simp [write, hv, above, ha]
  | cons e r =>
    obtain ⟨k, w⟩ := e
    simp only [above, decide_eq_true_eq] at h
    by_cases h1 : a < k
    · by_cases hv : v = 0#8 <;> simp [write, h1, hv, above, ha, h]
    · by_cases h2 : k = a
      · by_cases hv : v = 0#8
        · subst h2
          simp only [write, hv, Nat.lt_irrefl, if_true, if_false]
          simp only [wf, Bool.and_eq_true] at hw
          have := hw.1.1
          cases r with
          | nil => rfl
          | cons e' _ => obtain ⟨k', v'⟩ := e'; simp [above] at this ⊢; omega
        · simp [write, h2, hv, above, ha]
      · simp [write, h1, h2, above, h]

/-- A write keeps the canonical form. -/
theorem wf_write (m : Mem) (a : Nat) (v : Byte) (hw : wf m = true) : wf (write m a v) = true := by
  induction m with
  | nil => by_cases hv : v = 0#8 <;> simp [write, hv, wf, above]
  | cons e r ih =>
    obtain ⟨k, w⟩ := e
    have hw' := hw
    simp only [wf, Bool.and_eq_true] at hw
    by_cases h1 : a < k
    · by_cases hv : v = 0#8
      · simp [write, h1, hv, hw']
      · have e : write ((k, w) :: r) a v = (a, v) :: (k, w) :: r := by
          simp only [write, h1, if_true]; exact if_neg hv
        rw [e]; simp only [wf, above, h1, decide_true, Bool.true_and, Bool.and_eq_true]
        exact ⟨by simpa using hv, hw⟩
    · by_cases h2 : k = a
      · by_cases hv : v = 0#8
        · simp [write, h2, hv, hw.2]
        · subst h2
          have e : write ((k, w) :: r) k v = (k, v) :: r := by
            simp only [write, Nat.lt_irrefl, if_true, if_false]; exact if_neg hv
          rw [e]; simp [wf, hw.1.1, hw.2, hv]
      · simp only [write, h1, h2, if_false, wf, Bool.and_eq_true]
        exact ⟨⟨above_write r a v (by omega) hw.1.1 hw.2, hw.1.2⟩, ih hw.2⟩

theorem wf_writeN (n : Nat) : ∀ (m : Mem) (a v : Nat), wf m = true → wf (writeN m a n v) = true := by
  induction n with
  | zero => intro m a v h; exact h
  | succ n ih => intro m a v h; exact ih _ _ _ (wf_write m a _ h)

theorem wf_writeBytes (bs : List Byte) : ∀ (m : Mem) (a : Nat), wf m = true → wf (writeBytes m a bs) = true := by
  induction bs with
  | nil => intro m a h; exact h
  | cons b r ih => intro m a h; exact ih _ _ (wf_write m a b h)

theorem above_filter {c : Nat} (p : Host.Cell → Bool) (m : Mem) (h : above c m = true) (hw : wf m = true) :
    above c (m.filter p) = true := by
  induction m with
  | nil => rfl
  | cons e r ih =>
    obtain ⟨k, v⟩ := e
    simp only [above, decide_eq_true_eq] at h
    simp only [wf, Bool.and_eq_true] at hw
    by_cases hp : p (k, v)
    · simp [List.filter, hp, above, h]
    · have : above c r = true := by
        have := hw.1.1
        cases r with
        | nil => rfl
        | cons e' _ => obtain ⟨k', v'⟩ := e'; simp only [above, decide_eq_true_eq] at this ⊢; omega
      simpa [List.filter, hp] using ih this hw.2

/-- What is left of a memory in canonical form is in canonical form. -/
theorem wf_filter (p : Host.Cell → Bool) (m : Mem) (hw : wf m = true) : wf (m.filter p) = true := by
  induction m with
  | nil => rfl
  | cons e r ih =>
    obtain ⟨k, v⟩ := e
    simp only [wf, Bool.and_eq_true] at hw
    by_cases hp : p (k, v)
    · simp only [List.filter, hp, wf, Bool.and_eq_true]
      exact ⟨⟨above_filter p r hw.1.1 hw.2, hw.1.2⟩, ih hw.2⟩
    · simpa [List.filter, hp] using ih hw.2

theorem wf_zero (m : Mem) (a n : Nat) (hw : wf m = true) : wf (zero m a n) = true := wf_filter _ m hw

/-- A fold whose every step keeps the canonical form keeps it. -/
theorem wf_foldl {α : Type} (f : Mem → α → Mem) (hf : ∀ m x, wf m = true → wf (f m x) = true) (l : List α) :
    ∀ m : Mem, wf m = true → wf (l.foldl f m) = true := by
  induction l with
  | nil => intro m h; exact h
  | cons x r ih => intro m h; exact ih _ (hf m x h)

end Sys2Proof.Mem
end

