-- ==== Sys2Proof/Laws/Tab.lean ====
section
/-!
SUPPORT. Laws of tables: what a lookup finds after each update.
-/
namespace Sys2Proof.Tab

variable {κ ν : Type} [DecidableEq κ]

@[simp] theorem find_nil (k : κ) : find ([] : Tab κ ν) k = none := rfl

theorem find_cons (k k' : κ) (v : ν) (r : Tab κ ν) : find ((k', v) :: r) k = if k' = k then some v else find r k := rfl

/-- A lookup after an entry is set: the entry at its key, what was there at every other. -/
theorem find_put (t : Tab κ ν) (k k' : κ) (v : ν) : (t.put k v).find k' = if k = k' then some v else t.find k' := by
  induction t with
  | nil => simp [put, find]
  | cons e r ih =>
    obtain ⟨q, w⟩ := e
    by_cases h : q = k
    · subst h; by_cases h' : q = k' <;> simp [put, find, h']
    · by_cases h' : q = k'
      · subst h'; have h2 : ¬k = q := fun e => h e.symm
        simp [put, find, h, h2]
      · simp [put, find, h, h', ih]

@[simp] theorem find_put_self (t : Tab κ ν) (k : κ) (v : ν) : (t.put k v).find k = some v := by simp [find_put]

theorem find_put_ne (t : Tab κ ν) {k k' : κ} (v : ν) (h : k ≠ k') : (t.put k v).find k' = t.find k' := by
  simp [find_put, h]

/-- A lookup after the entries of a key are taken away. -/
theorem find_del (t : Tab κ ν) (k k' : κ) : (t.del k).find k' = if k = k' then none else t.find k' := by
  induction t with
  | nil => simp [del]
  | cons e r ih =>
    obtain ⟨q, w⟩ := e
    by_cases h : q = k
    · subst h
      by_cases h' : q = k'
      · subst h'; simpa [del] using ih
      · simp only [del, if_true, ih, h', find, if_false]
    · by_cases h' : q = k'
      · subst h'; have h2 : ¬k = q := fun e => h e.symm
        simp [del, h, find, h2]
      · simp [del, h, find, h', ih]

@[simp] theorem find_del_self (t : Tab κ ν) (k : κ) : (t.del k).find k = none := by simp [find_del]

theorem findD_put (t : Tab κ ν) (k k' : κ) (v d : ν) : (t.put k v).findD k' d = if k = k' then v else t.findD k' d := by
  unfold findD; rw [find_put]; split <;> rfl

@[simp] theorem findD_put_self (t : Tab κ ν) (k : κ) (v d : ν) : (t.put k v).findD k d = v := by simp [findD_put]

theorem findD_put_ne (t : Tab κ ν) {k k' : κ} (v d : ν) (h : k ≠ k') : (t.put k v).findD k' d = t.findD k' d := by
  simp [findD_put, h]

end Sys2Proof.Tab
end

