-- ==== Sys2Proof/Laws/State.lean ====
section
/-!
SUPPORT. Laws of the shared register operations: what reading a field gives after a write of a field, and that writing a register
field leaves every other part of the state.
-/
namespace Sys2Proof.Machine

/-- A write of a field leaves the fields of every other key. -/
theorem find_wr (s : State) (f : Fld) (v u i : Nat) (k : FKey) :
    (s.wr f v u i).regs.find k = if (⟨f.reg, f.lo, u, i⟩ : FKey) = k then some (v % 2 ^ f.w) else s.regs.find k :=
  Tab.find_put _ _ _ _

/-- A field reads as it was written, cut to its width. -/
@[simp] theorem rd_wr_self (s : State) (f : Fld) (v u i : Nat) : (s.wr f v u i).rd f u i = v % 2 ^ f.w := by
  simp [State.rd, State.wr]

/-- A write of a field leaves what any field of another key reads as. -/
theorem rd_wr_ne (s : State) (f g : Fld) (v u i u' i' : Nat)
    (h : (⟨f.reg, f.lo, u, i⟩ : FKey) ≠ ⟨g.reg, g.lo, u', i'⟩) : (s.wr f v u i).rd g u' i' = s.rd g u' i' := by
  simp only [State.rd, State.wr]; exact Tab.findD_put_ne _ _ _ h

/-- What a field reads as rests on the register table alone. -/
theorem rd_congr {s t : State} (h : t.regs = s.regs) (f : Fld) (u i : Nat) : t.rd f u i = s.rd f u i := by
  simp only [State.rd, h]

theorem set1_eq (s : State) (f : Fld) (u i : Nat) : s.set1 f u i = s.wr f 1 u i := rfl
theorem tick_eq (s : State) (f : Fld) (u i : Nat) : s.tick f u i = s.wr f (s.rd f u i + 1) u i := rfl
theorem bump_eq (s : State) (f : Fld) (u i n : Nat) :
    s.bump f u i n = s.wr f (min (s.rd f u i + n) (2 ^ f.w - 1)) u i := rfl
theorem flag_eq (s : State) (f : Fld) (u i : Nat) : s.flag f u i = (s.rd f u i != 0) := rfl

@[simp] theorem wr_pending (s : State) (f : Fld) (v u i : Nat) : (s.wr f v u i).pending = s.pending := rfl
@[simp] theorem wr_elapsed (s : State) (f : Fld) (v u i : Nat) : (s.wr f v u i).elapsed = s.elapsed := rfl
@[simp] theorem wr_freeCtr (s : State) (f : Fld) (v u i : Nat) : (s.wr f v u i).freeCtr = s.freeCtr := rfl
@[simp] theorem wr_count (s : State) (f : Fld) (v u i : Nat) : (s.wr f v u i).count = s.count := rfl
@[simp] theorem wr_host (s : State) (f : Fld) (v u i : Nat) : (s.wr f v u i).host = s.host := rfl
@[simp] theorem wr_err (s : State) (f : Fld) (v u i : Nat) : (s.wr f v u i).err = s.err := rfl
@[simp] theorem wr_str (s : State) (f : Fld) (v u i : Nat) : (s.wr f v u i).str = s.str := rfl
@[simp] theorem wr_eng (s : State) (f : Fld) (v u i : Nat) : (s.wr f v u i).eng = s.eng := rfl
@[simp] theorem wr_fields (s : State) (f : Fld) (v u i : Nat) : (s.wr f v u i).fields = s.fields := rfl
@[simp] theorem wr_comb (s : State) (f : Fld) (v u i : Nat) : (s.wr f v u i).comb = s.comb := rfl
@[simp] theorem wr_mem (s : State) (f : Fld) (v u i : Nat) : (s.wr f v u i).mem = s.mem := rfl
@[simp] theorem wr_wor (s : State) (f : Fld) (v u i : Nat) : (s.wr f v u i).wor = s.wor := rfl
@[simp] theorem wr_ziu (s : State) (f : Fld) (v u i : Nat) : (s.wr f v u i).ziu = s.ziu := rfl
@[simp] theorem wr_sched (s : State) (f : Fld) (v u i : Nat) : (s.wr f v u i).sched = s.sched := rfl
@[simp] theorem wr_ten (s : State) (f : Fld) (v u i : Nat) : (s.wr f v u i).ten = s.ten := rfl
@[simp] theorem wr_que (s : State) (f : Fld) (v u i : Nat) : (s.wr f v u i).que = s.que := rfl
@[simp] theorem wr_rad (s : State) (f : Fld) (v u i : Nat) : (s.wr f v u i).rad = s.rad := rfl
@[simp] theorem wr_tim (s : State) (f : Fld) (v u i : Nat) : (s.wr f v u i).tim = s.tim := rfl
@[simp] theorem wr_det (s : State) (f : Fld) (v u i : Nat) : (s.wr f v u i).det = s.det := rfl
@[simp] theorem wr_mgt (s : State) (f : Fld) (v u i : Nat) : (s.wr f v u i).mgt = s.mgt := rfl
@[simp] theorem wr_boot (s : State) (f : Fld) (v u i : Nat) : (s.wr f v u i).boot = s.boot := rfl
@[simp] theorem wr_jtag (s : State) (f : Fld) (v u i : Nat) : (s.wr f v u i).jtag = s.jtag := rfl
@[simp] theorem wr_pow (s : State) (f : Fld) (v u i : Nat) : (s.wr f v u i).pow = s.pow := rfl
@[simp] theorem wr_failed (s : State) (f : Fld) (v u i : Nat) : (s.wr f v u i).failed = s.failed := rfl
@[simp] theorem wr_coreStore (s : State) (f : Fld) (v u i : Nat) : (s.wr f v u i).coreStore = s.coreStore := rfl
@[simp] theorem wr_clusterStore (s : State) (f : Fld) (v u i : Nat) : (s.wr f v u i).clusterStore = s.clusterStore := rfl
@[simp] theorem set1_pending (s : State) (f : Fld) (u i : Nat) : (s.set1 f u i).pending = s.pending := rfl
@[simp] theorem set1_elapsed (s : State) (f : Fld) (u i : Nat) : (s.set1 f u i).elapsed = s.elapsed := rfl
@[simp] theorem set1_freeCtr (s : State) (f : Fld) (u i : Nat) : (s.set1 f u i).freeCtr = s.freeCtr := rfl
@[simp] theorem set1_count (s : State) (f : Fld) (u i : Nat) : (s.set1 f u i).count = s.count := rfl
@[simp] theorem set1_host (s : State) (f : Fld) (u i : Nat) : (s.set1 f u i).host = s.host := rfl
@[simp] theorem set1_err (s : State) (f : Fld) (u i : Nat) : (s.set1 f u i).err = s.err := rfl
@[simp] theorem set1_str (s : State) (f : Fld) (u i : Nat) : (s.set1 f u i).str = s.str := rfl
@[simp] theorem set1_eng (s : State) (f : Fld) (u i : Nat) : (s.set1 f u i).eng = s.eng := rfl
@[simp] theorem set1_fields (s : State) (f : Fld) (u i : Nat) : (s.set1 f u i).fields = s.fields := rfl
@[simp] theorem set1_comb (s : State) (f : Fld) (u i : Nat) : (s.set1 f u i).comb = s.comb := rfl
@[simp] theorem set1_mem (s : State) (f : Fld) (u i : Nat) : (s.set1 f u i).mem = s.mem := rfl
@[simp] theorem set1_wor (s : State) (f : Fld) (u i : Nat) : (s.set1 f u i).wor = s.wor := rfl
@[simp] theorem set1_ziu (s : State) (f : Fld) (u i : Nat) : (s.set1 f u i).ziu = s.ziu := rfl
@[simp] theorem set1_sched (s : State) (f : Fld) (u i : Nat) : (s.set1 f u i).sched = s.sched := rfl
@[simp] theorem set1_ten (s : State) (f : Fld) (u i : Nat) : (s.set1 f u i).ten = s.ten := rfl
@[simp] theorem set1_que (s : State) (f : Fld) (u i : Nat) : (s.set1 f u i).que = s.que := rfl
@[simp] theorem set1_rad (s : State) (f : Fld) (u i : Nat) : (s.set1 f u i).rad = s.rad := rfl
@[simp] theorem set1_tim (s : State) (f : Fld) (u i : Nat) : (s.set1 f u i).tim = s.tim := rfl
@[simp] theorem set1_det (s : State) (f : Fld) (u i : Nat) : (s.set1 f u i).det = s.det := rfl
@[simp] theorem set1_mgt (s : State) (f : Fld) (u i : Nat) : (s.set1 f u i).mgt = s.mgt := rfl
@[simp] theorem set1_boot (s : State) (f : Fld) (u i : Nat) : (s.set1 f u i).boot = s.boot := rfl
@[simp] theorem set1_jtag (s : State) (f : Fld) (u i : Nat) : (s.set1 f u i).jtag = s.jtag := rfl
@[simp] theorem set1_pow (s : State) (f : Fld) (u i : Nat) : (s.set1 f u i).pow = s.pow := rfl
@[simp] theorem set1_failed (s : State) (f : Fld) (u i : Nat) : (s.set1 f u i).failed = s.failed := rfl
@[simp] theorem set1_coreStore (s : State) (f : Fld) (u i : Nat) : (s.set1 f u i).coreStore = s.coreStore := rfl
@[simp] theorem set1_clusterStore (s : State) (f : Fld) (u i : Nat) : (s.set1 f u i).clusterStore = s.clusterStore := rfl
@[simp] theorem tick_pending (s : State) (f : Fld) (u i : Nat) : (s.tick f u i).pending = s.pending := rfl
@[simp] theorem tick_elapsed (s : State) (f : Fld) (u i : Nat) : (s.tick f u i).elapsed = s.elapsed := rfl
@[simp] theorem tick_freeCtr (s : State) (f : Fld) (u i : Nat) : (s.tick f u i).freeCtr = s.freeCtr := rfl
@[simp] theorem tick_count (s : State) (f : Fld) (u i : Nat) : (s.tick f u i).count = s.count := rfl
@[simp] theorem tick_host (s : State) (f : Fld) (u i : Nat) : (s.tick f u i).host = s.host := rfl
@[simp] theorem tick_err (s : State) (f : Fld) (u i : Nat) : (s.tick f u i).err = s.err := rfl
@[simp] theorem tick_str (s : State) (f : Fld) (u i : Nat) : (s.tick f u i).str = s.str := rfl
@[simp] theorem tick_eng (s : State) (f : Fld) (u i : Nat) : (s.tick f u i).eng = s.eng := rfl
@[simp] theorem tick_fields (s : State) (f : Fld) (u i : Nat) : (s.tick f u i).fields = s.fields := rfl
@[simp] theorem tick_comb (s : State) (f : Fld) (u i : Nat) : (s.tick f u i).comb = s.comb := rfl
@[simp] theorem tick_mem (s : State) (f : Fld) (u i : Nat) : (s.tick f u i).mem = s.mem := rfl
@[simp] theorem tick_wor (s : State) (f : Fld) (u i : Nat) : (s.tick f u i).wor = s.wor := rfl
@[simp] theorem tick_ziu (s : State) (f : Fld) (u i : Nat) : (s.tick f u i).ziu = s.ziu := rfl
@[simp] theorem tick_sched (s : State) (f : Fld) (u i : Nat) : (s.tick f u i).sched = s.sched := rfl
@[simp] theorem tick_ten (s : State) (f : Fld) (u i : Nat) : (s.tick f u i).ten = s.ten := rfl
@[simp] theorem tick_que (s : State) (f : Fld) (u i : Nat) : (s.tick f u i).que = s.que := rfl
@[simp] theorem tick_rad (s : State) (f : Fld) (u i : Nat) : (s.tick f u i).rad = s.rad := rfl
@[simp] theorem tick_tim (s : State) (f : Fld) (u i : Nat) : (s.tick f u i).tim = s.tim := rfl
@[simp] theorem tick_det (s : State) (f : Fld) (u i : Nat) : (s.tick f u i).det = s.det := rfl
@[simp] theorem tick_mgt (s : State) (f : Fld) (u i : Nat) : (s.tick f u i).mgt = s.mgt := rfl
@[simp] theorem tick_boot (s : State) (f : Fld) (u i : Nat) : (s.tick f u i).boot = s.boot := rfl
@[simp] theorem tick_jtag (s : State) (f : Fld) (u i : Nat) : (s.tick f u i).jtag = s.jtag := rfl
@[simp] theorem tick_pow (s : State) (f : Fld) (u i : Nat) : (s.tick f u i).pow = s.pow := rfl
@[simp] theorem tick_failed (s : State) (f : Fld) (u i : Nat) : (s.tick f u i).failed = s.failed := rfl
@[simp] theorem tick_coreStore (s : State) (f : Fld) (u i : Nat) : (s.tick f u i).coreStore = s.coreStore := rfl
@[simp] theorem tick_clusterStore (s : State) (f : Fld) (u i : Nat) : (s.tick f u i).clusterStore = s.clusterStore := rfl
@[simp] theorem bump_pending (s : State) (f : Fld) (u i n : Nat) : (s.bump f u i n).pending = s.pending := rfl
@[simp] theorem bump_elapsed (s : State) (f : Fld) (u i n : Nat) : (s.bump f u i n).elapsed = s.elapsed := rfl
@[simp] theorem bump_freeCtr (s : State) (f : Fld) (u i n : Nat) : (s.bump f u i n).freeCtr = s.freeCtr := rfl
@[simp] theorem bump_count (s : State) (f : Fld) (u i n : Nat) : (s.bump f u i n).count = s.count := rfl
@[simp] theorem bump_host (s : State) (f : Fld) (u i n : Nat) : (s.bump f u i n).host = s.host := rfl
@[simp] theorem bump_err (s : State) (f : Fld) (u i n : Nat) : (s.bump f u i n).err = s.err := rfl
@[simp] theorem bump_str (s : State) (f : Fld) (u i n : Nat) : (s.bump f u i n).str = s.str := rfl
@[simp] theorem bump_eng (s : State) (f : Fld) (u i n : Nat) : (s.bump f u i n).eng = s.eng := rfl
@[simp] theorem bump_fields (s : State) (f : Fld) (u i n : Nat) : (s.bump f u i n).fields = s.fields := rfl
@[simp] theorem bump_comb (s : State) (f : Fld) (u i n : Nat) : (s.bump f u i n).comb = s.comb := rfl
@[simp] theorem bump_mem (s : State) (f : Fld) (u i n : Nat) : (s.bump f u i n).mem = s.mem := rfl
@[simp] theorem bump_wor (s : State) (f : Fld) (u i n : Nat) : (s.bump f u i n).wor = s.wor := rfl
@[simp] theorem bump_ziu (s : State) (f : Fld) (u i n : Nat) : (s.bump f u i n).ziu = s.ziu := rfl
@[simp] theorem bump_sched (s : State) (f : Fld) (u i n : Nat) : (s.bump f u i n).sched = s.sched := rfl
@[simp] theorem bump_ten (s : State) (f : Fld) (u i n : Nat) : (s.bump f u i n).ten = s.ten := rfl
@[simp] theorem bump_que (s : State) (f : Fld) (u i n : Nat) : (s.bump f u i n).que = s.que := rfl
@[simp] theorem bump_rad (s : State) (f : Fld) (u i n : Nat) : (s.bump f u i n).rad = s.rad := rfl
@[simp] theorem bump_tim (s : State) (f : Fld) (u i n : Nat) : (s.bump f u i n).tim = s.tim := rfl
@[simp] theorem bump_det (s : State) (f : Fld) (u i n : Nat) : (s.bump f u i n).det = s.det := rfl
@[simp] theorem bump_mgt (s : State) (f : Fld) (u i n : Nat) : (s.bump f u i n).mgt = s.mgt := rfl
@[simp] theorem bump_boot (s : State) (f : Fld) (u i n : Nat) : (s.bump f u i n).boot = s.boot := rfl
@[simp] theorem bump_jtag (s : State) (f : Fld) (u i n : Nat) : (s.bump f u i n).jtag = s.jtag := rfl
@[simp] theorem bump_pow (s : State) (f : Fld) (u i n : Nat) : (s.bump f u i n).pow = s.pow := rfl
@[simp] theorem bump_failed (s : State) (f : Fld) (u i n : Nat) : (s.bump f u i n).failed = s.failed := rfl
@[simp] theorem bump_coreStore (s : State) (f : Fld) (u i n : Nat) : (s.bump f u i n).coreStore = s.coreStore := rfl
@[simp] theorem bump_clusterStore (s : State) (f : Fld) (u i n : Nat) : (s.bump f u i n).clusterStore = s.clusterStore := rfl

end Sys2Proof.Machine
end

