-- ==== Sys2Proof/Laws/Ops.lean ====
section
/-!
SUPPORT. What each shared operation can do, said once: the parts of the state it may change, and what its own part then holds. A
proof about a command cites these and unfolds none of them.
-/
namespace Sys2Proof
namespace Machine

/-! ### Violations, events, records of failed items -/

theorem violate_frame (s : State) (f : Fld) (o n : Nat) : s.violate f o n = { s with regs := (s.violate f o n).regs } := by
  unfold State.violate; split
  · rfl
  · split <;> rfl

theorem violate_bound (s : State) (f : Fld) (o n : Nat) (hn : n ≠ 0) (ho : o < 1024) (hs : s.rd R.SCH_TEN_CFG.STATE 0 o ≠ 0) :
    s.violate f o n = s.bump f 0 o n := by
  simp [State.violate, hn, ho, hs]

theorem event_frame (s : State) (f en : Fld) (v : Nat) :
    s.event f en v = { s with regs := (s.event f en v).regs, host := { s.host with sent := (s.event f en v).host.sent } } := by
  unfold State.event; split
  · rfl
  · split <;> rfl

@[simp] theorem rd_event_self (s : State) (f en : Fld) (v : Nat) : (s.event f en v).rd f = 1 % 2 ^ f.w := by
  unfold State.event; split
  · exact rd_wr_self s f 1 0 0
  · split <;> exact rd_wr_self s f 1 0 0

theorem eventCmdDone_frame (s : State) :
    s.eventCmdDone = { s with regs := s.eventCmdDone.regs, host := { s.host with sent := s.eventCmdDone.host.sent } } := event_frame ..

theorem failItem_frame (s : State) (it : Option ItemRef) (q : Nat) : s.failItem it q = { s with failed := (s.failItem it q).failed } := by
  unfold State.failItem; split
  · rfl
  · split <;> rfl

/-! ### Parts of the state written whole -/

@[simp] theorem setMover_mover (s : State) (k : Nat) (m : Mover) : (s.setMover k m).mover k = m := by
  simp [State.setMover, State.mover]
theorem setMover_other (s : State) {k j : Nat} (m : Mover) (h : k ≠ j) : (s.setMover k m).mover j = s.mover j := by
  simp [State.setMover, State.mover, Tab.findD_put_ne _ _ _ h]
theorem setMover_frame (s : State) (k : Nat) (m : Mover) :
    s.setMover k m = { s with regs := (s.setMover k m).regs, mem := { s.mem with movers := s.mem.movers.put k m } } := rfl

theorem answerMover_frame (s : State) (k : Nat) (q : MovReq) (d : List Byte) (bad : Bool) :
    s.answerMover k q d bad = { s with regs := (s.answerMover k q d bad).regs, mem := { s.mem with movers := (s.answerMover k q d bad).mem.movers } } := by
  unfold State.answerMover; simp only []; split
  · rfl
  · split
    · rfl
    · rw [violate_frame]
theorem answerMover_expected (s : State) (k : Nat) (q : MovReq) (d : List Byte) (bad : Bool) (h : (s.mover k).expects q = true)
    (hq : q.squashed = false) :
    (s.answerMover k q d bad).mover k = { s.mover k with resp := (s.mover k).resp ++ [⟨q, d, bad, q.space = .woruri || q.space = .host⟩] } := by
  simp [State.answerMover, h, hq]

@[simp] theorem setCache_cache (s : State) (d : Nat) (c : LineCache) : (s.setCache d c).cache d = c := by
  simp [State.setCache, State.cache]
theorem setCache_other (s : State) {d e : Nat} (c : LineCache) (h : d ≠ e) : (s.setCache d c).cache e = s.cache e := by
  simp [State.setCache, State.cache, Tab.findD_put_ne _ _ _ h]
theorem setCache_frame (s : State) (d : Nat) (c : LineCache) :
    s.setCache d c = { s with regs := (s.setCache d c).regs, mem := { s.mem with lc := s.mem.lc.put d c } } := rfl

@[simp] theorem setDest_dest (s : State) (n : Nat) (d : DestSt) : (s.setDest n d).dest n = d := by
  simp [State.setDest, State.dest]
theorem setDest_other (s : State) {n m : Nat} (d : DestSt) (h : n ≠ m) : (s.setDest n d).dest m = s.dest m := by
  simp [State.setDest, State.dest, Tab.findD_put_ne _ _ _ h]
theorem setDest_frame (s : State) (n : Nat) (d : DestSt) : s.setDest n d = { s with wor := { s.wor with dests := s.wor.dests.put n d } } := rfl

@[simp] theorem setSrc_src (s : State) (n : Nat) (v : SrcSt) : (s.setSrc n v).srcOf n = v := by
  simp [State.setSrc, State.srcOf]
@[simp] theorem setPortLink_link (s : State) (q : Nat) (l : PortLink) : (s.setPortLink q l).wor.links.find q = some l := by
  simp [State.setPortLink]

theorem reply_dest (s : State) (n : Nat) (p : Packet) :
    (s.reply n p).dest n = { s.dest n with replies := (s.dest n).replies ++ [{ p with dst := n }] } := by
  simp [State.reply]
theorem reply_frame (s : State) (n : Nat) (p : Packet) : s.reply n p = { s with wor := (s.reply n p).wor } := rfl

@[simp] theorem setPort_port (s : State) (p : PortId) (v : Port) : (s.setPort p v).port p = some v := by
  simp [State.setPort, State.port]
theorem setPort_other (s : State) {p q : PortId} (v : Port) (h : p ≠ q) : (s.setPort p v).port q = s.port q := by
  simp [State.setPort, State.port, Tab.find_put_ne _ _ h]
theorem setPort_frame (s : State) (p : PortId) (v : Port) : s.setPort p v = { s with str := { s.str with ports := s.str.ports.put p v } } := rfl

@[simp] theorem setQueue_queue (s : State) (q : Nat) (v : QueueSt) : (s.setQueue q v).queue q = some v := by
  simp [State.setQueue, State.queue]
theorem setQueue_other (s : State) {q r : Nat} (v : QueueSt) (h : q ≠ r) : (s.setQueue q v).queue r = s.queue r := by
  simp [State.setQueue, State.queue, Tab.find_put_ne _ _ h]
theorem setQueue_frame (s : State) (q : Nat) (v : QueueSt) : s.setQueue q v = { s with que := { s.que with queues := s.que.queues.put q v } } := rfl

@[simp] theorem setTxPort_txPort (s : State) (q : Nat) (p : TxPort) : (s.setTxPort q p).txPort q = p := by
  simp [State.setTxPort, State.txPort]
theorem setComb_frame (s : State) (k : Nat) (c : CombSt) :
    s.setComb k c = { s with regs := (s.setComb k c).regs, comb := s.comb.put k c } := rfl
theorem setSite_frame (s : State) (k : Nat) (r : SiteRec) :
    s.setSite k r = { s with regs := (s.setSite k r).regs, err := { s.err with sites := s.err.sites.put k r } } := by
  unfold State.setSite; simp only []; split <;> rfl
@[simp] theorem setSite_siteRec (s : State) (k : Nat) (r : SiteRec) : (s.setSite k r).siteRec k = r := by
  rw [setSite_frame]; simp [State.siteRec]

/-! ### Contexts and their clusters -/

theorem markGroup_frame (s : State) (o g : Nat) :
    s.markGroup o g = { s with sched := { s.sched with groups := (s.markGroup o g).sched.groups } } := by
  unfold State.markGroup; simp only []; split <;> rfl
theorem setCtx_frame (s : State) (k : Nat × Nat) (c : Ctx) :
    s.setCtx k c = { s with regs := (s.setCtx k c).regs
                            sched := { s.sched with ctxs := s.sched.ctxs.put k c, groups := (s.setCtx k c).sched.groups } } := by
  unfold State.setCtx; simp only []
  split <;> split <;> first | rfl | (rw [markGroup_frame]; rfl)
@[simp] theorem setCtx_ctx (s : State) (k : Nat × Nat) (c : Ctx) : (s.setCtx k c).ctx k = some c := by
  rw [setCtx_frame]; simp [State.ctx]
theorem setCtx_other (s : State) {k j : Nat × Nat} (c : Ctx) (h : k ≠ j) : (s.setCtx k c).ctx j = s.ctx j := by
  rw [setCtx_frame]; simp [State.ctx, Tab.find_put_ne _ _ h]
theorem decide_frame (s : State) (c : Nat) : s.decide_ c = { s with sched := { s.sched with due := (s.decide_ c).sched.due } } := by
  unfold State.decide_; split <;> rfl
theorem decide_due (s : State) (c : Nat) : c ∈ (s.decide_ c).sched.due := by
  unfold State.decide_; split
  · next h => simpa using h
  · simp

/-! ### Records of errors -/

/-- The counters and the event of a record change registers and what the host has been sent. -/
theorem recordCounts_frame (s : State) (lost escalated : Bool) (f : Fld) (n : Nat) :
    let a := s.wr R.ERR_STATUS.NEXT_SEQ n
    let b := (if lost then a.bump R.ERR_RING_LOST.COUNT else a).bump f
    let t := (if escalated then b.bump R.ERR_COUNTS_B.ESCALATED else b).eventError
    t = { s with regs := t.regs, host := { s.host with sent := t.host.sent } } := by
  intro a b t
  have h := event_frame (if escalated then b.bump R.ERR_COUNTS_B.ESCALATED else b) R.HST_EVENTS.ERROR R.HST_EVENT_EN.ERROR 0
  cases lost <;> cases escalated <;> exact h

theorem writeRecord_frame (s : State) (die : Nat) (r : ErrRecord) :
    s.writeRecord die r = { s with
      regs := (s.writeRecord die r).regs
      host := { s.host with sent := (s.writeRecord die r).host.sent }
      err := { s.err with ring := s.err.ring.put (r.seq % 65536) r, last := s.err.last.put die r } } :=
  recordCounts_frame { s with err := { s.err with ring := s.err.ring.put (r.seq % 65536) r, last := s.err.last.put die r } } _ r.escalated _ _

/-- Where nothing is contained (an error of level 0, one without a level, or one without a unit), detecting it writes one record. -/
theorem detect_writes (s : State) (i : ErrInfo) (h : i.recUnit = none ∨ i.cls.level = none ∨ i.cls.level = some 0) :
    ∃ r, s.detect i = (s.writeRecord i.die r, max 1 (s.rd R.ERR_STATUS.NEXT_SEQ)) ∧ r.seq = max 1 (s.rd R.ERR_STATUS.NEXT_SEQ) := by
  rcases hl : i.cls.level with _ | _ | l <;> rcases hu : i.recUnit with _ | u <;> simp only [State.detect, hl, hu]
  all_goals first | exact ⟨_, rfl, rfl⟩ | simp [hl, hu] at h

/-- Such an error changes registers, what the host has been sent, and the records. -/
theorem detect_frame (s : State) (i : ErrInfo) (h : i.recUnit = none ∨ i.cls.level = none ∨ i.cls.level = some 0) :
    (s.detect i).1 = { s with regs := (s.detect i).1.regs, host := { s.host with sent := (s.detect i).1.host.sent }
                              err := { s.err with ring := (s.detect i).1.err.ring, last := (s.detect i).1.err.last } } := by
  obtain ⟨r, e, -⟩ := detect_writes s i h
  rw [e]
  exact (writeRecord_frame s i.die r).trans (by rw [writeRecord_frame s i.die r])

/-- An error of an item is detected, and marks the item; `detect_frame` says what the first does. -/
theorem failWith_frame (s : State) (i : ErrInfo) : s.failWith i = { (s.detect i).1 with failed := (s.failWith i).failed } :=
  failItem_frame (s.detect i).1 i.item (s.detect i).2

end Machine
end Sys2Proof
end

