-- ==== Sys2Proof/Tests/Slice0.lean ====
section
/-!
SUPPORT. Tests of the model: an ill-formed term for each check of WellFormed, worked examples of the spec, and for every statement
with hypotheses a state and operands that meet them.
-/
namespace Sys2Proof.Tests
open Sys2Proof.Machine
set_option Elab.async false

/-! ### Helpers -/

/-- Whether a command answers a next state that meets a condition. -/
def after (c : Instr) (s : State) (p : State → Bool) : Bool := match exec c s with | .next t => p t | _ => false

/-- A ready package with an open host link (R521, R570). -/
def ready : State := (State.reset.wr R.HST_PORT.STATE_A 3).wr R.MGT_STATUS.STAGE 7

/-- A plain fabric packet. -/
def pk (t : PktType) (c : PktClass) : Packet := { typ := t, cls := c, src := 1, dst := 0 }

/-- An FP32 vector register as an operand. -/
def vr (n : Fin 32) : VOpnd := ⟨.reg n, false⟩

/-- A vector operation of site 0 that writes register 3. -/
def vc : VCtl := { site := 0, dst := vr 3 }

/-! ### Ill-formed commands: one for each check of WellFormed -/

theorem test_wf_register_size : (Instr.registerWrite .bar0 0x100000 0 0).wf = false := by decide +kernel
theorem test_wf_register_size_max : (Instr.registerWrite .bar0 0x100000 9 0).wf = false := by decide +kernel
theorem test_wf_register_addr : (Instr.registerWrite .bar0 (2 ^ 64) 8 0).wf = false := by decide +kernel
theorem test_wf_ziura_flit : (Instr.ziuraFlitArrive ⟨0, 1, .response, 0, .horizontalFirst, [2 ^ 64], none, none⟩ 0 .clean 0 .clean).wf = false := by decide +kernel
theorem test_wf_ziura_length : (Instr.ziuraFlitArrive ⟨0, 1, .response, 0, .horizontalFirst, List.replicate 33 0, none, none⟩ 0 .clean 0 .clean).wf = false := by decide +kernel
theorem test_wf_ziura_order : (Instr.ziuraFlitArrive ⟨0, 1, .response, 0, .detour, [], none, none⟩ 0 .clean 0 .clean).wf = false := by decide +kernel
theorem test_wf_ziura_down : (Instr.ziuraPortDown 0 0 [⟨0, 1, .response, 0, .horizontalFirst, [2 ^ 64], none, none⟩] []).wf = false := by decide +kernel
theorem test_wf_vector_store : (Instr.vecAdd vc ⟨.store 0x180000, false⟩ (vr 0)).wf = false := by decide +kernel
theorem test_wf_vector_align : (Instr.vecAbs vc ⟨.store 2, false⟩).wf = false := by decide +kernel
theorem test_wf_vector_half : (Instr.vecAbs vc ⟨.store 2, true⟩).wf = true := by decide +kernel
theorem test_wf_vector_item : (Instr.vecNeg { vc with item := some ⟨0, 2 ^ 48⟩ } (vr 0)).wf = false := by decide +kernel
theorem test_wf_vector_queue : (Instr.vecNeg { vc with item := some ⟨2 ^ 20, 0⟩ } (vr 0)).wf = false := by decide +kernel
theorem test_wf_reduce : (Instr.reduceSum vc (vr 0) 0 none).wf = false := by decide +kernel
theorem test_wf_sum_piece : (Instr.reduceSum vc (vr 0) 1 (some { first := 1, level := 1, stream := 0 })).wf = false := by decide +kernel
theorem test_wf_table_slot : (Instr.exp2 vc 16 (vr 0)).wf = false := by decide +kernel
theorem test_wf_table_func : (Instr.intervalFunction vc 0 256 (vr 0)).wf = false := by decide +kernel
theorem test_wf_softmax : (Instr.softmax vc 0 16 (vr 0) 4).wf = false := by decide +kernel
theorem test_wf_layer_norm : (Instr.layerNormalisation vc 0 (2 ^ 32) (vr 0) (vr 1) (vr 2) 4).wf = false := by decide +kernel
theorem test_wf_signal_item : (Instr.mac 0 (.reg 0) (.reg 1) .clean (some ⟨2 ^ 20, 0⟩)).wf = false := by decide +kernel
theorem test_wf_shift : (Instr.sigLogicalShift 0 0 0 true 64 .clean none).wf = false := by decide +kernel
theorem test_wf_out_item : (Instr.out 0 .acc false .clean (some ⟨0, 2 ^ 48⟩)).wf = false := by decide +kernel
theorem test_wf_repeat : (Instr.repeat 0 65537 .clean none).wf = false := by decide +kernel
theorem test_wf_fec_port : (Instr.fecDescriptor 0 16 none).wf = false := by decide +kernel
theorem test_wf_fec_stream : (Instr.fecResultEmit 0 4096).wf = false := by decide +kernel
theorem test_wf_flit : (Instr.flitSend (.egress 0 0) (some { src := .store 0 5, last := true }) .clean).wf = false := by decide +kernel
theorem test_wf_flit_ecc : (Instr.flitSend (.egress 0 0) none (.payload 4)).wf = false := by decide +kernel
theorem test_wf_flit_words : (Instr.flitArrive (.mover 0 ⟨{}, List.replicate 9 0, none⟩ 0) .clean).wf = false := by decide +kernel
theorem test_wf_descriptor_align : (Instr.descriptorPost 0 32 none .clean).wf = false := by decide +kernel
theorem test_wf_descriptor_store : (Instr.descriptorPost 0 0x180000 none .clean).wf = false := by decide +kernel
theorem test_wf_feed_scale : (Instr.feed 0 [(256, 0)] .clean).wf = false := by decide +kernel
theorem test_wf_load_scale : (Instr.load 0 [[(0, 256)]] .clean).wf = false := by decide +kernel
theorem test_wf_line_request : (Instr.lineCacheRequest 0 (some { key := .hbm 0, write := some [(256, 1)] }) .clean 0).wf = false := by decide +kernel
theorem test_wf_doorbell_vf : (Instr.doorbell (.vf 1024) 0).wf = false := by decide +kernel
theorem test_wf_doorbell_node : (Instr.doorbell (.node 4096 0) 0).wf = false := by decide +kernel
theorem test_wf_accept : (Instr.acceptAttempt 0 (2 ^ 64)).wf = false := by decide +kernel
theorem test_wf_queue : (Instr.commit (2 ^ 20)).wf = false := by decide +kernel
theorem test_wf_finish : (Instr.itemFinish 0 (2 ^ 48)).wf = false := by decide +kernel
theorem test_wf_effect_message : (Instr.effectLogWrite 0 1 0 (.message 0 [1])).wf = false := by decide +kernel
theorem test_wf_effect_atomic : (Instr.effectLogWrite 0 1 0 (.atomic 0 0 16 true 0 0 0)).wf = false := by decide +kernel
theorem test_wf_effect_frame : (Instr.effectLogWrite 0 1 0 (.frame (List.replicate 9 0))).wf = false := by decide +kernel
theorem test_wf_pending_entry : (Instr.pendingEntryEnd 0 0 0 0 (List.replicate 257 0) false).wf = false := by decide +kernel
theorem test_wf_frame : (Instr.frameReceive 0 { length := 64, dst := 0, src := 2 ^ 48, vlan := 0 }).wf = false := by decide +kernel
theorem test_wf_tx_slot : (Instr.txRingProdWrite 0 0 [[]] []).wf = false := by decide +kernel
theorem test_wf_packet : (Instr.read ⟨0, 0, true, { pk .read .request with addr := 2 ^ 56 }⟩).wf = false := by decide +kernel
theorem test_wf_link_ctr : (Instr.probe ⟨0, 2 ^ 48, true, pk .probe .control⟩).wf = false := by decide +kernel
theorem test_wf_spdm : (Instr.spdm ⟨0, 0, true, { pk .spdm .control with data := List.replicate 257 0 }⟩).wf = false := by decide +kernel
theorem test_wf_replay : (Instr.replayEntryFree 0 0 (2 ^ 16) 0).wf = false := by decide +kernel
theorem test_wf_ats : (Instr.atsTranslation ⟨0, 2 ^ 52, true, true, 0⟩ 0).wf = false := by decide +kernel
theorem test_wf_ats_inval : (Instr.atsInvalidate 0 0 (2 ^ 52)).wf = false := by decide +kernel
theorem test_wf_detected : (Instr.errorDetect (.cell .program 0 0 0 (some ⟨2 ^ 20, 0⟩) 0)).wf = false := by decide +kernel
theorem test_wf_anchor : (Instr.anchorSet (List.replicate 2049 0)).wf = false := by decide +kernel
theorem test_wf_preload : (Instr.samplePreload (2 ^ 1024)).wf = false := by decide +kernel

/-! ### Witnesses: the statements of 00_scope to 04 meet their hypotheses, and hold there -/

theorem wit_StepRunsFrontCommand : ({ ready with pending := [.snap, .set] } : State).pending = [.snap, .set] ∧ ready.pending = [] := by
  decide +kernel

theorem wit_StepKeepsInvariant : (({ ready with pending := [.snap], coreStore := [⟨5, 7⟩] } : State).memOk = true ∧
    (∀ c ∈ [Instr.snap], c.wf = true)) ∧
    ∃ t, step { ready with pending := [.snap], coreStore := [⟨5, 7⟩] } = .next t := ⟨by decide +kernel, _, rfl⟩

theorem wit_IgnoredAccesses_size : ¬ (3 = 8 ∧ 0x100000 % 8 = 0) ∧ ¬ (3 = 4 ∧ 0x100000 % 4 = 0) ∧
    after (.registerWrite .bar0 0x100000 3 5) ready (fun t => t = ready) = true := by decide +kernel
theorem wit_IgnoredAccesses_align : ¬ (8 = 8 ∧ 0x100004 % 8 = 0) ∧ ¬ (8 = 4 ∧ 0x100004 % 4 = 0) ∧
    after (.registerWrite .bar0 0x100004 8 5) ready (fun t => t = ready) = true := by decide +kernel
theorem wit_IgnoredAccesses_unassigned : bar0Reg 0x303000 = none ∧ ¬ (0x302000 ≤ 0x303000 ∧ 0x303000 < 0x303000) ∧
    after (.registerWrite .bar0 0x303000 8 5) ready (fun t => t = ready) = true ∧ ready.readBar0 0x303000 8 = 0 := by decide +kernel
theorem wit_IgnoredAccesses_readOnly : ∃ f ∈ RegName.fields .ERR_STATUS, f.acc = .ro ∨ f.acc = .wo := by decide +kernel

/-- ERR_CTRL has no command of its own: 64 and 32 bits. -/
theorem wit_RegisterWriteSetsFields : ready.managed = true ∧ bar0Reg 0x100000 = some (.ERR_CTRL, 0, 0) ∧
    (∀ w, ready.command .ERR_CTRL 0 (ready.shownIx .ERR_CTRL 0) w = none) ∧
    after (.registerWrite .bar0 0x100000 8 0x50041) ready (fun t => t.view .ERR_CTRL 0 0 = 0x50041) = true ∧
    after (.registerWrite .bar0 0x100004 4 0xFF) ready (fun t => t.view .ERR_CTRL 0 0 = ready.view .ERR_CTRL 0 0) = true :=
  ⟨by decide +kernel, by decide +kernel, fun _ => rfl, by decide +kernel, by decide +kernel⟩

/-- WOR_NODE_ROUTE sets the route of the node that WOR_NODE_SEL names; SCH_CTRL has a command of its own. -/
theorem wit_RegisterWriteSetsFields_route : (ready.managed = true ∧ bar0Reg 0x600018 = some (.WOR_NODE_ROUTE, 0, 0) ∧
    after (.registerWrite .bar0 0x600018 8 0x5) ready (fun t => (t.dest (ready.rd R.WOR_NODE_SEL.NODE)).route = 5) = true) := by decide +kernel
theorem wit_RegisterWriteSetsFields_command : bar0Reg 0x400100 = some (.SCH_CTRL, 0, 0) ∧ (∃ f ∈ RegName.fields .SCH_CTRL, f.acc ≠ .ro) ∧
    (ready.command .SCH_CTRL 0 (ready.shownIx .SCH_CTRL 0) 0x100000064).isSome = true ∧
    after (.registerWrite .bar0 0x400100 8 0x100000064) ready (fun t => t.rd R.SCH_CTRL.QUANTUM_US = 100) = true := by decide +kernel

def locked : State := ready.wr R.SEC_CTRL.LOCK 1
theorem wit_LockBitHolds : locked.rd R.SEC_CTRL.LOCK = 1 ∧ bar0Reg 0x4000 = some (.SEC_CTRL, 0, 0) ∧ locked.boot.phase = .stages ∧
    after (.registerWrite .bar0 0x4000 8 0) locked (fun t => t.rd R.SEC_CTRL.LOCK = 1) = true ∧
    after .powerOnReset locked (fun t => t.rd R.SEC_CTRL.LOCK = 0) = true ∧
    after (.warmReset true 0) locked (fun t => t.rd R.SEC_CTRL.LOCK = 0) = true := by decide +kernel

/-- A flit of a response from die 0 to die 1. -/
def zf (n : Nat) (ws : List Nat := []) : ZFlit := ⟨0, 1, .response, n, .horizontalFirst, ws, none, none⟩
/-- A triple of the mesh whose next flit is 3, with 4 and 6 held. -/
def zHeld : State := { ready with ziu := { triples := [((0, 1, 3), { next := 3, held := [zf 4, zf 6] })] } }
theorem wit_ZiuraFlitsInOrder :
    let tr (s : State) := s.ziu.triples.findD (0, 1, 3) {}
    ((tr zHeld).held.Pairwise (fun a b => a.seq < b.seq) ∧ (∀ g ∈ (tr zHeld).held, (tr zHeld).next < g.seq)) ∧
    (zHeld.sent (zf 3) = true ∧ zHeld.sent { zf 3 with order := .detour } = false ∧ zHeld.sent { zf 3 with order := .verticalFirst } = false) ∧
    after (.ziuraFlitArrive (zf 3) 0 .clean 0 .clean) zHeld (fun t => (tr t).next = 5 ∧
      (t.ziu.released.findD 1 []).map (fun g => g.seq) = [3, 4] ∧ (tr t).held.map (fun g => g.seq) = [6]) = true ∧
    after (.ziuraFlitArrive (zf 5) 0 .clean 0 .clean) zHeld (fun t => (tr t).held.map (fun g => g.seq) = [4, 5, 6]) = true ∧
    after (.ziuraFlitArrive (zf 2) 0 .clean 0 .clean) zHeld (fun t => (tr t).held = (tr zHeld).held ∧ (tr t).next = 3) = true ∧
    after (.ziuraFlitArrive { zf 3 with order := .detour } 0 .clean 0 .clean) zHeld (fun t => t = zHeld) = true ∧
    after (.ziuraFlitArrive (zf 3 [7, 8]) 0 (.payload 1) 0 .clean) zHeld (fun t => ((t.ziu.released.findD 1 []).head?.map fun g => g.words) = some [7, 0] ∧
      t.rd R.ERR_STATUS.NEXT_SEQ = 2) = true := by
  decide +kernel

/-- Dies 0 and 1 in service with their link up; `linkDown` has it down, with the port of die 0 not enabled. -/
def linkUp : State :=
  (((ready.wr (R.GLB_DIE_STATE.DIE 0) 1).wr (R.GLB_DIE_STATE.DIE 1) 1).wr R.ZIU_PORT_STATE.STATE 1 0 0).wr R.ZIU_PORT_STATE.STATE 1 1 0
def linkDown : State :=
  ((linkUp.wr R.ZIU_PORT_STATE.STATE 2 0 0).wr R.ZIU_PORT_STATE.STATE 2 1 0).wr (R.ZIU_CTRL.PORT_EN 0) 0 0
def retried : State := { linkUp with elapsed := 20, ziu := { retries := [((0, 0), List.replicate 16 20)] } }

theorem wit_ZiuraLinks_retry : linkUp.rd R.ZIU_PORT_STATE.STATE 0 0 = 1 ∧
    after (.ziuraLinkRetry 0 0) linkUp (fun t => t.rd R.ZIU_PORT_RETRY.COUNT 0 0 = 1) = true := by decide +kernel
theorem wit_ZiuraLinks_down : retried.rd R.ZIU_PORT_STATE.STATE 0 0 = 1 ∧ ziuFarEnd 0 0 = some (1, 0) ∧
    16 ≤ ((retried.ziu.retries.findD (0, 0) []).filter fun t => retried.elapsed < t + millis 1).length ∧
    after (.ziuraPortDown 0 0 [] []) retried (fun t => t.rd R.ZIU_PORT_STATE.STATE 0 0 = 2 ∧ t.rd R.ZIU_PORT_STATE.STATE 1 0 = 2) = true := by
  decide +kernel
def rerouteDue : State := { linkUp with ziu := { due := true } }
theorem wit_ZiuraLinks_reroute : rerouteDue.ziu.due = true ∧ rerouteDue.partitioned = false ∧
    after .ziuraReroute rerouteDue (fun t => t.rd (R.ZIU_ROUTE.REACH 1) 0 = 1 ∧ t.rd (R.ZIU_ROUTE.ORDER 1) 0 = 0) = true := by decide +kernel
theorem wit_ZiuraLinks_clear : linkUp.managed = true ∧ (ziuPartner 0 0).isSome = true ∧ linkUp.rd R.ZIU_PORT_STATE.STATE 0 0 = 1 ∧
    linkUp.flag (R.ZIU_CTRL.PORT_EN 0) 0 = true ∧ (4#64).toNat = linkUp.view .ZIU_CTRL 0 0 - 2 ^ 0 ∧
    after (.portEnWrite 0 4) linkUp (fun t => t.rd (R.ZIU_CTRL.PORT_EN 0) 0 = 0 ∧ t.rd R.ZIU_PORT_STATE.STATE 0 0 = 2) = true := by
  decide +kernel
theorem wit_ZiuraLinks_set : linkDown.managed = true ∧ ziuFarEnd 0 0 = some (1, 0) ∧ linkDown.rd R.ZIU_PORT_STATE.STATE 0 0 = 2 ∧
    linkDown.flag (R.ZIU_CTRL.PORT_EN 0) 0 = false ∧ linkDown.flag (R.ZIU_CTRL.PORT_EN 0) 1 = true ∧ linkDown.dieUp 0 = true ∧
    linkDown.dieUp 1 = true ∧ linkDown.ziu.owed = [] ∧ linkDown.ziu.railOut = [] ∧
    (5#64).toNat = linkDown.view .ZIU_CTRL 0 0 + 2 ^ 0 ∧
    after (.portEnWrite 0 5) linkDown (fun t => t.rd R.ZIU_PORT_STATE.STATE 0 0 = 3 ∧ t.rd R.ZIU_PORT_STATE.STATE 1 0 = 3) = true := by
  decide +kernel
theorem wit_ZiuraLinks_training : ready.rd R.ZIU_PORT_STATE.STATE 0 0 = 3 ∧ ziuFarEnd 0 0 = some (1, 0) ∧
    after (.ziuraTrainingEnd 0 0 true) ready (fun t => t.rd R.ZIU_PORT_STATE.STATE 0 0 = 1 ∧ t.ziu.due = true) = true ∧
    after (.ziuraTrainingEnd 0 0 false) ready (fun t => t.rd R.ZIU_PORT_STATE.STATE 1 0 = 2) = true := by decide +kernel
/-- An owner of class glade that holds an image. -/
def gladeHolder : State := (ready.wr R.SCH_TEN_CFG.CLASS 1 0 1024).wr R.SCH_TEN_CFG.IMAGE 1 0 1024
theorem wit_ZiuraLinks_reserve : ready.managed = true ∧ ready.gladeHeld = false ∧ gladeHolder.managed = true ∧ gladeHolder.gladeHeld = true ∧
    after (.ziuVc1ReserveWrite 0 0xFF0010) ready (fun t => t.view .ZIU_VC1_RESERVE 0 0 = 0x800010) = true ∧
    after (.ziuVc1ReserveWrite 0 0xFF0010) gladeHolder (fun t => t = gladeHolder) = true := by decide +kernel

def field0 : FieldSt := { owner := 1, shape := 0, sites := [0], started := true, stopped := false }
def onField (f : FieldSt) : State := { ready with fields := [(0, f)] }
def seg0 : FeedSeg := { site := 0, addr := 0, count := 4, digit := 0, granule := 0, bank := true, seq := 0, status := .good, eop := false, eoi := false }
def pos0 : PosSt :=
  { e := 3, age := 2, bank := false, digit := 0, eop := false, eoi := false, status := .good, seq := 9, granule := 0, pass := 0
    els := [], exps := [], scales := [], lanes := [], pstacks := [], row := 0, item := none }
/-- One position at its third cell, another at the last cell of the field. -/
def fieldIn : FieldSt := { field0 with inArray := [{ pos0 with age := 126 }, pos0] }
theorem wit_FieldsStepAndStop_step : fieldIn.outRoom = true ∧ fieldIn.west.findD 0 [] = [] ∧ fieldIn.passOpen = false ∧ fieldIn.discard = [] ∧
    after (.tensorStep 0 none) (onField fieldIn) (fun t =>
      ((t.fields.findD 0 field0).t, (t.fields.findD 0 field0).inArray.map fun p => (p.e, p.seq, p.age)) = (0, [(3, 9, 3)])) = true := by decide +kernel
def fieldOpen : FieldSt := { fieldIn with passOpen := true, t := 5, west := [(0, [seg0])] }
theorem wit_FieldsStepAndStop_enters : fieldOpen.positionReady = true ∧ fieldOpen.outRoom = true ∧
    after (.tensorStep 0 none) (onField fieldOpen) (fun t =>
      ((t.fields.findD 0 field0).t, (t.fields.findD 0 field0).inArray.map fun p => (p.e, p.seq, p.age)) = (6, [(3, 9, 3), (5, 0, 1)])) = true := by decide +kernel
def fieldDry : FieldSt := { fieldIn with passOpen := true }
def fieldFull : FieldSt :=
  { fieldOpen with out := [(63, List.replicate 16 { tag := {}, node := {}, level := 0, row := 0, col := 0, digits := (0, 0), item := none })] }
theorem wit_FieldsStepAndStop_stall : fieldDry.positionReady = false ∧ fieldFull.outRoom = false ∧
    after (.tensorStep 0 none) (onField fieldDry) (fun t => t = onField fieldDry) = true ∧
    after (.tensorStep 0 none) (onField fieldFull) (fun t => t = onField fieldFull) = true := by decide +kernel
def fieldFed : FieldSt := { field0 with west := [(0, [seg0])], had := [true], prevBank := some true }
def fieldSwap : FieldSt := { field0 with west := [(0, [seg0])], prevBank := some false }
def recValid (f : FieldSt) : State := (onField f).wr R.TNS_PASSREC.VALID 1 0 0
theorem wit_FieldsStepAndStop_release : seg0.granule % fieldFed.h = 0 ∧ (recValid fieldFed).flag R.TNS_PASSREC.VALID 0 0 = true ∧
    (fieldFed.isSwap true = false ∧ fieldSwap.isSwap true = true ∧ fieldSwap.loadDone 1 = false) ∧
    after (.passRelease 0) (recValid fieldFed) (fun t => (t.fields.findD 0 field0).passOpen = true ∧ (t.fields.findD 0 field0).passes = 1) = true ∧
    after (.passRelease 0) (recValid fieldSwap) (fun t => t.fields = [(0, { fieldSwap with hold := true })]) = true ∧
    (onField fieldFed).flag R.TNS_PASSREC.VALID 0 0 = false ∧
    after (.passRelease 0) (onField fieldFed) (fun t => t.flag R.TNS_ERR.GRANULE_ALIGN 0) = true := by decide +kernel
def fieldStopping : FieldSt := { field0 with stopping := true, taken := [(3, 0)] }
theorem wit_FieldsStepAndStop_stop : (fieldStopping.inArray = [] ∧ ∀ e ∈ fieldStopping.taken, e.2 = 0) ∧
    after (.fieldStopped 0) (onField fieldStopping)
      (fun t => t.fields = [(0, { fieldStopping with stopping := false, stopped := true })]) = true := by decide +kernel

/-- -128 times -128 in every one of 64 rows. -/
theorem wit_Int8LaneIsExact : ((List.replicate 64 (0x80#8, 0x80#8)).length ≤ 64) ∧
    ((List.replicate 64 (0x80#8, 0x80#8)).foldl (fun ln x => laneProduct .int8 0 0 0 0 ln x.1.toNat x.2.toNat) ({} : Lane)).s1 = 1048576 := by
  decide +kernel
theorem wit_ExactTreeAddition : (¬ ((3 : Int) = 0 ∧ false = false) ∧ (-(2 ^ 127) ≤ (3 * 2 ^ 2 + 5 : Int) ∧ (3 * 2 ^ 2 + 5 : Int) < 2 ^ 127)) ∧
    nodeAdd true { n := 3, x := 2 } { n := 5, x := 0, s := true } = { n := 17, x := 0, s := true } := by decide +kernel
/-- FP32 1.5, BF16 quiet NaN, FP16 least subnormal. -/
theorem wit_FloatCodesRoundTrip : (FFmt.fp32.decode 0x3FC00000 ≠ .nan ∧ FFmt.bf16.decode 0x7FFF = .nan) ∧
    FFmt.fp32.decode 0x3FC00000 = .fin false 0xC00000 (-23) ∧ FFmt.fp16.toBits (FFmt.fp16.decode 1) = 1 ∧
    FFmt.bf16.toBits (FFmt.bf16.decode 0x7FFF) = FFmt.bf16.quietNan := by decide +kernel

def node0 : WaitNode := { reduction := 0, row := 0, col := 0, granule := 0, level := 0, node := { n := 5 }, tag := { stream := 7 }, item := some ⟨1, 1⟩ }
def plan0 : SplitPlan := { reduction := 0, granules := 2, nodes := [(0, 0), (1, 0)], rootLevel := 1, stream := 7 }
def combining (plans : List SplitPlan) : State :=
  { (ready.wr R.VEC_COMB_CFG.SIZE 2 0).wr R.VEC_STATE.STOPPED 0 0 with comb := [(0, { plans := plans }), (1, { forward := [node0] })] }
def src1 (c : Ecc) : Instr := .combiningNodeArrive 0 (.stage 1) c
theorem wit_CombiningNodesArrive_full : ready.rd R.VEC_COMB_CFG.SIZE 0 ≤ ready.rd R.VEC_STATE.COMB_USED 0 ∧
    after (src1 .clean) ready (fun t => t = ready) = true := by decide +kernel
theorem wit_CombiningNodesArrive_stopped :
    let s := (combining [plan0]).wr R.VEC_STATE.STOPPED 1 0
    s.combRuns 0 = false ∧ (combining [plan0]).combRuns 0 = true ∧ (combining [plan0]).sourceNode 0 (.stage 2) = none ∧ after (src1 .clean) s (fun t => t = s) = true := by decide +kernel
theorem wit_CombiningNodesArrive_plan : (combining []).flag R.VEC_STATE.STOPPED 0 = false ∧
    (combining []).rd R.VEC_STATE.COMB_USED 0 < (combining []).rd R.VEC_COMB_CFG.SIZE 0 ∧
    ((combining []).combOf 1).forward = [node0] ∧
    (((combining []).combOf 0).plans.find? fun p => p.stream = node0.tag.stream && p.nodes.contains (0, 0)) = none ∧
    after (src1 .clean) (combining []) (fun t => t.flag R.VEC_ERR.COMB_PLAN 0 && (t.failed.find ⟨1, 1⟩).isSome) = true ∧
    after (src1 .uncorrectable) (combining []) (fun t => t.flag R.VEC_ERR.ECC_UNCORR 0) = true := by decide +kernel
def joins (p : SplitPlan) (s : State) : WaitNode × Bool × List WaitNode :=
  combine ((OpFormat.ofCode (s.rd R.COR_NUMCFG.FORMAT 0)).getD .int8).exact p (p.rootLevel + 1) node0 (s.combOf 0).waiting
theorem wit_CombiningNodesArrive_wait : (((combining [plan0]).combOf 0).plans.find? fun p => p.stream = 7 && p.nodes.contains (0, 0)) = some plan0 ∧
    (combining [plan0]).flag R.COR_NUMCFG.ARRIVAL 0 = false ∧ plan0.unaligned = false ∧ joins plan0 (combining [plan0]) = (node0, false, []) ∧
    after (src1 .clean) (combining [plan0]) (fun t => (t.combOf 0).waiting = [node0] ∧ (t.combOf 1).forward = []) = true := by
  decide +kernel
/-- The sibling of `node0` waits: 5 and 6 join to the root 11 of two granules, converted to INT32. -/
def siblingWaits : State :=
  let s := combining [plan0]
  { s with comb := s.comb.modify 0 fun c => { c with waiting := [{ node0 with granule := 1, node := { n := 6 } }] } }
theorem wit_CombiningNodesArrive_root : (joins plan0 siblingWaits).2 = (true, []) ∧ plan0.final = true ∧ plan0.slice = none ∧ plan0.vector = none ∧
    after (src1 .clean) siblingWaits (fun t => (t.combOf 0).waiting = [] ∧ ((t.combOf 0).out.map fun x => x.2.1) = [11]) = true := by
  decide +kernel
/-- The first of two nodes in arrival order begins the sum. -/
theorem wit_CombiningNodesArrive_arrival : ((combining [plan0]).wr R.COR_NUMCFG.ARRIVAL 1 0).flag R.COR_NUMCFG.ARRIVAL 0 = true ∧ plan0.nodes.length ≠ 1 ∧
    after (src1 .clean) ((combining [plan0]).wr R.COR_NUMCFG.ARRIVAL 1 0) (fun t => (t.combOf 0).arrival = [(node0, 1)] ∧ (t.combOf 1).forward = []) = true := by
  decide +kernel
/-- A node that core store holds at address 64 as 32 bytes with n = 5. -/
theorem wit_CombiningNodesArrive_store : let s : State := { combining [plan0] with coreStore := [⟨64, 5⟩] }
    ((s.sourceNode 0 (.store 64 7 0 0 0 0 ⟨1, 1⟩)).map fun x => (x.1.node.n, x.1.granule, x.1.level)) = some (5, 0, 0) ∧
    after (.combiningNodeArrive 0 (.store 64 7 0 0 0 0 ⟨1, 1⟩) .clean) s (fun t => (t.combOf 0).waiting.map (fun w => w.node.n) = [5]) = true := by decide +kernel
/-- A pass of a borrow context whose FEEDs have not all completed waits. -/
theorem wit_FieldsStepAndStop_borrow :
    let c : Ctx := { kind := .borrow, group := 0, cluster := 0, loose := true, code := 0, row := 0, col := 0, res := .resident }
    let s : State := { recValid fieldFed with sched := { ctxs := [((1, 0), c)] } }
    fieldFed.passFed = false ∧ s.borrowAt 0 = true ∧ after (.passRelease 0) s (fun t => (t.fields.findD 0 field0).passOpen = false) = true := by
  decide +kernel
/-- A column of a field whose south edge holds one result. -/
def fieldOut : FieldSt :=
  { field0 with out := [(2, [{ tag := { stream := 7 }, node := { n := 5 }, level := 0, row := 0, col := 0, digits := (0, 0), item := none }])] }
theorem wit_CombiningNodesArrive_field :
    after (.combiningNodeArrive 0 (.field 0 2) .clean) { (combining [plan0]) with fields := [(0, fieldOut)] }
      (fun t => (t.fields.findD 0 field0).out.findD 2 [] = [] ∧ (t.combOf 0).waiting.length = 1) = true := by decide +kernel
/-! ### Chapter 4 -/

/-- A vector engine that runs at site 0. -/
def vrun : State := ready.wr R.VEC_STATE.STOPPED 0 0
/-- Register 0 holds 1.5 in every element, register 1 holds 2.25 and a quiet NaN. -/
def vecs : State := { vrun with eng := { vregs := [((0, 0), List.replicate 128 0x3FC00000), ((0, 1), 0x40100000 :: List.replicate 127 0x7FC00000)] } }
theorem wit_VectorElementwise : (vecs.flag R.VEC_STATE.STOPPED vc.site = false ∧ vc.ecc = .clean ∧ vc.store = .clean) ∧
    after (.vecAdd vc (vr 0) (vr 1)) vecs (fun t => (t.vread 0 (vr 3) 2) = [0x40700000, 0x7FC00000]) = true ∧
    after (.vecSub vc (vr 0) (vr 1)) vecs (fun t => (t.vread 0 (vr 3) 1) = [0xBF400000]) = true := by decide +kernel
theorem test_vec_fma : after (.vecFma vc (vr 0) (vr 0) (vr 1)) vecs (fun t => (t.vread 0 (vr 3) 1) = [0x40900000]) = true := by decide +kernel
/-- R122: a NaN operand gives the quiet NaN, and -0 is below +0. -/
theorem test_vec_max : after (.vecMax vc (vr 0) (vr 1)) vecs (fun t => (t.vread 0 (vr 3) 2) = [0x40100000, 0x7FC00000]) = true := by decide +kernel
theorem wit_VectorWriteReadsBack : ([1, 2 ^ 32 - 1].length ≤ 128 ∧ (∀ v ∈ [1, 2 ^ 32 - 1], v < 2 ^ 32)) ∧ (ready.vreg 0 0).length = 128 ∧
    Mem.wf ready.coreStore = true ∧ 0x17FFF8 + 2 * 4 ≤ coreStoreSize ∧
    (ready.vwrite 0 ⟨.store 0x17FFF8, false⟩ [1, 2 ^ 32 - 1]).vread 0 ⟨.store 0x17FFF8, false⟩ 2 = [1, 2 ^ 32 - 1] ∧
    (ready.vwrite 0 (vr 31) [1, 2 ^ 32 - 1]).vread 0 (vr 31) 2 = [1, 2 ^ 32 - 1] := by decide +kernel
/-- The piece of elements 4 to 7 of a sum goes to the combining stage as the node of its place. -/
theorem wit_VectorReductionsAndTables_piece : after (.reduceSum vc (vr 0) 4 (some { first := 4, level := 2, stream := 9 })) vecs
    (fun t => (((t.comb.findD 0 {}).forward.map fun v => (v.granule, v.level, v.tag.stream, v.vec.map FFmt.fp64.toBits)) = [(4, 2, 9, some 0x4018000000000000)])) = true := by
  decide +kernel
/-- A tail piece of one element -0 at level 2 is padded with +0, so its sum is +0. -/
theorem wit_VectorReductionsAndTables_tail :
    after (.reduceSum vc (vr 0) 1 (some { first := 4, level := 2, stream := 9 })) { vecs with eng := { vregs := [((0, 0), List.replicate 128 0x80000000)] } }
      (fun t => (((t.comb.findD 0 {}).forward.map fun v => v.vec.map FFmt.fp64.toBits)) = [some 0]) = true := by decide +kernel
/-- Four elements of 1.5 sum to 6; the lowest index of an extreme wins. -/
theorem wit_VectorReductionsAndTables : (vecs.flag R.VEC_STATE.STOPPED vc.site = false ∧ vc.ecc = .clean ∧ vc.store = .clean) ∧
    after (.reduceSum vc (vr 0) 4 none) vecs (fun t => (t.vread 0 (vr 3) 1) = [0x40C00000]) = true ∧
    after (.argmax vc (vr 0) 4) vecs (fun t => (t.vread 0 (vr 3) 1) = [0]) = true := by decide +kernel
def tables : State := { vrun with eng := { ftab := [(0, ⟨1, 1, 0, 0, 0, 0, 0⟩), (1, ⟨2, 2, 0, 0, 0, 0, 0⟩), (2, ⟨3, 3, 0, 0, 0, 0, 0⟩), (3, ⟨4, 4, 0, 0, 0, 0, 0⟩)] } }
theorem wit_VectorReductionsAndTables_slots : tables.eng.ftab.find 0 = some ⟨1, 1, 0, 0, 0, 0, 0⟩ ∧ tables.tableSlot 0 1 = some ⟨1, 1, 0, 0, 0, 0, 0⟩ ∧
    tables.tableSlot 2 3 = some ⟨3, 3, 0, 0, 0, 0, 0⟩ ∧ tables.tableSlot 3 4 = some ⟨4, 4, 0, 0, 0, 0, 0⟩ := by decide +kernel
/-- Item 1 of queue 1 runs in its pipeline. -/
def vrec : AccRec := { epoch := 0, owner := 5, sec := 0, ns := 0, words := [], digest := 0, released := true }
def vqueue : QueueSt :=
  { owner := 5, loc := 0, space := 4, msgFed := false, sqLog := 4, cqLog := 4, msgFrom := 0, sqBase := 0, cqBase := 0, ctrl := 0, home := 0
    journal := 0, items := [(1, vrec)] }
def vqueued : State := { vrun with que := { queues := [(1, vqueue)] } }
theorem wit_VectorReductionsAndTables_invalid : vqueued.tableSlot 5 6 = none ∧ vqueued.vecItem { vc with item := some ⟨1, 1⟩ } = some ⟨1, 1⟩ ∧
    after (.intervalFunction { vc with item := some ⟨1, 1⟩ } 5 6 (vr 0)) vqueued
      (fun t => t.flag R.VEC_ERR.TABLE_INVALID 0 && (t.failed.find ⟨1, 1⟩).isSome && decide (t.eng = vqueued.eng)) = true := by decide +kernel

theorem wit_EngineCodeErrors_store : VOpnd.inStore ⟨.store 64, false⟩ = true ∧
    after (.vecAbs { vc with store := .uncorrectable, item := some ⟨1, 1⟩ } ⟨.store 64, false⟩) vqueued
      (fun t => t.flag R.MOV_ERR.CS_UNCORR 0 && (t.failed.find ⟨1, 1⟩).isSome && decide (t.eng = vqueued.eng)) = true := by decide +kernel
theorem wit_EngineCodeErrors_vector : ready.flag R.VEC_STATE.STOPPED 0 = true ∧ vrun.flag R.VEC_STATE.STOPPED 0 = false ∧
    after (.vecAdd vc (vr 0) (vr 1)) ready (fun t => t = ready) = true ∧
    after (.vecAdd { vc with ecc := .corrected } (vr 0) (vr 1)) vrun (fun t => t.rd R.VEC_ECC_CORR.COUNT 0 = 1) = true ∧
    after (.vecAdd { vc with ecc := .uncorrectable, item := some ⟨1, 1⟩ } (vr 0) (vr 1)) vqueued
      (fun t => t.flag R.VEC_STATE.STOPPED 0 && t.flag R.VEC_ERR.ECC_UNCORR 0 && (t.failed.find ⟨1, 1⟩).isSome) = true := by decide +kernel

/-- A signal engine that runs: greg 1 = 0x7FFF, greg 2 = 0x8000. -/
def sig : State := { ready.wr R.SIG_STATE.RUNNING 1 0 with
  eng := { gregs := [((0, 1), 0x7FFF), ((0, 2), 0x8000)], sigProg := [(0, [0])] }, str := { ports := [(.sigIn 0, { stream := 1, depthLog2 := 4 }), (.sigOut 0, { stream := 2, depthLog2 := 4, credits := 4 })] } }
theorem wit_EngineCodeErrors_signal : sig.sigReady 0 = true ∧ sig.engineItem 0 (some ⟨1, 1⟩) = some ⟨1, 1⟩ ∧
    after (.br 0 9 .uncorrectable (some ⟨1, 1⟩)) sig (fun t => t.flag R.SIG_STATE.STOPPED 0 && t.rd R.SIG_STATE.PC 0 = 0) = true ∧
    after (.mac 0 (.reg 1) (.reg 2) .uncorrectable (some ⟨1, 1⟩)) sig
      (fun t => t.flag R.SIG_STATE.STOPPED 0 && !t.flag R.SIG_STATE.RUNNING 0 && t.flag R.SIG_STATUS.ECC_UNCORR 0 && (t.failed.find ⟨1, 1⟩).isSome) = true := by
  decide +kernel
/-- MODE 0x215: FRAC is 1, so -1 times -1 gives 2^31, and MSUZ its negation. -/
theorem wit_SignalMultiplies : (sig.sigReady 0 = true ∧ sig.eng.sigRepeat.findD 0 0 = 0) ∧
    after (.macz 0 (.reg 2) (.reg 2) .clean none) sig (fun t => t.acc 0 = (if sig.flag R.SIG_MODE.FRAC 0 then 2 ^ 31 else 2 ^ 30)) = true ∧
    after (.msuz 0 (.reg 2) (.reg 2) .clean none) sig (fun t => t.acc 0 = (if sig.flag R.SIG_MODE.FRAC 0 then -(2 ^ 31) else -(2 ^ 30))) = true := by
  decide +kernel
/-- ACC at its greatest value; the sum saturates with SAT_ACC and wraps without. -/
def sigTop (sat : Nat) : State := ((sig.wr R.SIG_ACC.ACC (2 ^ 39 - 1) 0).wr R.SIG_ACC.ACC_SX 0 0).wr R.SIG_MODE.SAT_ACC sat 0
theorem wit_SignalMultiplies_overflow : (sigTop 1).acc 0 = 2 ^ 39 - 1 ∧
    after (.mac 0 (.reg 1) (.reg 1) .clean none) (sigTop 1) (fun t => t.acc 0 = 2 ^ 39 - 1 ∧ t.rd R.SIG_STATUS.ACC_OVF 0 = 1) = true ∧
    after (.mac 0 (.reg 1) (.reg 1) .clean none) (sigTop 0) (fun t => t.acc 0 < 0 ∧ t.rd R.SIG_STATUS.ACC_OVF 0 = 1) = true := by decide +kernel
theorem wit_SignalRegisterOperations : (sig.sigReady 0 = true ∧ sig.eng.sigRepeat.findD 0 0 = 0) ∧
    (∀ n : Nat, n < 16 → sig.greg 0 n < 65536) ∧
    after (.sigSub 0 3 1 2 .clean none) sig (fun t => t.greg 0 3 = 0xFFFF) = true ∧
    after (.sigArithmeticShift 0 3 2 false 15 .clean none) sig (fun t => t.greg 0 3 = 0xFFFF) = true ∧
    after (.sigLogicalShift 0 3 2 false 15 .clean none) sig (fun t => t.greg 0 3 = 1) = true ∧
    after (.move 0 (.reg 4) (.reg 2) .clean none) sig (fun t => t.greg 0 4 = 0x8000) = true := by decide +kernel
theorem wit_SignalRegisterOperations_store :
    after (.stacc 0 (.reg 4) .clean none) (sigTop 1) (fun t => t.greg 0 4 = 0x7FFF && t.flag R.SIG_STATUS.STORE_SAT 0) = true ∧
    after (.setag 0 2 .base (.imm 5) .clean none) sig (fun t => t.rd R.SIG_BASE.BASE 0 2 = 5) = true := by decide +kernel
theorem wit_SignalRegisterOperations_memory : sig.sigRead 0 (.reg 2) < 65536 ∧
    after (.move 0 (.x 0 true) (.reg 2) .clean none) sig (fun t => t.sigWord 0 .x (sig.genAddr 0 0) = 0x8000) = true ∧
    after (.move 0 (.y 0 true) (.reg 2) .clean none) sig (fun t => t.sigWord 0 .y (sig.genAddr 0 8) = 0x8000) = true ∧
    after (.stacc 0 (.x 0 false) .clean none) (sigTop 1) (fun t => t.sigWord 0 .x ((sigTop 1).genAddr 0 0) = 0x7FFF) = true ∧
    after (.stacc 0 (.reg 4) .clean none) ((sigTop 1).wr R.SIG_MODE.SAT_STORE 0 0)
      (fun t => t.greg 0 4 = (accRound ((sigTop 1).rd R.SIG_MODE.ROUND 0) ((sigTop 1).rd R.SIG_MODE.SHIFT 0) (2 ^ 39 - 1) % 65536).toNat) = true ∧
    after (.setag 0 2 .len (.imm 32768) .clean none) sig (fun t => t.rd R.SIG_LEN.LEN 0 2 = 32768) = true ∧
    after (.setag 0 2 .index (.imm 0x10003) .clean none) sig (fun t => t.rd R.SIG_INDEX.INDEX 0 2 = 3 % sig.genLen 0 2) = true := by decide +kernel
theorem wit_SignalFlow : ((sig.port (.sigIn 0)).map (fun v => v.fifo) = some [] ∧ (sig.port (.sigOut 0)).map (fun v => v.packed) = some []) ∧
    after (.br 0 9 .clean none) sig (fun t => t.rd R.SIG_STATE.PC 0 = 9) = true ∧
    after (.brz 0 1 9 .clean none) sig (fun t => t.rd R.SIG_STATE.PC 0 = 1) = true ∧ after (.brnz 0 1 9 .clean none) sig (fun t => t.rd R.SIG_STATE.PC 0 = 9) = true ∧
    after (.in_ 0 (.reg 3) true .clean none) sig (fun t => t.rd R.SIG_STATE.WAIT 0 = 1 ∧ t.rd R.SIG_STATE.PC 0 = 0) = true ∧
    after (.waitbeat 0 .clean none) sig (fun t => t.rd R.SIG_STATE.WAIT 0 = 3) = true := by decide +kernel
def headFlit : Entry := { tag := { seq := 3, eoi := true }, words := [0x0004000300020001, 0, 0, 0] }
def sigPorts (taken : Nat) (packed : List Nat) (full : Bool) : State :=
  let s := sig
  { s with str := { ports := [(.sigIn 0, { stream := 1, depthLog2 := 4, fifo := [headFlit], taken := taken }),
      (.sigOut 0, { stream := 2, depthLog2 := 1, fifo := if full then [headFlit, headFlit] else [], packed := packed })] } }
theorem wit_SignalFlow_words : ((sigPorts 1 [9] false).port (.sigIn 0)).map (fun v => (v.taken, v.stopped)) = some (1, false) ∧
    after (.in_ 0 (.reg 3) false .clean none) (sigPorts 1 [9] false) (fun t => t.greg 0 3 = 2 ∧ (t.sigItem 0).tag.seq = 3) = true ∧
    after (.in_ 0 (.reg 3) false .clean none) (sigPorts 15 [9] false) (fun t => (t.port (.sigIn 0)).map (fun v => (v.fifo, v.taken)) = some ([], 0)) = true ∧
    after (.out 0 (.word (.reg 1)) false .clean none) (sigPorts 1 [9] false) (fun t => (t.port (.sigOut 0)).map (fun v => v.packed) = some [9, 0x7FFF]) = true ∧
    after (.out 0 (.word (.reg 1)) true .clean none) (sigPorts 1 [9] false) (fun t => (t.port (.sigOut 0)).map (fun v => v.fifo) =
      some [{ tag := { eoi := true }, words := [0x7FFF0009, 0, 0, 0] }]) = true ∧
    after (.out 0 .nothing true .clean none) (sigPorts 1 [9] true) (fun t => t.rd R.SIG_STATE.WAIT 0 = 2 ∧ t.rd R.SIG_STATE.PC 0 = 0) = true ∧
    after (.waitbeat 0 .clean none) (sigPorts 1 [9] false) (fun t => (t.port (.sigOut 0)).map (fun v => (v.fifo.length, v.packed)) = some (1, [])) = true := by
  decide +kernel
/-- An OUT for an item whose last flit has left sends nothing. -/
theorem wit_SignalFlow_ended :
    let s : State := { sigPorts 0 [] false with str := { ports := [(.sigOut 0, { stream := 2, depthLog2 := 1, ended := [3] })] },
                                                eng := { sigItem := [(0, { tag := { seq := 3 }, words := [] })] } }
    (s.eng.sigItem.find 0 ≠ none ∧ (s.sigItem 0).tag.seq = 3) ∧
    after (.out 0 .nothing true .clean none) s (fun t => t.rd R.SIG_STATE.PC 0 = 1 ∧ (t.port (.sigOut 0)).map (fun v => v.fifo) = some []) = true := by
  decide +kernel
theorem test_repeat : after (.repeat 0 5 .clean none) sig (fun t => t.eng.sigRepeat.findD 0 0 = 4) = true := by decide +kernel

/-! ### FEC blocks, streams and movers -/

/-- Eight descriptor words of an encode of a polar block of 12 bits (OP 3), of an LDPC decode (OP 1, BG1, Z_C 2, MAX_ITER 3, 4 rows, K' 44)
and of an illegal one (OP 0). -/
def polarWords : List Nat := [3, 0, 0, 16 + 9 * 2 ^ 46 + 12 * 2 ^ 50, 0, 0, 0, 0]
def ldpcWords : List Nat := [1 + 2 * 2 ^ 5 + 3 * 2 ^ 14 + 4 * 2 ^ 21 + 44 * 2 ^ 27, 0, 0, 0, 0, 0, 0, 0]
def flits (ws : List Nat) : List Entry := [⟨{ seq := 1 }, ws.take 4, none⟩, ⟨{ eop := true }, ws.drop 4, none⟩]
/-- Queue 1 whose only item, 1, is running. -/
def running1 : QueueMgr := { queues := [(1, { owner := 5, loc := 0, space := 0, msgFed := false, sqLog := 4, cqLog := 4, msgFrom := 0, sqBase := 0, cqBase := 0, ctrl := 0, home := 0, journal := 0, items := [(1, { epoch := 0, owner := 5, sec := 0, ns := 0, words := [], digest := 0, released := true })] })] }
def fecFed (ws : List Nat) : State :=
  { ready.wr R.FEC_CTRL.IN_SERVICE 1 0 with que := running1, str := { ports := [(.fecIn 0 1, { stream := 7, depthLog2 := 4, fifo := flits ws })] } }
theorem wit_FecDescriptorQueues : (fecFed ldpcWords).flag R.FEC_CTRL.IN_SERVICE 0 = true ∧ (fecFed []).itemAt (some ⟨1, 1⟩) 1 = some ⟨1, 1⟩ ∧ (FecDesc.ofWords ldpcWords).legal = true ∧
    (FecDesc.ofWords polarWords).legal = true ∧ (FecDesc.ofWords [0, 0, 0, 0, 0, 0, 0, 0]).legal = false ∧
    after (.fecDescriptor 0 1 none) (fecFed ldpcWords) (fun t => (t.fecBlock 0).decQ.length = 1 ∧ (t.port (.fecIn 0 1)).map (fun p => p.fifo) = some []) = true ∧
    after (.fecDescriptor 0 1 none) (fecFed polarWords) (fun t => t.rd R.FEC_STATE.ENC_QUEUE 0 = 1) = true ∧
    after (.fecDescriptor 0 1 (some ⟨1, 1⟩)) (fecFed [0, 0, 0, 0, 0, 0, 0, 0])
      (fun t => t.flag R.FEC_ERR.DESC_FORMAT 0 && decide ((t.fecBlock 0).reorder.map (fun r => r.word) = [128]) && (t.failed.find ⟨1, 1⟩).isSome) = true := by
  decide +kernel
def fecE (ws : List Nat) : FecEntry := ⟨ws, {}, 7, 0, none⟩
/-- The second entry's deadline, 1 s and 5 ns, has passed at 2 s; the first has none. -/
def lateWords : List Nat := ldpcWords.set 1 (2 ^ 32 + 5)
def fecWaits : State :=
  { ready.wr R.FEC_CTRL.IN_SERVICE 1 0 with count := 2 * 10 ^ 9 * nsUnit, eng := { fec := [(0, { decQ := [fecE ldpcWords, fecE lateWords], encQ := [fecE polarWords] })] } }
theorem wit_FecDescriptorQueues_start : earliest fecWaits.fecDeadline (fecWaits.fecBlock 0).decQ = some (fecE lateWords) ∧
    (fecWaits.fecDeadline (fecE lateWords)).any fecWaits.passed = true ∧ (fecWaits.fecBlock 0).dec0 = none ∧
    earliest fecWaits.fecDeadline (fecWaits.fecBlock 0).encQ = some (fecE polarWords) ∧
    after (.decodeStart 0 0) fecWaits (fun t => t.rd R.FEC_EXPIRED.COUNT 0 = 1 ∧ (t.fecBlock 0).decQ = [fecE ldpcWords]) = true ∧
    after (.encodeStart 0) fecWaits (fun t => (t.fecBlock 0).enc = some (fecE polarWords) ∧ t.rd R.FEC_STATE.ENC_BUSY 0 = 1) = true := by decide +kernel
/-- The decoder and the encoder of block 0 hold a block, and owner 0x7FF owns the block of cluster store. -/
def fecBusy : State :=
  { ready with mem := { blockOwner := [((0, 0), 0x7FF)] }, eng := { fec := [(0, { dec0 := some (fecE ldpcWords), enc := some (fecE polarWords) })] } }
theorem wit_FecCodeBlocks : Mem.wf fecBusy.clusterStore = true ∧ (fecBusy.fecBlock 0).dec0 = some (fecE ldpcWords) ∧
    (∀ a : Nat, a < 64 → fecBusy.cluOwns 0 a 0x7FF = true ∧ cluAddr 0 a / 8 ∉ fecBusy.mem.cluBad) ∧
    (FecDesc.ofWords ldpcWords).cols = 26 ∧
    after (.decodeDone 0 0 .uncorrectable .clean) fecBusy (fun t => t.flag R.FEC_ERR.ECC_UNCORR 0 && decide ((t.fecBlock 0).dec0 = none)
      && decide ((t.fecBlock 0).reorder.map (fun r => r.word) = [256])) = true ∧
    after (.encodeDone 0 .uncorrectable .clean) fecBusy (fun t => t.flag R.FEC_ERR.ECC_UNCORR 0 && decide ((t.fecBlock 0).enc = none)
      && decide ((t.fecBlock 0).reorder.map (fun r => (r.word, r.tag.status)) = [(256, .failed)])) = true ∧
    0 < (FecDesc.ofWords ldpcWords).zc := by decide +kernel
def fecGives : State :=
  { ready with eng := { fec := [(0, { reorder := [⟨7, 1, {}, 6⟩, ⟨7, 0, {}, 5⟩], resultPort := [(7, .fecOut 0 2)] })] },
               str := { ports := [(.fecOut 0 2, { stream := 8, depthLog2 := 0 })] } }
theorem wit_FecCodeBlocks_emit : ((fecGives.fecBlock 0).resultPort.find 7 = some (.fecOut 0 2) ∧
    (fecGives.fecBlock 0).reorder.find? (fun x => x.stream = 7 && x.order = (fecGives.fecBlock 0).emitted.findD 7 0) = some ⟨7, 0, {}, 5⟩) ∧
    after (.fecResultEmit 0 7) fecGives (fun t => (t.port (.fecOut 0 2)).map (fun v => v.fifo) = some [⟨{}, [5, 0, 0, 0], none⟩] ∧
      (t.fecBlock 0).reorder = [⟨7, 1, {}, 6⟩]) = true := by decide +kernel

/-- Stream 7 of cluster 0, from egress 0 of site 0 over site 1 to ingress 3 of site 1; owner 5 on both sites. -/
def stream7 : StreamRec := { owner := 5, producer := .egress 0 0, consumer := .ingress 1 3, glade := false, res := 0 }
def flit7 : Entry := ⟨{ owner := 5, stream := 7 }, [1, 2, 3, 4], none⟩
def net (credits : Nat) (bufs : Tab BufKey (List Entry)) : State :=
  { ((ready.wr R.STR_SITE.OWNER 5 0).wr R.STR_SITE.OWNER 5 1).wr R.SCH_TEN_CFG.STATE 1 0 6 with str := {
    ports := [(.egress 0 0, { stream := 7, depthLog2 := 2, fifo := [flit7], credits := credits }), (.ingress 1 3, { stream := 7, depthLog2 := 2 })],
    streams := [((0, 7), stream7)], routes := [((0, 7), ⟨.east, 0, false, 0⟩), ((1, 7), ⟨.localPort, 3, false, 0⟩)], bufs := bufs, used := [((0, .east, 9), 3)] } }
theorem wit_FlitsMoveByCredits_send : (net 1 []).stream 0 7 = some stream7 ∧ (net 1 []).str.routes.find (0, 7) = some ⟨.east, 0, false, 0⟩ ∧
    after (.flitSend (.egress 0 0) none .clean) (net 1 []) (fun t => (t.port (.egress 0 0)).map (fun v => (v.credits, v.fifo)) = some (0, []) ∧
      t.buf ⟨0, .localPort, false⟩ = [flit7]) = true ∧
    after (.flitSend (.egress 0 0) none .clean) (net 0 []) (fun t => t.rd (R.STR_STATE.OUT_WAIT 0) 0 = 1 ∧ t.str.bufs = []) = true := by decide +kernel
/-- A unit's flit of item 0 with two elements of a vector register, formed from nothing: it waits behind the one there. -/
theorem wit_FlitsMoveByCredits_unit :
    let s := { (net 0 []).wr R.VEC_STATE.STOPPED 0 0 with eng := { vregs := [((0, 2), [8, 9])] } }
    s.flag R.VEC_STATE.STOPPED 0 = false ∧
    after (.flitSend (.egress 0 0) (some { src := .reg 2 0 1, last := true }) .clean) s
      (fun t => (t.port (.egress 0 0)).map (fun v => v.fifo.map fun e => (e.words, e.tag.eoi)) = some [([1, 2, 3, 4], false), ([8 + 9 * 2 ^ 32, 0, 0, 0], true)]) = true := by
  decide +kernel
def net1 : State := net 1 [(⟨0, .localPort, false⟩, [flit7])]
theorem wit_FlitsMoveByCredits_forward : neighbour 0 .east = some 1 ∧
    net1.chooseFlit 0 .east ((net1.candidates 0 .east).filter fun c => net1.routerRoom 1 Dir.east.opposite c.2.1.tag.stream) =
      some ((⟨0, .localPort, false⟩, flit7, ⟨.east, 0, false, 0⟩), true) ∧
    after (.flitForward 0 .east .clean) net1 (fun t => t.buf ⟨1, .west, false⟩ = [flit7] ∧ t.buf ⟨0, .localPort, false⟩ = []) = true ∧
    after (.reservationWindow 0) net1 (fun t => t.usedSlots 0 .east 9 = 0) = true := by decide +kernel
def net2 (e : Entry) : State := net 1 [(⟨1, .west, false⟩, [e])]
def foreign7 : Entry := ⟨{ owner := 6, stream := 7 }, [1, 2, 3, 4], none⟩
def absent7 : Entry := ⟨{ owner := 5, stream := 7, status := .absent }, [1, 2, 3, 4], none⟩
theorem wit_ArrivalsComparedByOwner : (net2 flit7).waitingFor (.ingress 1 3) = some (⟨1, .west, false⟩, flit7) ∧
    (net2 flit7).rd R.STR_SITE.OWNER 1 = 5 ∧ (net2 flit7).isGlade 5 = false ∧ (net2 foreign7).rd R.SCH_TEN_CFG.STATE 0 6 ≠ 0 ∧
    after (.flitArrive (.port (.ingress 1 3)) .clean) (net2 flit7) (fun t => (t.port (.ingress 1 3)).map (fun v => v.fifo) = some [flit7]) = true ∧
    after (.flitArrive (.port (.ingress 1 3)) .clean) (net2 foreign7) (fun t => (t.port (.ingress 1 3)).map (fun v => v.fifo) = some [] ∧
      t.rd R.SCH_TEN_VIOL.STREAM 0 6 = 1) = true ∧
    after (.flitArrive (.port (.ingress 1 3)) .clean) (net2 absent7) (fun t => t.flag R.STR_ERR.STATUS_CLASS 1 &&
      decide ((t.port (.ingress 1 3)).map (fun v => v.fifo.map (fun e => e.tag.status)) = some [.failed])) = true ∧
    after (.flitArrive (.port (.ingress 1 3)) .tagWord) (net2 flit7) (fun t => t.flag R.STR_ERR.TAG_UNCORR 1 &&
      decide ((t.port (.ingress 1 3)).map (fun v => (v.stopped, v.fifo)) = some (true, []))) = true := by decide +kernel
theorem wit_ArrivalsComparedByOwner_store : foreign7.tag.owner ≠ (net 1 []).rd R.STR_SITE.OWNER 1 ∧
    after (.flitArrive (.coreStore 1 foreign7 0) .clean) (net 1 []) (fun t => t.rd R.SCH_TEN_VIOL.STREAM 0 6 = 1 ∧ t.str = (net 1 []).str) = true ∧
    after (.flitArrive (.mover 1 foreign7 0) .clean) (net 1 []) (fun t => t.rd R.SCH_TEN_VIOL.STREAM 0 6 = 1 ∧ t.coreStore = []) = true := by decide +kernel
def taken7 : State := { (net 0 []).wr R.VEC_STATE.STOPPED 0 1 with str := { (net 0 []).str with
  ports := [(.egress 0 0, { stream := 7, depthLog2 := 2 }), (.ingress 1 3, { stream := 7, depthLog2 := 2, fifo := [flit7] })] } }
theorem wit_FlitsMoveByCredits_return : (taken7.consumerRuns (.ingress 1 3) = true ∧
    let s := taken7.wr R.VEC_STATE.STOPPED 1 1
    s.consumerRuns (.ingress 1 3) = false ∧ after (.creditReturn (.ingress 1 3)) s (fun t => t = s) = true) ∧ taken7.stream (PortId.ingress 1 3).cluster 7 = some stream7 ∧ stream7.producer ≠ .ingress 1 3 ∧
    after (.creditReturn (.ingress 1 3)) taken7 (fun t => (t.port (.egress 0 0)).map (fun v => v.credits) = some 1 ∧
      (t.port (.ingress 1 3)).map (fun v => v.fifo) = some []) = true := by decide +kernel

/-- Words of a descriptor of two elements of two bytes: OP, source space and address, destination space and address. -/
def mvWords (op sp src dp dst : Nat) : List Nat :=
  [op + sp * 16 + dp * 128 + 2 ^ 14, src, dst, 2 + 2 ^ 16 + (if op = 4 ∨ op = 5 then 0x100 * 2 ^ 32 else 0), 2, 2 + 0x100 * 2 ^ 32, 0, 0]
def mvDesc (ws : List Nat) : MovDesc := { words := ws, serial := 0, owner := 5, item := some ⟨1, 1⟩ }
/-- Site 0's core store holds 0x1122 0x3344 at 0x40 and an index 0 at 0x100. -/
def movers (m : Mover) : State :=
  { ready.wr R.STR_SITE.OWNER 5 0 with coreStore := [⟨0x40, 0x22⟩, ⟨0x41, 0x11⟩, ⟨0x42, 0x44⟩, ⟨0x43, 0x33⟩],
                                       mem := { movers := [(0, m)], blockOwner := [((0, 0), 5)], extents := [((5, 0), ⟨0, 64, 1, true⟩)] } }
theorem wit_MoverDescriptorsInOrder_post : 0x40 + 64 ≤ coreStoreSize ∧ ((movers {}).mover 0).queue.length < 32 ∧
    after (.descriptorPost 0 0x40 none .clean) (movers {}) (fun t => (t.mover 0).queue.map (fun d => d.words) = [[0x33441122, 0, 0, 0, 0, 0, 0, 0]]) = true ∧
    after (.descriptorPost 0 0x40 none .clean) (movers { queue := List.replicate 32 (mvDesc []) })
      (fun t => t = movers { queue := List.replicate 32 (mvDesc []) }) = true := by decide +kernel
def copyCC : List Nat := mvWords 1 0 0x40 0 0x80
def copyHC : List Nat := mvWords 1 2 0xFE 0 0x80
theorem wit_MoverDescriptorsInOrder_start : (Desc.ofWords copyHC).legal [] none = true ∧ (Desc.ofWords [0, 0, 0, 0, 0, 0, 0, 0]).legal [] none = false ∧
    ((movers { queue := [mvDesc copyHC] }).mover 0).halt = false ∧
    after (.descriptorStart 0 .clean) (movers { queue := [mvDesc copyHC] }) (fun t => (t.mover 0).queue = [] ∧
      (t.mover 0).active.map (fun d => d.todo.map fun r => r.line) = [[0, 1]]) = true ∧
    after (.descriptorStart 0 .clean) (movers { queue := [mvDesc [0, 0, 0, 0, 0, 0, 0, 0]] })
      (fun t => t.flag R.MOV_ERR.DESC_FORMAT 0 && (t.failed.find ⟨1, 1⟩).isSome && (t.mover 0).queue.isEmpty) = true := by decide +kernel
def fenceWords : List Nat := copyCC.set 0 (1 + 2 ^ 14 + 2 ^ 19)
def fenced : State := movers { queue := [mvDesc fenceWords], active := [mvDesc copyCC] }
theorem wit_MoverDescriptorsInOrder_fence : (Desc.ofWords fenceWords).fence = true ∧ (fenced.mover 0).active ≠ [] ∧
    after (.descriptorStart 0 .clean) fenced (fun t => t = fenced) = true ∧ after (.descriptorComplete 0) fenced (fun t => t = fenced) = true := by decide +kernel
def movedOnce : State := movers { active := [{ mvDesc copyCC with moved := true }] }
theorem wit_MoverDescriptorsInOrder_complete : (movedOnce.mover 0).active = [{ mvDesc copyCC with moved := true }] ∧
    after (.descriptorComplete 0) movedOnce (fun t => (t.mover 0).active = [] ∧ t.rd R.MOV_DESC_COUNT.COUNT 0 = 1 ∧ t.rd R.MOV_STATE.IDLE 0 = 1) = true := by
  decide +kernel
def moving (ws : List Nat) : State := movers { active := [mvDesc ws] }
/-- The four movements into core store; the inner destinations are 0x80 and 0x82. -/
theorem wit_MoversMoveElements : ((moving copyCC).mover 0).moving = some (mvDesc copyCC) ∧ Mem.wf (moving copyCC).coreStore = true ∧
    (Desc.ofWords copyCC).elems = [(0, 0), (0, 1)] ∧
    after (.copy 0 .clean) (moving copyCC) (fun t => t.coreStore.readN 0x80 4 = 0x33441122) = true ∧
    after (.gather 0 .clean) (moving (mvWords 4 0 0x40 0 0x80)) (fun t => t.coreStore.readN 0x80 4 = 0x33441122) = true ∧
    after (.scatter 0 .clean) (moving (mvWords 5 0 0x40 0 0x80)) (fun t => t.coreStore.readN 0x80 4 = 0x33441122) = true ∧
    after (.zero 0) (moving (mvWords 6 0 0 0 0x40)) (fun t => t.coreStore = []) = true := by decide +kernel
theorem wit_MoversMoveElements_cluster : (∀ a : Nat, a < 4 → (moving (mvWords 1 0 0x40 1 0)).cluOwns 0 a 5 = true) ∧
    after (.copy 0 .clean) (moving (mvWords 1 0 0x40 1 0)) (fun t => t.clusterStore.readN (cluAddr 0 0) 4 = 0x33441122) = true ∧
    ((moving (mvWords 1 0 0x40 2 0xFE)).lineKey 5 .hbm 0 true).isSome = true ∧ ((moving (mvWords 1 0 0x40 2 0xFE)).lineKey 5 .hbm 1 true).isSome = true ∧
    after (.copy 0 .clean) (moving (mvWords 1 0 0x40 2 0xFE)) (fun t => (t.mover 0).active.map (fun d => d.todo.map fun r => (r.line, r.write)) =
      [[(0, some [(0xFE, 0x22), (0xFF, 0x11)]), (1, some [(0, 0x44), (1, 0x33)])]]) = true := by decide +kernel
/-- A FEED and a LOAD of INT8: one position of two lanes; one column of 64 elements. -/
def feedWords : List Nat := [2 + 2 ^ 21, 0x40, 0x200, 2 + 2 ^ 16, 1, 0, 3, 0]
def loadWords : List Nat := [3, 0x40, 0, 64 + 2 ^ 16, 1, 0, 1, 0]
def feeding (ws : List Nat) : State := { moving ws with fields := [(0, field0)] }
theorem wit_FeedAndLoad : OpFormat.ofCode (Desc.ofWords feedWords).fmt = some .int8 ∧ (feeding feedWords).fieldOf 0 = some (0, field0, 0, 0) ∧
    after (.load 0 [] .clean) (feeding loadWords) (fun t => ((t.fields.findD 0 field0).loads.findD 0 []).map (fun l => l.els.getLast?) = [some 0x22]) = true := by
  decide +kernel
def req0 (id line : Nat) : MovReq := { id := id, desc := 0, space := .hbm, line := line, key := .hbm line, write := none, tag := { owner := 5 } }
def asking (m : Mover) : State := movers { m with active := [{ mvDesc copyHC with todo := [req0 99 0], waiting := [7] }] }
theorem wit_MoverRequests : ((asking {}).mover 0).groupUse (req0 99 0).group < 12 ∧ ((asking {}).mover 0).blocked (req0 99 0) = false ∧
    after (.hbmRequestIssue 0 .clean) (asking {}) (fun t => (t.mover 0).slots = [req0 99 0] ∧ (t.cache 0).inq.length = 1) = true := by decide +kernel
def groupFull : State := asking { slots := (List.range 12).map fun k => req0 k 0 }
theorem wit_MoverRequests_parked : 12 ≤ (groupFull.mover 0).groupUse (req0 99 0).group ∧
    after (.hbmRequestIssue 0 .clean) groupFull (fun t => (t.mover 0).parked = [req0 99 0] ∧ (t.cache 0).inq = []) = true ∧
    after (.hbmRequestIssue 0 .clean) (asking { parked := [req0 5 0] }) (fun t => (t.mover 0).slots = [req0 5 0] ∧ (t.mover 0).parked = []) = true := by decide +kernel
def answered : State := asking { slots := [req0 7 0], resp := [{ req := req0 7 0, data := List.replicate 256 9, failed := false }] }
theorem wit_MoverRequests_answer : (answered.mover 0).resp = [{ req := req0 7 0, data := List.replicate 256 9, failed := false }] ∧
    after (.hbmResponse 0 .clean) answered (fun t => (t.mover 0).slots = [] ∧ (t.mover 0).active.map (fun d => (d.waiting, d.staged.length)) = [([], 1)]) = true := by
  decide +kernel
/-- The answer to another owner's request frees nothing. -/
def strange : State := asking { slots := [req0 7 0], resp := [{ req := { req0 7 0 with tag := { owner := 6 } }, data := List.replicate 256 9, failed := false }] }
theorem wit_MoverRequests_foreign : strange.rd R.STR_SITE.OWNER 0 = 5 ∧
    after (.hbmResponse 0 .clean) strange (fun t => (t.mover 0).slots = [req0 7 0] ∧ (t.mover 0).resp = []) = true := by decide +kernel
def farReq (sp : Space) : MovReq := { req0 99 0 with space := sp }
def farAsking (sp : Space) (m : Mover) : State := movers { m with active := [{ mvDesc copyHC with todo := [farReq sp] }] }
/-- 2,044 requests of 64 bytes are under way, and four more are one line: 2,048 are the most. -/
theorem wit_MoverRequests_host : (farReq .host).hostParts = 4 ∧
    (farAsking .host { host := List.replicate 511 (farReq .host) }).hostRequests false = 2044 ∧
    after (.hbmRequestIssue 0 .clean) (farAsking .host { host := List.replicate 511 (farReq .host) }) (fun t => (t.mover 0).host.length = 512) = true ∧
    after (.hbmRequestIssue 0 .clean) (farAsking .host { host := List.replicate 512 (farReq .host) })
      (fun t => t = farAsking .host { host := List.replicate 512 (farReq .host) }) = true ∧
    after (.hbmRequestIssue 0 .clean) { farAsking .woruri {} with wor := { imports := [((5, 0), ⟨0, 1, true, true, false⟩)] } }
      (fun t => (t.mover 0).fabric = [farReq .woruri]) = true ∧
    after (.hbmRequestIssue 0 .clean) (farAsking .woruri {}) (fun t => (t.mover 0).fabric = [] ∧
      (t.mover 0).active.map (fun d => d.todo) = [[]] ∧ t.rd R.SCH_VIOL_UNBOUND.COUNT = 1) = true := by decide +kernel
theorem wit_MoversMoveElements_code : (Desc.ofWords copyCC).srcSp = 0 ∧
    after (.copy 0 .uncorrectable) (moving copyCC) (fun t => t.flag R.MOV_ERR.CS_UNCORR 0 && decide (t.coreStore = (moving copyCC).coreStore)
      && (t.failed.find ⟨1, 1⟩).isSome) = true := by decide +kernel
/-- A full decode queue and a full reorder buffer take no descriptor. -/
def fecFull (ws : List Nat) (b : FecBlock) : State := { fecFed ws with eng := { fec := [(0, b)] } }
theorem wit_FecDescriptorQueues_full :
    let q : FecBlock := { decQ := List.replicate 256 (fecE ldpcWords) }
    let r : FecBlock := { arrived := [(7, 300)], reorder := List.replicate 256 ⟨7, 1, {}, 6⟩ }
    ((fecFull ldpcWords q).fecBlock 0).decQ.length = 256 ∧ r.room { fecE [0] with order := 300 } = false ∧
    after (.fecDescriptor 0 1 none) (fecFull ldpcWords q) (fun t => t = fecFull ldpcWords q) = true ∧
    after (.fecDescriptor 0 1 none) (fecFull [0, 0, 0, 0, 0, 0, 0, 0] r) (fun t => t = fecFull [0, 0, 0, 0, 0, 0, 0, 0] r) = true := by decide +kernel
/-! ### Line caches and HBM -/

def line0 : LcLine := { key := .hbm 0, data := List.replicate 256 7, dirty := false, way := 9 }
def ask0 (w : Option LineBytes) : LcReq := { key := .hbm 0, write := w, mover := some (0, req0 0 0) }
/-- The line cache of die 0 in service, prefetch off, stack 0 in service; site 0 waits for its request. -/
def caching (c : LineCache) : State :=
  { (((ready.wr R.HBM_LC_STATE.IN_SERVICE 1 0).wr R.HBM_LC_CTRL.PF_EN 0 0).wr R.HBM_STATE.IN_SERVICE 1 0).wr R.MOV_STATE.SLOTS 1 0 with
    mem := { lc := [(0, c)], movers := [(0, { slots := [req0 0 0] })] } }
theorem wit_LineCacheServes_read : (caching { inq := [ask0 none], lines := [line0] }).keyOut (.hbm 0) = false ∧
    ((caching { inq := [ask0 none], lines := [line0] }).mover 0).expects (req0 0 0) = true ∧
    after (.lineCacheRequest 0 none .clean 0) (caching { inq := [ask0 none], lines := [line0] })
      (fun t => (t.mover 0).resp = [⟨req0 0 0, List.replicate 256 7, false, false⟩] ∧ (t.cache 0).inq = []) = true := by decide +kernel
theorem wit_LineCacheServes_write :
    after (.lineCacheRequest 0 none .clean 0) (caching { inq := [ask0 (some [(255, 1)])], lines := [line0] })
      (fun t => ((t.cache 0).line (.hbm 0)).map (fun l => (l.dirty, l.data)) = some (true, List.replicate 255 7 ++ [1])) = true ∧
    after (.lineCacheRequest 0 none .clean 0) (caching { inq := [ask0 none] })
      (fun t => (t.cache 0).fills.map (fun f => (f.key, f.waiting)) = [(.hbm 0, [ask0 none])]) = true := by decide +kernel
theorem wit_LineCacheServes_waits : (caching { inq := [ask0 none], fills := [{ key := .hbm 0, waiting := [], glade := false }] }).keyOut (.hbm 0) = false ∧
    after (.lineCacheRequest 0 none .clean 0) (caching { inq := [ask0 none], fills := [{ key := .hbm 0, waiting := [], glade := false }] })
      (fun t => (t.cache 0).fills.map (fun f => f.waiting) = [[ask0 none]] ∧ (t.cache 0).inq = []) = true := by decide +kernel
def fill0 : Fill := { key := .hbm 0, waiting := [ask0 none, { key := .hbm 0, write := some [(0, 5)] }], glade := false, data := some (List.replicate 256 7) }
theorem wit_LineCacheServes_fill : wayAllowed ((caching { fills := [fill0] }).rd R.HBM_LC_CTRL.GLADE_WAYS 0) 9 false = true ∧
    ((caching { fills := [fill0] }).cache 0).fill (.hbm 0) = some fill0 ∧
    after (.lineFill 0 (.hbm 0) 9 none) (caching { fills := [fill0] })
      (fun t => ((t.cache 0).line (.hbm 0)).map (fun l => (l.dirty, l.way, l.data)) = some (true, 9, 5 :: List.replicate 255 7)) = true := by decide +kernel
def line3 : LcLine := { key := .hbm 3, data := List.replicate 256 1, dirty := true, way := 9 }
theorem wit_LineCacheServes_victim : ((caching { fills := [fill0], lines := [line3] }).cache 0).line (.hbm 3) = some line3 ∧
    after (.lineFill 0 (.hbm 0) 9 (some (.hbm 3))) (caching { fills := [fill0], lines := [line3] })
      (fun t => t.mem.wb = [⟨3, fullBytes (List.replicate 256 1), none⟩] ∧ (t.cache 0).line (.hbm 3) = none) = true := by decide +kernel

def filling : State := caching { fills := [{ key := .hbm 0, waiting := [{ ask0 none with mover := some (0, { req0 0 0 with item := some ⟨1, 1⟩ }) }], glade := false }] }
theorem wit_HbmLines_read : filling.stackUp 0 = true ∧ filling.mem.hbmBad = [] ∧ (filling.cache 0).fill (.hbm 0) = (filling.cache 0).fills.head? ∧
    after (.hbmRead 0 0 1 .clean) filling (fun t => ((t.cache 0).fill (.hbm 0)).map (fun g => g.data) = some (some (List.replicate 256 0))) = true ∧
    after (.hbmRead 0 0 1 .corrected) filling (fun t => t.rd R.HBM_ECC_CORR.COUNT 0 = 1) = true ∧
    after (.hbmRead 0 0 1 .uncorrectable) filling (fun t => t.mem.hbmBad = [1] ∧ t.hbmFails 0 = true ∧ (t.failed.find ⟨1, 1⟩).isSome) = true := by decide +kernel
def writing0 : State := { caching {} with mem := { wb := [⟨0, [(3, 9)], none⟩], hbm := [⟨3, 1⟩, ⟨300, 2⟩] } }
theorem wit_HbmLines_write : writing0.stackUp 0 = true ∧ (writing0.mem.wb.find? fun x => x.line = 0) = some ⟨0, [(3, 9)], none⟩ ∧ Mem.wf writing0.mem.hbm = true ∧
    after (.hbmWrite 0 0 0 .clean) writing0 (fun t => t.mem.hbm = [⟨3, 9⟩, ⟨300, 2⟩] ∧ t.mem.wb = []) = true := by decide +kernel
/-- A whole line makes its bad pair good; a pair written in part that reads uncorrectable turns bad, and so does a read of a stack that is out. -/
theorem wit_HbmLines_pairs :
    let whole : State := { caching {} with mem := { wb := [⟨0, fullBytes (List.replicate 256 1), none⟩], hbmBad := [2] } }
    let out : State := filling.wr R.HBM_STATE.IN_SERVICE 0 0
    (wholeLine (fullBytes (List.replicate 256 1)) = true ∧ partialPairs [(3, 9)] = [0] ∧ out.flag R.HBM_STATE.IN_SERVICE 0 = false) ∧
    after (.hbmWrite 0 0 0 .clean) whole (fun t => t.mem.hbmBad = []) = true ∧
    after (.hbmWrite 0 0 0 .uncorrectable) writing0 (fun t => t.flag R.HBM_ERR.UNCORR 0 && decide (t.mem.hbmBad = [0])) = true ∧
    after (.hbmRead 0 0 0 .clean) out (fun t => ((t.cache 0).fill (.hbm 0)).map (fun g => g.failed) = some true ∧ (t.failed.find ⟨1, 1⟩).isSome) = true := by
  decide +kernel
theorem wit_HbmLines_scrub : writing0.stackUp 0 = true ∧
    after (.scrubLine 0 2 .clean) writing0 (fun t => t.rd R.HBM_SCRUB_POS.LINE 0 = 1) = true ∧
    after (.scrubLine 0 2 .corrected) writing0 (fun t => t.rd R.HBM_ECC_CORR.COUNT 0 = 1) = true ∧
    after (.scrubLine 0 2 .uncorrectable) writing0 (fun t => t.flag R.HBM_ERR.SCRUB_UNCORR 0 && decide (t.mem.hbmBad = [2])) = true := by decide +kernel
theorem wit_HbmLines_controls : ready.managed = true ∧ ready.gladeHeld = false ∧ gladeHolder.gladeHeld = true ∧
    after (.hbmReserveWrite 0 0x3F) ready (fun t => t.rd R.HBM_RESERVE.RES 0 = 32) = true ∧
    after (.hbmReserveWrite 0 0x3F) gladeHolder (fun t => t = gladeHolder) = true ∧
    after (.hbmLcCtrlWrite 0 0x80F) ready (fun t => t.rd R.HBM_LC_CTRL.PF_DIST 0 = 7 ∧ t.rd R.HBM_LC_CTRL.GLADE_WAYS 0 = 8) = true ∧
    after (.hbmLcCtrlWrite 0 0xF00) gladeHolder (fun t => t.rd R.HBM_LC_CTRL.GLADE_WAYS 0 = gladeHolder.rd R.HBM_LC_CTRL.GLADE_WAYS 0) = true := by decide +kernel

/-! ### Image loads -/

/-- Owner 5 is an Active clearing of class inference with 4 cores; die 0 and cluster 0 are in service. -/
def active5 : State :=
  ((((ready.wr R.SCH_TEN_CFG.STATE 1 0 5).wr (R.GLB_DIE_STATE.DIE 0) 1).wr R.SCH_TEN_BUDGET.CORES 4 0 5).wr R.CLU_STATE.IN_SERVICE 1 0).wr R.GLB_IMG_TARGET.OWNER 5
def img0 : Image := { groups := [{ shapes := [{ loose := true, cores := [0] }] }], cores := [{}] }
def hdr0 : ImgHeader :=
  { magic := 0x52504C52, format := 1, cls := 0, part := partNumber, minFw := 0, secVer := 1, totalLen := 0x100 + 8240, sigOff := 0x100, keyId := 7
    sects := [⟨1, 0, 192, 0, false⟩, ⟨2, 0, 192, 0, false⟩, ⟨3, 0, 192, 0, false⟩, ⟨6, 0, 192, 0, false⟩] }
def le (k v : Nat) : List Byte := (List.range k).map fun i => BitVec.ofNat 8 (v / 256 ^ i)
/-- A header and its section table laid out as Tables 7.2 and 7.3 do. -/
def hdrBytes (h : ImgHeader) : List Byte :=
  le 4 h.magic ++ le 2 h.format ++ le 2 h.cls ++ le 8 h.part ++ le 4 h.minFw ++ le 4 h.secVer ++ le 8 h.imageId ++ le 4 h.totalLen ++
    le 4 h.sects.length ++ le 8 h.sigOff ++ le 8 h.keyId ++ le 72 0 ++
    h.sects.flatMap fun e => le 2 e.typ ++ le 2 e.index ++ le 4 e.offset ++ le 8 e.length
theorem test_header_bytes : ImgHeader.ofBytes (hdrBytes hdr0) = hdr0 ∧ (ImgHeader.ofBytes ((hdrBytes hdr0).set 7 1)).odd = true := by decide +kernel
def loaded0 : Loaded := { img := img0, placed := [{ group := 0, shape := { loose := true, cores := [0] }, cluster := 0, row := 0, col := 0 }] }
theorem wit_ImageLoadToAdmission_args : ready.managed = true ∧ ready.flag R.GLB_IMG_STATUS.BUSY = false ∧
    after (.imgArgWrite .src 0x123456789) ready (fun t => t.rd R.GLB_IMG_SRC.ADDR = 0x123456) = true ∧
    after (.imgArgWrite .target 0x805) ready (fun t => t.rd R.GLB_IMG_TARGET.OWNER = 5 ∧ t.rd R.GLB_IMG_TARGET.MODE = 1) = true ∧
    after (.imgArgWrite .len 1) (ready.wr R.GLB_IMG_STATUS.BUSY 1) (fun t => t = ready.wr R.GLB_IMG_STATUS.BUSY 1) = true ∧
    after .start (ready.wr R.GLB_IMG_STATUS.BUSY 1) (fun t => t.rd R.GLB_IMG_STATUS.START_LOST = 1) = true := by decide +kernel
def lenOk : State := active5.wr R.GLB_IMG_LEN.LEN 8496
theorem wit_ImageLoadToAdmission_start : (lenOk.tenState 5 = 1 ∧ lenOk.holdsImage 5 = false ∧ lenOk.rd R.GLB_IMG_TARGET.MODE = 0) ∧
    after .start lenOk (fun t => t.phase = 1 ∧ t.rd R.GLB_IMG_STATUS.LOAD_SEQ = 1 ∧ t.ten.load = some { owner := 5, replace := false }) = true ∧
    after .start (lenOk.wr R.GLB_IMG_TARGET.MODE 1) (fun t => t.rd R.GLB_IMG_STATUS.REASON = 1 ∧ t.rd R.GLB_IMG_STATUS.STATUS = 5) = true ∧
    after .start (lenOk.wr R.GLB_IMG_LEN.LEN 8495) (fun t => t.rd R.GLB_IMG_STATUS.REASON = 2 ∧ t.rd R.GLB_IMG_STATUS.BUSY = 0) = true := by decide +kernel
def load0 : LoadSt := { owner := 5, replace := false }
def loading (ph : Nat) (l : LoadSt) : State :=
  { (((active5.wr R.GLB_IMG_LEN.LEN (0x100 + 8240)).wr R.GLB_IMG_STATUS.BUSY 1).wr R.GLB_IMG_STATUS.PHASE ph) with
    ten := { load := some l }, mgt := { slots := [(2, { key := 7, floor := 1 })] } }
/-- Stack 3, on which the image is staged, has been contained: the load fails by the record of its chain. -/
def lostStage : State := { loading 1 { load0 with staged := [3] } with err := { running := some { first := 77, level := 3, unit := .stack 3, site := none } } }
theorem wit_ImageLoadToRelease_lost : lostStage.loadLost = some 77 ∧ lostStage.ten.resets.find 5 = none ∧
    after (.imageHeaderArrive (hdrBytes hdr0)) lostStage (fun t => t.rd R.GLB_IMG_STATUS.STATUS = 3 ∧ t.rd R.GLB_IMG_ERR_SEQ.SEQ = 77 ∧ t.ten.load = none) = true := by
  decide +kernel
theorem wit_ImageLoadToAdmission_header : (loading 1 load0).checkHeader hdr0 = none ∧
    (loading 1 load0).checkHeader { hdr0 with part := 0 } = some { reason := 0x04 } ∧
    after (.imageHeaderArrive (hdrBytes hdr0)) (loading 1 load0) (fun t => t.ten.load = some { load0 with hdr := some hdr0 }) = true ∧
    after (.imageHeaderArrive (hdrBytes { hdr0 with part := 0 })) (loading 1 load0) (fun t => t.rd R.GLB_IMG_STATUS.REASON = 4 ∧ t.ten.load = none) = true := by decide +kernel
/-- The image with its bytes 0 to SIG_OFF - 1. -/
def whole0 : Image := { img0 with bytes := hdrBytes hdr0 ++ List.replicate 64 0 }
def load1 : LoadSt := { load0 with hdr := some hdr0 }
theorem wit_ImageLoadToAdmission_verify : (loading 2 load1).keySlot hdr0.keyId = some (2, 1) ∧
    (whole0.bytes.length = hdr0.sigOff ∧ ImgHeader.ofBytes whole0.bytes = hdr0 ∧ (loading 1 load1).loadLost = none) ∧
    after (.fetchEnd whole0 false) (loading 1 load1) (fun t => t.phase = 2) = true ∧
    after (.fetchEnd whole0 true) (loading 1 load1) (fun t => t.rd R.GLB_IMG_STATUS.STATUS = 3 ∧ t.rd R.HST_POISON.COUNT = 1 ∧ t.ten.load = none) = true ∧
    after (.fetchEnd img0 false) (loading 1 load1) (fun t => t = loading 1 load1) = true ∧
    after (.verifyEnd true true) (loading 2 load1) (fun t => t.phase = 3 ∧ t.ten.load = some { load1 with slot := 2 }) = true ∧
    after (.verifyEnd true false) (loading 2 load1) (fun t => t.rd R.GLB_IMG_STATUS.REASON = 8) = true ∧
    after (.verifyEnd false true) (loading 2 load1) (fun t => t.rd R.GLB_IMG_STATUS.REASON = 7) = true := by decide +kernel
def load2 : LoadSt := { load1 with img := some img0 }
/-- The clearing's budget of cores decides: 4 admit the image, 0 refuse it with 0x20. -/
theorem wit_ImageLoadToAdmission_admit : ((loading 3 load2).admission 5 hdr0 img0).toOption = some loaded0 ∧
    (match ((loading 3 load2).wr R.SCH_TEN_BUDGET.CORES 0 0 5).admission 5 hdr0 img0 with | .error e => e.reason | .ok _ => 0) = 0x20 ∧
    after .admitEnd (loading 3 load2) (fun t => t.phase = 4 ∧ t.ten.load = some { load2 with result := some loaded0 }) = true ∧
    after .admitEnd ((loading 3 load2).wr R.SCH_TEN_BUDGET.CORES 0 0 5) (fun t => t.rd R.GLB_IMG_STATUS.REASON = 0x20) = true := by decide +kernel
def load3 : LoadSt := { load2 with result := some loaded0 }
def repl3 : LoadSt := { load3 with replace := true }
theorem wit_ImageLoadToRelease_distribute : loaded0.placed ≠ [] ∧ (loading 5 repl3).drainLeft 5 = false ∧
    after .distributeEnd (loading 4 repl3) (fun t => t.phase = 5) = true ∧
    after .distributeEnd (loading 4 load3) (fun t => t.phase = 6 ∧ t.ten.load = some { load3 with windows := [0] }) = true ∧
    after .drainEnd (loading 5 repl3) (fun t => t.phase = 6) = true ∧
    after .drainLimitExpire (loading 5 repl3) (fun t => t = loading 5 repl3) = true := by decide +kernel
def drainLate : State := { (loading 5 repl3).wr R.GLB_IMG_DRAIN.LIMIT_US 10 with elapsed := 50000 }
theorem wit_ImageLoadToRelease_limit : 0 < drainLate.rd R.GLB_IMG_DRAIN.LIMIT_US ∧ repl3.drainStart + drainLate.rd R.GLB_IMG_DRAIN.LIMIT_US * 5000 ≤ drainLate.elapsed ∧
    after .drainLimitExpire drainLate (fun t => t.phase = 6) = true := by decide +kernel
def switching (ws : List Nat) : State := loading 6 { load3 with windows := ws }
theorem wit_ImageLoadToRelease_window : (switching [0, 1]).ten.resets.find 5 = none ∧
    after (.switchWindowEnd 0 700) (switching [0, 1]) (fun t => t.phase = 6 ∧ t.rd R.GLB_IMG_WINDOW.LONGEST_NS = 700) = true ∧
    after (.switchWindowEnd 0 700) (switching [0]) (fun t => t.ten.images = [(5, loaded0)] ∧ t.holdsImage 5 ∧ t.rd R.GLB_IMG_COUNTS.DONE = 1 ∧
      t.rd R.GLB_IMG_STATUS.BUSY = 0) = true := by decide +kernel
def gladeLoaded : Loaded := { loaded0 with img := { img0 with glade := true, radio := some ⟨1, [], []⟩ } }
def gladeSwitch : State := { (switching [0]).wr R.SCH_TEN_CFG.CLASS 1 0 5 with ten := { load := some { load3 with windows := [0], result := some gladeLoaded } } }
def gladeWaits (m : Int) : State := { gladeSwitch.wr R.GLB_IMG_STATUS.PHASE 7 with ten := { load := some { load3 with result := some gladeLoaded, actSlot := some m } } }
theorem wit_ImageLoadToRelease_glade : gladeLoaded.img.glade = true ∧ (gladeWaits 0).slotAt 1 (gladeWaits 0).tai < 0 ∧
    after (.switchWindowEnd 0 700) gladeSwitch (fun t => t.phase = 7 ∧ (t.ten.load.bind fun l => l.actSlot).isSome) = true ∧
    after .gladeActivate (gladeWaits 0) (fun t => t = gladeWaits 0) = true ∧
    after .gladeActivate (gladeWaits (-1000000000000)) (fun t => t.ten.images = [(5, gladeLoaded)] ∧ t.rd R.GLB_IMG_STATUS.BUSY = 0) = true := by decide +kernel
theorem wit_ImageLoadToRelease_abort : (switching [0]).managed = true ∧
    after .abort (switching [0]) (fun t => t = switching [0]) = true ∧
    after .abort (loading 3 load2) (fun t => t.rd R.GLB_IMG_STATUS.STATUS = 2 ∧ t.ten.load = none) = true ∧
    after .abort (gladeWaits 0) (fun t => t.rd R.GLB_IMG_STATUS.STATUS = 2 ∧ t.holdsImage 5 = false) = true := by decide +kernel

/-- A queue of the clearing whose accepted item has no completion keeps the load in DRAIN. -/
def draining : State := { (loading 5 repl3) with que := { running1 with queues := running1.queues.mapVal fun _ v => { v with accepted := 1 } } }
theorem wit_ImageLoadToRelease_drain : draining.phase = 5 ∧ draining.drainLeft 5 = true ∧ after .drainEnd draining (fun t => t = draining) = true := by decide +kernel

/-- A fill that failed, and one that an invalidate met: both end, and neither is installed. -/
theorem wit_LineCacheServes_ends :
    after (.lineFill 0 (.hbm 0) 15 none) (caching { fills := [{ fill0 with data := none, failed := true, waiting := [ask0 none] }] })
      (fun t => (t.cache 0).fills = [] ∧ (t.cache 0).lines = []) = true ∧
    after (.lineFill 0 (.hbm 0) 9 none) (caching { fills := [{ fill0 with dropped := true }] })
      (fun t => (t.cache 0).fills = [] ∧ (t.cache 0).lines = []) = true := by decide +kernel
/-! ### Barriers and sentinels -/

/-- Owner 5 holds the image of loaded0; its context is resident on site 0. -/
def ctx0 : Ctx := { kind := .home, group := 0, cluster := 0, loose := true, code := 0, row := 0, col := 0, res := .resident }
def barring : State :=
  { (((active5.wr R.SCH_TEN_CFG.IMAGE 1 0 5).wr R.GLB_DET_BAR_TARGET.OWNER 5).wr R.GLB_DET_BAR_TIME.NS 20000) with
    ten := { images := [(5, loaded0)] }, sched := { ctxs := [((5, 0), ctx0)] } }
theorem wit_BarriersHoldAndRelease_arm : barring.managed = true ∧ barring.armCause = 0 ∧ (barring.wr R.GLB_DET_BAR_TIME.NS 19999).armCause = 3 ∧
    barring.det.bar = none ∧ barring.ctx (5, 0) = some ctx0 ∧
    after .arm barring (fun t => t.det.bar = some { owner := 5, t := 20000, left := [0] } ∧ (t.ctx (5, 0)).map (fun c => c.held) = some true) = true ∧
    after .arm (barring.wr R.GLB_DET_BAR_TIME.NS 19999) (fun t => t.rd R.GLB_DET_BAR_STATUS.STATE = 3 ∧ t.rd R.GLB_DET_BAR_STATUS.CAUSE = 3) = true := by decide +kernel
def armed (t : Nat) : State := { barring with det := { bar := some { owner := 5, t := t, left := [0] } } }
theorem wit_BarriersHoldAndRelease_release : (armed 20000).armCause = 5 ∧ (armed 20000).tai < 20000 ∧ 0 ≤ (armed 0).tai ∧
    after .arm (armed 20000) (fun t => t.rd R.GLB_DET_BAR_STATUS.ARM_REFUSED = 1) = true ∧
    after .cancel (armed 20000) (fun t => t.det.bar = none ∧ t.rd R.GLB_DET_BAR_STATUS.STATE = 4) = true ∧
    after .barrierRelease (armed 20000) (fun t => t = armed 20000) = true ∧
    after .barrierRelease (armed 0) (fun t => t.det.bar = none ∧ t.rd R.GLB_DET_BAR_STATUS.STATE = 2) = true := by decide +kernel
def env0 : CoreEnv := ⟨0, 0⟩
/-- One position of one column: 2 times 3 in row 0, and the partial that forms. -/
def pass0 : EnginePass :=
  { format := .int8, digit := 0, rowMask := 1, colMask := 1, bank := [{ els := [3], digit := 0 }], exps := [none], ops := [([[2]], none, [])] }
def lane6 : GranPartial := { bits := 6 }
def sample0 : Sample := { site := 0, owner := 5, item := none, pass := pass0, partials := [lane6], env := ⟨env0, 2100, 0⟩, since := 0 }
theorem test_pass_partials : pass0.partials = [lane6] := by decide +kernel
def sampling (l : List Sample) : State := { (ready.wr R.STR_SITE.OWNER 5 0).wr (R.GLB_DIE_STATE.DIE 0) 1 with elapsed := millis 100, det := { samples := [(0, l)] } }
/-- A field whose first pass is in it, and which the engine of site 0 selects (its number is the phase drawn). -/
def head0 : PassHead := { record := 0, digit := 0, pos := [([[2]], [none], [])] }
def fieldPass : FieldSt := { field0 with passes := 1, heads := [(1, head0)], inArray := [{ pos0 with no := 1 }] }
def selecting (l : List Sample) : State :=
  { (sampling l) with fields := [(0, fieldPass)], det := { samples := [(0, l)], passes := [(0, Config.samplePhase 0 0 % 4096 + 1)] } }
theorem wit_SentinelSamples_rate : (selecting []).sampleRate 0 = some 12 ∧ (selecting []).fieldOf 0 = some (0, fieldPass, 0, 0) ∧ fieldPass.glade = false ∧
    ((selecting []).samplesOf 0).length < 64 := by decide +kernel
theorem wit_SentinelSamples_sample : (selecting []).sampled fieldPass 0 = some (1, head0) := by
  have hs : (selecting []).selected 0 ((selecting []).det.passes.findD 0 0 - 1 - (fieldPass.passes - 1)) = true := by
    have hp : (selecting []).det.passes.findD 0 0 = Config.samplePhase 0 0 % 4096 + 1 := rfl
    have hq : (Config.samplePhase 0 0 % 4096 + 1 - 1 - (fieldPass.passes - 1)) = Config.samplePhase 0 0 % 4096 := by
      show _ - 1 - 0 = _; omega
    rw [hp, hq, State.selected, wit_SentinelSamples_rate.1]
    have h0 : Config.samplePhase 0 0 % 4096 / 2 ^ 12 = 0 := by omega
    simp only [h0]; simp
  have hh : fieldPass.heads = [(1, head0)] := rfl
  rw [State.sampled, hh, List.find?_cons_of_pos]
  rw [hs]; rfl
theorem wit_SentinelSamples_none : (sampling []).sampled field0 0 = none := rfl
theorem wit_SentinelSamples_timeout : ((sampling [sample0]).samplesOf 0)[0]? = some sample0 ∧ sample0.since + millis 100 ≤ (sampling [sample0]).elapsed ∧
    after (.sentinelTimeout 0 0) (sampling [sample0]) (fun t => t.samplesOf 0 = [] ∧ t.rd R.GLB_SENT_SKIPPED.COUNT = 1) = true ∧
    after .pendingClear ((sampling []).wr R.GLB_SENT_LAST.PENDING 1) (fun t => t.rd R.GLB_SENT_LAST.PENDING = 0) = true := by decide +kernel
def checked0 : Sample := { sample0 with checker := some 300 }
theorem wit_SentinelSamples_check : ((sampling [checked0]).siteRec 0).state = .good ∧ ((sampling [checked0]).siteRec 300).state = .good ∧
    after (.sentinelCheckDone 0 0 none env0) (sampling [checked0]) (fun t => t.rd R.GLB_SENT_RUNS.COUNT = 1 ∧ t.samplesOf 0 = []) = true ∧
    after (.sentinelCheckDone 0 0 (some [{ bits := 7 }]) env0) (sampling [checked0]) (fun t => (t.siteRec 0).state = .suspect ∧ (t.siteRec 300).state = .suspect ∧
      t.flag R.GLB_SENT_LAST.PENDING = true ∧ t.rd R.GLB_SENT_MISMATCH.COUNT = 1) = true := by decide +kernel
def disputed0 : Sample := { checked0 with mismatch := some [{ bits := 7 }], arbiter := some 600, shown := true }
def doubted (l : List Sample) : State := ((sampling l).setSite 0 { state := .suspect }).setSite 300 { state := .suspect }
theorem wit_SentinelSamples_arbiter : disputed0.mismatch = some [{ bits := 7 }] ∧ ((doubted [disputed0]).siteRec 0).state = .suspect ∧
    after (.sentinelArbiterDone 0 0 (some [{ bits := 7 }]) env0) (doubted [disputed0]) (fun t => (t.siteRec 0).state = .retired ∧ t.rd R.GLB_SENT_LAST.VERDICT = 1) = true ∧
    after (.sentinelArbiterDone 0 0 none env0) (doubted [disputed0]) (fun t => (t.siteRec 300).state = .retired ∧ t.rd R.GLB_SENT_LAST.VERDICT = 2) = true ∧
    after (.sentinelArbiterDone 0 0 (some []) env0) (doubted [disputed0]) (fun t => (t.siteRec 600).state = .probation) = true := by
  decide +kernel

/-! ### Clearings -/

theorem wit_TenantCommands_lost : (ready.wr R.SCH_CMD_STATUS.BUSY 1).flag R.SCH_CMD_STATUS.BUSY = true ∧ ready.tenCause 5 6 ≠ 0 ∧
    after (.create 6) (ready.wr R.SCH_CMD_STATUS.BUSY 1) (fun t => t.rd R.SCH_CMD_STATUS.CMD_LOST = 1) = true ∧
    after (.reset 6) ready (fun t => t.rd R.SCH_CMD_STATUS.CAUSE = 3 ∧ t.rd R.SCH_CMD_STATUS.STATUS = 5) = true := by decide +kernel
/-- Arguments of a CREATE of class inference with 8 cores, 16 queues and weight 1; of extent 0, page 0 at device page 64, two pages, writable. -/
def creating : State := (((ready.wr R.SCH_ARG.ARG 0 0 0).wr R.SCH_ARG.ARG (8 + 16 * 2 ^ 16) 0 1).wr R.SCH_ARG.ARG 1 0 2).wr R.SCH_POOL.FREE_QUEUES 100
theorem wit_TenantCommands_create : creating.tenCause 1 6 = 0 ∧ creating.rd R.SCH_TEN_BUDGET.QUEUES 0 6 = 0 ∧ creating.rd R.SCH_POOL.FREE_QUEUES ≤ 2 ^ 20 ∧
    after (.create 6) creating (fun t => t.tenState 6 = 1 ∧ t.rd R.SCH_TEN_BUDGET.CORES 0 6 = 8 ∧ t.rd R.SCH_POOL.FREE_QUEUES = 84 ∧
      t.rd R.SCH_TEN_SHARE.WEIGHT 0 6 = 1) = true := by decide +kernel
def budgeting : State := (creating.wr R.SCH_TEN_CFG.STATE 1 0 6).wr R.SCH_TEN_BUDGET.QUEUES 10 0 6
theorem wit_TenantCommands_budget : budgeting.tenCause 4 6 = 0 ∧
    after (.budget 6) budgeting (fun t => t.rd R.SCH_TEN_BUDGET.QUEUES 0 6 = 16 ∧ t.rd R.SCH_POOL.FREE_QUEUES = 94) = true := by decide +kernel
def mapping : State :=
  ((((ready.wr R.SCH_TEN_CFG.STATE 1 0 6).wr R.SCH_ARG.ARG (2 ^ 40) 0 0).wr R.SCH_ARG.ARG (64 + 2 * 2 ^ 32) 0 1).wr R.HBM_STATE.IN_SERVICE 1 0)
def ext6 : Extent := ⟨0, 64, 2, true⟩
theorem wit_TenantCommands_map : mapping.tenCause 2 6 = 0 ∧ mapping.argExtent = ext6 ∧
    after (.mapExtent 6) mapping (fun t => t.ten.cmd = some { owner := 6, index := 0, ext := some ext6, phase := .zeroing }) = true := by decide +kernel
def mapped : State := { mapping with mem := { extents := [((6, 0), ext6)] } }
theorem wit_TenantCommands_unmap : mapped.tenCause 3 6 = 0 ∧
    after (.unmapExtent 6) mapped (fun t => t.mem.movStop = [6] ∧ t.rd R.SCH_CMD_STATUS.BUSY = 1) = true := by decide +kernel
def extentAt (p : ExtentPhase) (e : Option Extent) (m : Tab Nat Mover) : State :=
  { mapping with elapsed := 5 * 10 ^ 9, ten := { cmd := some { owner := 6, index := 0, ext := e, phase := p } },
                 mem := { hbm := [⟨64 * 4096, 1⟩, ⟨66 * 4096, 2⟩], movers := m, movStop := [6] } }
theorem wit_TenantCommands_zero : (extentAt .zeroing (some ext6) []).ten.cmd = some { owner := 6, index := 0, ext := some ext6, phase := .zeroing } ∧
    after (.extentZeroDone true) (extentAt .zeroing (some ext6) []) (fun t => t.mem.hbm = [⟨66 * 4096, 2⟩]) = true ∧
    after (.extentZeroDone false) (extentAt .zeroing (some ext6) []) (fun t => t.rd R.SCH_CMD_STATUS.STATUS = 3 ∧ t.ten.cmd = none) = true := by decide +kernel
def busy6 : Tab Nat Mover := [(0, { active := [{ words := [], serial := 0, owner := 6, item := none }] })]
theorem wit_TenantCommands_idle : (extentAt .idle (some ext6) []).moversIdle 6 = true ∧ (extentAt .idle (some ext6) busy6).moversIdle 6 = false ∧
    (extentAt .idle (some ext6) []).rd R.SCH_TEN_BUDGET.EXTENTS 0 6 < 32 ∧
    0 + (extentAt .idle none busy6).rd R.SCH_TEN_DRAIN.LIMIT_US 0 6 * 5000 ≤ (extentAt .idle none busy6).elapsed ∧
    after .moversIdle (extentAt .idle (some ext6) []) (fun t => t.mem.extents = [((6, 0), ext6)] ∧ t.mem.movStop = []) = true ∧
    after .moversIdle (extentAt .idle none []) (fun t => t.mem.extents = [] ∧ t.rd R.SCH_CMD_STATUS.STATUS = 0) = true ∧
    after .moversIdle (extentAt .idle none busy6) (fun t => t = extentAt .idle none busy6) = true ∧
    after .moversBusy (extentAt .idle none busy6) (fun t => t.rd R.SCH_CMD_STATUS.CAUSE = 0x0D) = true := by decide +kernel
theorem wit_ResetAndRemoval_commands : active5.tenCause 5 5 = 0 ∧ active5.tenCause 6 5 = 0 ∧ active5.tenState 5 ≠ 3 ∧
    after (.reset 5) active5 (fun t => t.tenState 5 = 2 ∧ (t.ten.resets.find 5).map (fun r => r.source) = some 1) = true ∧
    after (.remove 5) active5 (fun t => t.tenState 5 = 3 ∧ (t.ten.resets.find 5).map (fun r => r.source) = some 3) = true := by decide +kernel
/-- Owner 5 is reached by virtual function 3, which is enabled. -/
def vfBound : State := { (active5.wr R.SCH_TEN_CFG.REACH 1 0 5).wr R.SCH_TEN_CFG.VF 3 0 5 with host := { cfg := { vfEnable := true, numVfs := 4 } } }
theorem wit_ResetAndRemoval_vf : vfBound.configOpen = true ∧ vfBound.vfOn 3 = true ∧ vfBound.vfOwner 3 = some 5 ∧ vfBound.tenState 5 = 1 ∧
    after (.vfFlr 3) vfBound (fun t => t.tenState 5 = 2 ∧ (t.ten.resets.find 5).map (fun r => r.source) = some 2) = true ∧
    after (.vfDisable none) vfBound (fun t => t.tenState 5 = 2 ∧ t.host.cfg.vfEnable = false) = true ∧
    after (.vfDisable (some 2)) vfBound (fun t => t.tenState 5 = 2 ∧ t.host.cfg.numVfs = 2) = true := by decide +kernel
theorem wit_ResetAndRemoval_unbound : vfBound.answers = true ∧ vfBound.vfOn 4 = true ∧ vfBound.vfOwner 4 = none ∧ (vfBound.vfOwner 3).isSome = true ∧
    after (.vfUnboundAccess 4 0 8) vfBound (fun t => t.rd R.SCH_VIOL_UNBOUND.COUNT = 1) = true ∧
    after (.vfUnboundAccess 3 0x180000 16) vfBound (fun t => t = vfBound) = true ∧
    after (.vfUnboundAccess 3 1 4) vfBound (fun t => t.rd R.SCH_TEN_VIOL.REG 0 5 = 1) = true := by decide +kernel
def reset5 : ResetSt := { step := .drain, start := 0, source := 1, limit := 10 }
def resetting (st : Nat) (left : List (Nat × MovReq)) : State :=
  { (barring.wr R.SCH_TEN_CFG.STATE st 0 5) with elapsed := 60000, ten := { images := [(5, loaded0)], resets := [(5, { reset5 with left := left })] } }
theorem wit_ResetAndRemoval_end : (resetting 2 []).drainOpen 5 reset5 = false ∧ (resetting 2 [(0, req0 0 0)]).drainOpen 5 { reset5 with left := [(0, req0 0 0)] } = true ∧
    reset5.step3 + reset5.limit * 5000 ≤ (resetting 2 []).elapsed ∧
    after (.resetDrainEnd 5) (resetting 2 []) (fun t => t.tenState 5 = 1 ∧ t.holdsImage 5 = false ∧ t.rd R.SCH_TEN_RESET.SQUASHED 0 5 = 0) = true ∧
    after (.resetDrainEnd 5) (resetting 3 []) (fun t => t.tenState 5 = 0 ∧ t.ten.images = []) = true ∧
    after (.resetDrainEnd 5) (resetting 2 [(0, req0 0 0)]) (fun t => t = resetting 2 [(0, req0 0 0)]) = true ∧
    after (.squash 5) (resetting 2 [(0, req0 0 0)]) (fun t => t.tenState 5 = 1 ∧ t.rd R.SCH_TEN_RESET.SQUASHED 0 5 = 1) = true := by decide +kernel

/-! ### Queues -/

def bind3 : ImgQueue := { loc := 3, entry := some (.ingress 0 2), exits := [.egress 0 1] }
def loadedQ : Loaded := { loaded0 with img := { img0 with queues := [bind3], digest := 9 } }
/-- Queue 2 of owner 5, local index 3, its rings of 16 slots in clearing HBM at 0x1000 and 0x2000, home die 0, mirror die 1. -/
def queue2 : QueueSt := { owner := 5, loc := 3, space := 4, msgFed := false, sqLog := 4, cqLog := 4, msgFrom := 0, sqBase := 0x1000, cqBase := 0x2000,
                          ctrl := 0, home := 0, journal := 0 }
def entry2 : Port := { stream := 4096, depthLog2 := 4 }
def queues (l : Tab Nat QueueSt) : State :=
  { ((barring.wr R.QUE_JNL.MIRROR 1 0 0).wr R.HBM_STATE.IN_SERVICE 1 0).wr R.SCH_TEN_BUDGET.QUEUES 4 0 5 with
    ten := { images := [(5, loadedQ)] }, que := { queues := l }, host := { cfg := { vfEnable := true, numVfs := 4 } }
    str := { ports := [(.ingress 0 2, entry2), (.egress 0 1, { stream := 4096, depthLog2 := 4 })] } }
def qs0 : State := ((queues [(2, queue2)]).wr R.SCH_TEN_CFG.REACH 1 0 5).wr R.SCH_TEN_CFG.VF 3 0 5
def q2 (t : State) : QueueSt := (t.queue 2).getD queue2

/-- Arguments that map queue 4 to local index 7, with both rings and the control block in clearing HBM. -/
def mapArgs : State := (((((queues []).wr R.QUE_ARG.ARG (4 + 2 * 2 ^ 20 + 4 * 2 ^ 24 + 4 * 2 ^ 29) 0 0).wr R.QUE_ARG.ARG 0x1000 0 1).wr R.QUE_ARG.ARG 0x2000 0 2).wr R.QUE_ARG.ARG 0x40 0 3)
theorem wit_QueueAcceptance_map_refused : mapArgs.managed = true ∧ mapArgs.mapCause 1 2047 7 ≠ 0 ∧ mapArgs.mapCause 2 5 7 ≠ 0 ∧ qs0.mapCause 2 5 3 = 0 ∧
    after (.queueMap 2047 7) mapArgs (fun t => t.rd R.QUE_CMD_STATUS.STATUS = 5) = true ∧
    after (.queueUnmap 5 7) mapArgs (fun t => t.rd R.QUE_CMD_STATUS.STATUS = 5) = true ∧
    after (.queueUnmap 5 3) qs0 (fun t => t.queue 2 = none ∧ t.rd R.QUE_CMD_STATUS.STATUS = 0) = true := by decide +kernel
theorem wit_QueueAcceptance_doorbell : qs0.answers = true ∧ qs0.vfOn 3 = true ∧ qs0.vfOwner 3 = some 5 ∧ qs0.tenState 5 = 1 ∧
    qs0.localQueue 5 3 = some (2, queue2) ∧ qs0.localQueue 5 4 = none ∧
    after (.doorbell (.vf 3) 0x90003) qs0 (fun t => t.queue 2 = some { queue2 with db := 9 }) = true ∧
    after (.doorbell (.vf 3) 0x90004) qs0 (fun t => t.rd R.SCH_TEN_VIOL.QUEUE 0 5 = 1) = true := by decide +kernel
def rung : State := queues [(2, { queue2 with db := 1 })]
theorem wit_QueueAcceptance_attempt : rung.hold 2 { queue2 with db := 1 } = 0 ∧ qs0.hold 2 queue2 = 0 ∧
    rung.spaceClosed 5 4 0 8 = true ∧ (rung.wr R.SCH_TEN_CFG.REACH 1 0 5).spaceClosed 5 4 0 8 = false ∧
    after (.acceptAttempt 2 0) (rung.wr R.SCH_TEN_CFG.REACH 1 0 5) (fun t => (q2 t).reading = some 1) = true ∧
    after (.acceptAttempt 2 0) (qs0.wr R.SCH_TEN_CFG.REACH 1 0 5) (fun t => t.queue 2 = some queue2) = true := by decide +kernel
def reading : State := (queues [(2, { queue2 with db := 1, reading := some 1 })]).wr R.SCH_TEN_CFG.REACH 1 0 5
def slot (n : Nat) : Vector Word 8 := #v[BitVec.ofNat 64 n, 1, 2, 3, 4, 5, 6, 7]
theorem wit_QueueAcceptance_read : reading.hostOpen = true ∧ (reading.wr R.HST_PORT.STATE_A 4).hostOpen = false ∧ reading.spaceClosed 5 4 (0x1000 + 1 % 16 * 64) 64 = false ∧ reading.hold 2 (q2 reading) = 0 ∧
    after (.submissionEntryRead 2 (slot 1) false) reading (fun t => (q2 t).writing.map (fun w => w.1.words) = [[1, 1, 2, 3, 4, 5, 6, 7]]) = true ∧
    after (.submissionEntryRead 2 (slot 2) false) reading (fun t => (q2 t).stuck ∧ (q2 t).writing = []) = true ∧
    after (.submissionEntryRead 2 (slot 1) true) reading (fun t => (q2 t).stuck ∧ t.rd R.QUE_POISON.COUNT = 1) = true := by decide +kernel
def rec1 : AccRec := { epoch := 0, owner := 5, sec := 0, ns := 0, words := [1, 1, 2, 3, 4, 5, 6, 7], digest := 9 }
def recWriting : QueueSt := { queue2 with db := 1, writing := [(rec1, .ring)] }
/-- Die 1, the mirror, is up with its stack of the queue's parity. -/
def mirrored (s : State) : State := (s.wr (R.GLB_DIE_STATE.DIE 1) 1).wr R.HBM_STATE.IN_SERVICE 1 2
theorem wit_QueueAcceptance_ack : (queues [(2, recWriting)]).hold 2 queue2 = 0 ∧ ((queues [(2, recWriting)]).wr R.SCH_TEN_CFG.STATE 2 0 5).hold 2 queue2 = 1 ∧
    ((queues [(2, recWriting)]).copiesUp 2 recWriting = false ∧ (mirrored (queues [(2, recWriting)])).copiesUp 2 recWriting = true) ∧
    after (.acceptanceRecordAck 2) (queues [(2, recWriting)]) (fun t => t = queues [(2, recWriting)]) = true ∧
    after (.acceptanceRecordAck 2) (mirrored (queues [(2, recWriting)])) (fun t => (q2 t).accepted = 1 ∧ (q2 t).items = [(1, rec1)]) = true ∧
    after (.acceptanceRecordAck 2) ((queues [(2, recWriting)]).wr R.SCH_TEN_CFG.STATE 2 0 5) (fun t => (q2 t).accepted = 0 ∧ (q2 t).writing = []) = true := by
  decide +kernel
def accepted (r : AccRec) : State := queues [(2, { queue2 with db := 1, accepted := 1, items := [(1, r)] })]
theorem wit_ItemsReleasedAndCommitted_release : (accepted rec1).entryOf (q2 (accepted rec1)) = some ((5, 0), 0, 2) ∧
    ctx0.cores = [(0, 0)] ∧ (accepted rec1).coreSite ctx0 (0, 0) = some 0 ∧ (accepted rec1).runs (5, 0) = true ∧
    after (.itemRelease 2) (accepted rec1) (fun t => (t.port (.ingress 0 2)).map (fun w => w.fifo.map fun e => (e.words, e.tag.eoi)) =
      some [([1, 2, 3, 4], false), ([5, 6, 7, 0], true)]) = true := by decide +kernel
def exitFlit (st : TagStatus) : Entry := ⟨{ owner := 5, seq := 1, eoi := true, status := st }, [42, 0, 0, 0], none⟩
def exiting (r : AccRec) (st : TagStatus) : State :=
  { accepted { r with released := true } with count := 10 ^ 9 * nsUnit, str := { ports := [(.egress 0 1, { stream := 4096, depthLog2 := 4, fifo := [exitFlit st] })] } }
def fin2 (t : State) : Option Finish := ((q2 t).items.find 1).bind fun r => r.finish
theorem wit_ItemsReleasedAndCommitted_finish : (exiting rec1 .good).binding queue2 = some bind3 ∧ (ImgPort.egress 0 1).core? = some (0, 9) ∧
    loadedQ.coreAt 0 = some (0, 0) ∧ sitePort 0 9 = .egress 0 1 ∧
    after (.itemFinish 2 1) (exiting rec1 .good) (fun t => fin2 t = some { status := 0, result := 42 }) = true ∧
    after (.itemFinish 2 1) (exiting { rec1 with deadline := some 5 } .good) (fun t => (fin2 t).map (fun f => f.status) = some 1) = true ∧
    after (.itemFinish 2 1) (exiting { rec1 with ruAbsent := true } .good) (fun t => (fin2 t).map (fun f => f.status) = some 4) = true ∧
    after (.itemFinish 2 1) { exiting rec1 .good with failed := [(⟨2, 1⟩, 7)] } (fun t => fin2 t = some { status := 3, errSeq := 7 }) = true := by decide +kernel
def finished : State :=
  { queues [(2, { queue2 with space := 2, accepted := 1, items := [(1, { rec1 with released := true, finish := some { status := 0, result := 42 } })] })] with
    mem := { extents := [((5, 0), ⟨0, 64, 4, true⟩)] } }
theorem wit_ItemsReleasedAndCommitted_commit : ((q2 finished).items.map Prod.fst).Nodup ∧
    (q2 finished).completion 1 rec1 { status := 0, result := 42 } = [1, 3 * 2 ^ 32, 0, 42] ∧
    after (.commit 2) finished (fun t => (q2 t).committed = 1 ∧ (t.deviceRead (64 * 4096 + 0x2020 + 24) 1) = [42]) = true := by decide +kernel
/-- While the reset of its clearing drains, a finished item is not committed. -/
theorem wit_ItemsReleasedAndCommitted_reset : finished.storesOpen ⟨2, 1⟩ = false ∧ finished.ten.resets = [] ∧
    let s : State := { finished with ten := { finished.ten with resets := [(5, { step := .drain, start := 0, source := 1, limit := 10 })] } }
    after (.commit 2) s (fun t => t = s) = true := by decide +kernel
theorem wit_ItemsReleasedAndCommitted_wait : ((accepted rec1).queue 2).isSome = true ∧ rec1.finish = none ∧
    after (.commit 2) (accepted rec1) (fun t => t = accepted rec1) = true := by decide +kernel
def sweeping : State := { accepted rec1 with que := { (accepted rec1).que with sweep := [2] } }
theorem wit_ItemsReleasedAndCommitted_sweep : 2 ∈ sweeping.que.sweep ∧ after (.sweep 2) sweeping (fun t => (q2 t).db = 17 ∧ t.que.sweep = []) = true ∧
    (ready.wr R.QUE_JNL.REBUILD 1 0 4).flag R.QUE_JNL.REBUILD 0 4 = true ∧
    after (.mirrorRebuildEnd 4) (ready.wr R.QUE_JNL.REBUILD 1 0 4) (fun t => t.rd R.QUE_JNL.REBUILD 0 4 = 0) = true := by decide +kernel

def msgE : Effect := .message 6 [1, 2, 3, 4, 5, 6, 7]
def logging (r : AccRec) : State := accepted { r with released := true }
theorem wit_OnceOnlyEffects_log : (logging rec1).effectEntries 0 0 < 524288 ∧ (logging rec1).runs (5, 0) = true ∧ msgE.isAtomic = false ∧
    after (.effectLogWrite 2 1 0 msgE) (logging rec1) (fun t => ((q2 t).items.find 1).map (fun r => r.effects) = some [msgE]) = true := by decide +kernel
def committed (e : Effect) : QueueSt :=
  { queue2 with db := 1, accepted := 1, committed := 1, items := [(1, { rec1 with released := true, committed := true, finish := some { status := 0 }, effects := [e] })] }
def atomE : Effect := .atomic 9 0x40 0 true 3 0 0
def emitting (e : Effect) : State :=
  { queues [(2, committed e)] with wor := { imports := [((5, 0), { base := 9 * 2 ^ 44, pages := 1, read := false, write := false, atomic := true })] } }
theorem wit_OnceOnlyEffects_emit : (emitting msgE).messageOut 2 = false ∧ ((committed msgE).skip (1 + 1 - (committed msgE).nextItem)).nextItem = 1 ∧
    ((emitting atomE).wor.imports.any fun x => x.1.1 = 5 && x.2.atomic && x.2.covers (9 % 4096 * 2 ^ 44 + 0x40 % 2 ^ 44) 8) = true ∧
    after (.effectEmit 2) (emitting msgE) (fun t => t.que.msgs.map (fun m => (m.src, m.item, m.index, m.dst)) = [(2, 1, 0, 6)]) = true ∧
    after (.effectEmit 2) (emitting atomE) (fun t => ((t.dest 9).unacked.map fun u => (u.pkt.typ, u.pkt.seq)) = [(.atomic, 1)]) = true := by decide +kernel
/-- An effect in doubt goes before the next one. -/
theorem wit_OnceOnlyEffects_doubt :
    let v : QueueSt := { committed msgE with again := [(1, 0)], nextIndex := 1 }
    (v.skip (v.committed + 1 - v.nextItem)).again.headD (0, 0) = (1, 0) ∧
    after (.effectEmit 2) (queues [(2, v)]) (fun t => (q2 t).again = [] ∧ (q2 t).sent = [(1, 0)] ∧ t.que.msgs.length = 1) = true := by decide +kernel
theorem wit_OnceOnlyEffects_notyet : (q2 (accepted rec1)).committed < (q2 (accepted rec1)).nextItem ∧
    after (.effectEmit 2) (accepted rec1) (fun t => t = accepted rec1) = true := by decide +kernel
def msg0 (ph : MsgPhase) : Msg := { src := 2, item := 1, index := 0, gen := 0, owner := 5, dst := 6, arg := [1, 2, 3, 4, 5, 6, 7], phase := ph }
def queue6 : QueueSt := { queue2 with msgFed := true, msgFrom := 5 }
def messaging (ph : MsgPhase) (v : QueueSt) (d : Tab (Nat × Nat) (Nat × Nat × Nat)) : State :=
  { queues [(2, { committed msgE with sent := [(1, 0)], nextIndex := 1 }), (6, v)] with
    que := { queues := [(2, { committed msgE with sent := [(1, 0)], nextIndex := 1 }), (6, v)], msgs := [msg0 ph], dedup := d } }
def q6 (t : State) : List (List Nat) := ((t.queue 6).getD queue6).writing.map fun w => w.1.words
def phases (t : State) : List MsgPhase := t.que.msgs.map fun m => m.phase
theorem wit_OnceOnlyEffects_receive : (messaging .sent queue6 []).hold 6 queue6 = 0 ∧ (messaging .sent { queue6 with accepted := 16 } []).hold 6 { queue6 with accepted := 16 } = 3 ∧
    (some (0, 1, 0)).any (dupMessage 0 1 0) = true ∧
    after (.messageReceive 2) (messaging .sent queue6 []) (fun t => q6 t = [[1, 1, 2, 3, 4, 5, 6, 7]] ∧ phases t = [.writing]) = true ∧
    after (.messageReceive 2) (messaging .sent { queue6 with accepted := 16 } []) (fun t => q6 t = [] ∧ phases t = [.waiting]) = true ∧
    after (.messageReceive 2) (messaging .sent queue6 [((0, 2), (0, 1, 0))]) (fun t => q6 t = [] ∧ phases t = [.acked]) = true := by decide +kernel
theorem wit_OnceOnlyEffects_reoffer :
    after (.messageReoffer 2) (messaging .waiting queue6 []) (fun t => phases t = [.writing]) = true ∧
    after (.messageReceive 2) (messaging .sent { queue6 with msgFed := false } []) (fun t => q6 t = [] ∧ phases t = [.acked]) = true ∧
    after (.effectAck 2) (messaging .acked queue6 []) (fun t => t.que.msgs = [] ∧ (q2 t).sent = []) = true := by decide +kernel

theorem wit_QueueAcceptance_map : mapArgs.mapCause 1 5 7 = 0 ∧
    after (.queueMap 5 7) mapArgs (fun t => (t.queue 4).map (fun v => (v.owner, v.loc, v.home, v.accepted)) = some (5, 7, 0, 0) ∧
      t.que.mapGen.findD 4 0 = 1) = true := by decide +kernel

/-- Late in the exit of an inference clearing is Failed, and its port shows it. -/
theorem wit_ItemsReleasedAndCommitted_class : (exiting rec1 .late).isGlade 5 = false ∧
    after (.itemFinish 2 1) (exiting rec1 .late) (fun t => (fin2 t).map (fun f => f.status) = some 3 ∧ t.rd R.STR_ERR.STATUS_CLASS 0 = 1) = true := by decide +kernel
/-- The 4,097th effect, an atomic of a borrow context, and an effect for a log of 128 items with 4,096 effects each. -/
def longRec : AccRec := { rec1 with released := true, effects := List.replicate 4096 msgE }
def borrowing : State := { (logging rec1) with sched := { ctxs := [((5, 0), { ctx0 with kind := .borrow })] } }
theorem wit_OnceOnlyEffects_limits : borrowing.runs (5, 0) = true ∧ atomE.isAtomic = true ∧
    after (.effectLogWrite 2 1 0 atomE) borrowing (fun t => t.que = borrowing.que ∧ (t.failed.find ⟨2, 1⟩).isSome) = true := by decide +kernel
theorem wit_OnceOnlyEffects_long : longRec.effects.length = 4096 := List.length_replicate
def effectsMany : State :=
  { (logging rec1) with que := { queues := [(2, { queue2 with items := List.replicate 128 (1, longRec) }), (4, { queue2 with items := [(1, { rec1 with released := true })] })] } }
theorem foldl_effects (k n : Nat) (x : Nat × AccRec) :
    (List.replicate k x).foldl (fun n r => n + r.2.effects.length) n = n + k * x.2.effects.length := by
  induction k generalizing n with
  | zero => simp
  | succ k ih => rw [List.replicate_succ, List.foldl_cons, ih]; rw [Nat.succ_mul]; omega
theorem wit_OnceOnlyEffects_full : effectsMany.effectsFull 0 (4 % 2) = true := by
  have h : effectsMany.effectEntries 0 (4 % 2) = 524288 := by
    simp only [State.effectEntries, effectsMany, List.foldl_cons, List.foldl_nil, queue2, foldl_effects, wit_OnceOnlyEffects_long, rec1]
    simp
  simp [State.effectsFull, h]

/-- Of two exit streams, the second with nothing yet: the item is not finished. -/
def twoExits : State :=
  let s := exiting rec1 .good
  { s with ten := { images := [(5, { loadedQ with img := { loadedQ.img with queues := [{ bind3 with exits := [.egress 0 1, .egress 0 2] }] } })] } }
theorem wit_ItemsReleasedAndCommitted_exits :
    after (.itemFinish 2 1) twoExits (fun t => fin2 t = none ∧ ((q2 t).items.find 1).map (fun r => r.exits.done) = some [0]) = true := by decide +kernel
/-- A ring in the clearing's memory, whose control block reads 0. -/
def inMemory (v : QueueSt) : State := { queues [(2, { v with space := 2 })] with mem := { extents := [((5, 0), ⟨0, 64, 4, true⟩)] } }
theorem wit_QueueAcceptance_memory :
    after (.acceptAttempt 2 9) (inMemory { queue2 with db := 1 }) (fun t => (q2 t).reading = some 1 ∧ (q2 t).consumed = 0) = true ∧
    after (.submissionEntryRead 2 (slot 1) true) (inMemory { queue2 with db := 1, reading := some 1 }) (fun t => (q2 t).reading = none ∧ (q2 t).stuck) = true := by
  decide +kernel
/-- A frame for a flow that the quad does not have. -/
theorem wit_OnceOnlyEffects_frame : (emitting (.frame (List.replicate 7 0))).rad.flows = [] ∧
    after (.effectEmit 2) (emitting (.frame (List.replicate 7 0))) (fun t => t.rd R.RAD_Q_DROP_C.TX_DROP 0 = 1 ∧ (q2 t).sent = []) = true := by decide +kernel
/-! ### Contexts and lending -/

def withCtx (c : Ctx) (due : List Nat) : State :=
  { ready.wr R.STR_SITE.OWNER 5 0 with elapsed := millis 2000, sched := { ctxs := [((5, 0), c)], due := due } }
def cx (t : State) : Ctx := (t.ctx (5, 0)).getD ctx0
def saved0 : Ctx := { ctx0 with res := .saved, ready := true }
theorem wit_SchedulerDecides_decision : 0 ∈ (withCtx saved0 [0]).sched.due ∧ ((withCtx saved0 [0]).ctxSites saved0).length = saved0.size ∧
    (∀ e ∈ (withCtx saved0 [0]).ctxsOf 0, e.1 = (5, 0) ∧ e.2.quantumEnd = none) ∧
    after (.schedulerDecision 0) (withCtx saved0 [0]) (fun t => (cx t).res = .restoring ∧ t.sched.due = []) = true ∧
    after (.schedulerDecision 0) (withCtx saved0 []) (fun t => t = withCtx saved0 []) = true := by decide +kernel
theorem wit_SchedulerDecides_quantum : ctx0.res = .resident ∧ 7 ≤ (withCtx ctx0 []).elapsed ∧
    after (.quantumExpiry 5 0) (withCtx { ctx0 with quantumEnd := some 7 } []) (fun t => (cx t).quantumEnd = none ∧ t.sched.due = [0] ∧
      t.rd R.SCH_TEN_ENGINE.CORE_NS 0 5 = millis 2000 / 10 * 2) = true ∧
    after (.quantumExpiry 5 0) (withCtx { ctx0 with quantumEnd := some (millis 3000) } []) (fun t => t = withCtx { ctx0 with quantumEnd := some (millis 3000) } []) = true := by
  decide +kernel
theorem wit_SchedulerDecides_blocked : ctx0.kind ≠ .glade ∧ ctx0.blocked = none ∧ saved0.rests = true ∧
    saved0.readySince + millis ((withCtx saved0 []).rd R.SCH_CTRL.URGENT_MS) ≤ (withCtx saved0 []).elapsed ∧
    after (.contextBlocked 5 0) (withCtx { ctx0 with stall := some 0 } []) (fun t => (cx t).blocked = some (millis 2000) ∧ t.sched.due = [0]) = true ∧
    after (.contextBlocked 5 0) (withCtx ctx0 []) (fun t => t = withCtx ctx0 []) = true ∧
    after (.contextUrgent 5 0) (withCtx saved0 []) (fun t => (cx t).urgent = some (millis 2000) ∧ t.rd R.SCH_URGENT.COUNT = 1) = true := by decide +kernel
theorem wit_SchedulerDecides_ctrl : (withCtx ctx0 []).managed = true ∧
    after (.schCtrlWrite 1) (withCtx ctx0 []) (fun t => t.rd R.SCH_CTRL.QUANTUM_US = 100 ∧ t.rd R.SCH_CTRL.BLOCK_US = 1 ∧ t.rd R.SCH_CTRL.URGENT_MS = 1 ∧
      t.sched.due = [0]) = true := by decide +kernel

def saving (m : Mover) : State :=
  { withCtx { ctx0 with res := .saving } [] with coreStore := [⟨4, 9⟩], ten := { images := [(5, { loaded0 with img := { img0 with cores := [{ storeKiB := 1 }] } })] }
                                                 mem := { movers := [(0, m)] } }
theorem wit_SavesAndRestores_save : (saving {}).stopEnded (5, 0) { ctx0 with res := .saving } = true ∧ (saving {}).claimOf (5, 0) 0 = 65536 ∧
    after (.saveDone 5 0) (saving {}) (fun t => (cx t).res = .saved ∧ (cx t).saved.map (fun v => v.store) = [[⟨4, 9⟩]] ∧ t.coreStore = [] ∧
      t.rd R.STR_SITE.OWNER 0 = 0x7FF) = true := by decide +kernel
def restoring0 : Ctx := { ctx0 with res := .restoring, saved := [{ store := [⟨4, 9⟩], mover := some { late := [req0 3 0] } }] }
theorem wit_SavesAndRestores_restore : (withCtx restoring0 []).occupants (5, 0) restoring0 = [] ∧ restoring0.saved.length = restoring0.size ∧
    Mem.wf (withCtx restoring0 []).coreStore = true ∧ (∀ v ∈ restoring0.saved, Mem.wf v.store = true ∧ ∀ x ∈ v.store, x.1 < coreStoreSize) ∧
    after (.restoreDone 5 0) (withCtx restoring0 []) (fun t => (cx t).res = .resident ∧ t.coreStore = [⟨4, 9⟩] ∧ t.rd R.STR_SITE.OWNER 0 = 5 ∧
      (cx t).quantumEnd = some (millis 2000 + micros (ready.rd R.SCH_CTRL.QUANTUM_US))) = true := by decide +kernel
def late0 : Ctx := { restoring0 with res := .saved }
theorem wit_SavesAndRestores_pending : (withCtx late0 []).ctxMover late0 0 = some { late := [req0 3 0] } ∧ late0.rests = true ∧
    after (.pendingEntryEnd 5 0 0 3 [] false) (withCtx late0 []) (fun t => (cx t).saved.map (fun v => v.mover.map fun m => m.late) = [some []]) = true ∧
    after (.pendingEntryEnd 5 0 0 3 [] false) { withCtx ctx0 [] with mem := { movers := [(0, { late := [req0 3 0] })] } }
      (fun t => (t.mover 0).late = []) = true := by decide +kernel

/-- A glade context of owner 5 whose one core may be lent, and a borrow context of owner 6 parked on it. -/
def lendable : Loaded :=
  { loaded0 with img := { img0 with glade := true, radio := some ⟨1, [], []⟩ }
                 placed := [{ group := 0, shape := { loose := true, cores := [0], lend := some { first := 0, units := 4 } }, cluster := 0, row := 0, col := 0 }] }
def glade0 : Ctx := { ctx0 with kind := .glade }
def borrow0 : Ctx := { ctx0 with kind := .borrow, host := some (5, 0), res := .parked, ready := true, saved := [{}] }
def lending (g b : Ctx) (l : Tab (Nat × Nat) LendSt) : State :=
  { (ready.wr R.STR_SITE.OWNER 5 0).wr R.SCH_LEND_CTRL.LEND_EN 1 with
    elapsed := micros 100, ten := { images := [(5, lendable)] }, sched := { ctxs := [((5, 0), g), ((6, 0), b)], lent := l } }
def bx (t : State) : CtxRes := ((t.ctx (6, 0)).getD borrow0).res
theorem wit_GladeShapesAreLent_start : (lending glade0 borrow0 []).borrowers (5, 0) = [((6, 0), borrow0)] ∧
    ((lending glade0 borrow0 []).lendDecl (5, 0)).isSome = true ∧ (lending glade0 borrow0 []).siteIdle 0 = true ∧
    (lending glade0 borrow0 []).inUse 1 [] 0 = false ∧ (lending glade0 borrow0 []).nextUse 1 [] 0 = none ∧
    after (.lendStart 5 0) (lending glade0 borrow0 []) (fun t => (cx t).res = .saved ∧ bx t = .restoring ∧
      (t.sched.lent.find (5, 0)).map (fun l => l.borrower) = some (6, 0) ∧ t.rd R.SCH_LENDS.COUNT = 1) = true := by decide +kernel
def lentTo (use : Option Int) : LendSt := { borrower := (6, 0), phase := .lent, use := use }
def lentOut (use : Option Int) : State := lending { glade0 with res := .saved } { borrow0 with res := .resident } [((5, 0), lentTo use)]
theorem wit_GladeShapesAreLent_recall : (lentTo none).phase ≠ .returning ∧ ((lentOut none).tai : Int) + 6000 < 6001 ∧
    after (.recall 5 0) (lentOut (some 6001)) (fun t => t = lentOut (some 6001)) = true ∧
    after (.recall 5 0) (lentOut (some 6000)) (fun t => bx t = .saving ∧
      (t.sched.lent.find (5, 0)).map (fun l => (l.phase, l.recallAt)) = some (.returning, micros 100)) = true := by decide +kernel
def returning0 : State := lending { glade0 with res := .restoring, saved := [{}] } borrow0 [((5, 0), { lentTo none with phase := .returning, recallAt := micros 93 })]
theorem wit_GladeShapesAreLent_return : micros 6 < returning0.elapsed - micros 93 ∧
    after (.returnDone 5 0) returning0 (fun t => (cx t).res = .resident ∧ t.sched.lent = [] ∧ t.rd R.SCH_RETURN_MAX.LONGEST_NS = 7000 ∧
      t.rd R.SCH_RETURN_MAX.OVER = 1) = true ∧
    after (.schLendCtrlWrite 0) (lentOut none) (fun t => (t.sched.lent.find (5, 0)).map (fun l => l.phase) = some .returning) = true ∧
    after (.schLendCtrlWrite 1) (lentOut none) (fun t => t.sched.lent = (lentOut none).sched.lent) = true := by decide +kernel

/-! ### Radio service -/

def flow0 : ImgFlow := { egress := false, quad := 0, cell := 1, mac := 0x11, vlan := 7, eaxc := 3, nPrb := 1, iq := 0, rate := 100, burstKB := 1, winStart := -1000000, winEnd := 1000000 }
def cell0 : ImgCell := { cell := 1, group := 0, dlLoc := 3, ulLoc := 4, pattern := [(true, 1)], ulCutoff := 400000, dlDeadline := 5, ulDeadline := 6 }
def item0 : RadItem := { owner := 5, cell := 1, loc := 3, words := [1, 2, 3, 4, 5, 6, 7], deadline := 0, ruAbsent := false }
/-- Quad 0 in Ethernet mode with its link up, its MAC 0x22, one flow, one cell of glade 5 with a radio item of both its queues waiting. -/
def radio (r : RadSt) : State :=
  { ((ready.wr R.RAD_Q_MODE.MODE 1 0).wr R.RAD_Q_LINK.STATE 1 0).wr R.RAD_Q_MAC.MAC 0x22 0 with
    rad := { r with glades := [(5, { radio := ⟨1, [cell0], [flow0]⟩, lastM := some (-700000000000) })] } }
def flowE : FlowEnt := { flow := flow0, owner := 5 }
def rad0 : RadSt := { cells := [(1, { owner := 5 })], flows := [((0, false, 0), flowE)], waiting := [item0, { item0 with loc := 4 }] }
def radioAt (ns : Nat) (r : RadSt) : State := { radio r with count := (315964819 * 10 ^ 9 + ns) * nsUnit, elapsed := 10 ^ 9 }
/-- A U-plane frame of one PRB for slot 0 of subframe 0 of frame 0, symbol 0. -/
def frame0 : RxFrame := { length := 86, dst := 0x22, src := 0x11, vlan := 7, payload := 60, pcId := 3, sections := [(0, 1, [(0, List.replicate 24 1)])] }
def quadCounts (t : State) : List Nat := [t.rd R.RAD_Q_DROP_A.MALFORMED 0, t.rd R.RAD_Q_DROP_A.SPOOFED 0, t.rd R.RAD_Q_DROP_B.EARLY 0, t.rd R.RAD_Q_DROP_C.LATE 0, t.rd R.RAD_Q_DROP_B.POLICED 0]
theorem wit_FrameReceiveChecks_first : (radio rad0).ethernet 0 = true ∧ (radio rad0).quadUp 0 = true ∧
    after (.frameReceive 0 { frame0 with length := 63 }) (radio rad0) (fun t => quadCounts t = [1, 0, 0, 0, 0]) = true ∧
    after (.frameReceive 0 { frame0 with etherType := 0x8808 }) (radio rad0) (fun t => t = radio rad0) = true ∧
    after (.frameReceive 0 { frame0 with pcId := 4 }) (radio rad0) (fun t => quadCounts t = [0, 1, 0, 0, 0]) = true ∧
    after (.frameReceive 0 { frame0 with dst := 0x23 }) (radio rad0) (fun t => quadCounts t = [0, 1, 0, 0, 0]) = true := by decide +kernel
def dropsOf (t : State) : Option (Nat × Nat) := (t.rad.flows.find (0, false, 0)).map fun d => (d.accepted, d.dropped)
theorem wit_FrameReceiveChecks_slot : (radioAt 0 rad0).frameSlot 1 frame0 (radioAt 0 rad0).tai = some 0 ∧ frame0.sectionsGood flow0 = true ∧
    after (.frameReceive 0 frame0) (radioAt 0 rad0) (fun t => quadCounts t = [0, 0, 0, 0, 0] ∧ dropsOf t = some (1, 0) ∧
      (t.rad.cells.find 1).map (fun c => c.heard) = some true) = true ∧
    after (.frameReceive 0 { frame0 with version := 2 }) (radioAt 0 rad0) (fun t => quadCounts t = [1, 0, 0, 0, 0] ∧ dropsOf t = some (0, 1)) = true ∧
    after (.frameReceive 0 frame0) (radioAt 400000 rad0) (fun t => quadCounts t = [0, 0, 0, 1, 0]) = true ∧
    after (.frameReceive 0 frame0) { radioAt 0 rad0 with elapsed := 0 } (fun t => quadCounts t = [0, 0, 0, 0, 1]) = true := by decide +kernel
def earlyFlow : RadSt := { rad0 with flows := [((0, false, 0), { flowE with flow := { flow0 with winStart := 1 } })] }
theorem wit_FrameReceiveChecks_early : (0 : Int) * 14 < 1 * 14 ∧
    after (.frameReceive 0 frame0) { radioAt 0 earlyFlow with rad := { earlyFlow with glades := [(5, { radio := ⟨1, [cell0], []⟩ })] } }
      (fun t => quadCounts t = [0, 0, 1, 0, 0]) = true ∧
    after (.frameReceive 0 { frame0 with msgType := 5 }) (radioAt 0 rad0) (fun t => ((t.txPort 0).queues.findD 7 []).length = 1) = true := by decide +kernel
theorem wit_FrameReceiveChecks_mode : ((radio rad0).rad.flows.any fun e => e.1.1 = 0) = true ∧ ready.rad.flows = [] ∧ ready.rd R.WOR_P_STATE.STATE 0 = 0 ∧
    ready.isOut (.quad 0) = false ∧ after (.radQModeWrite 0 2) (radio rad0) (fun t => t = radio rad0) = true ∧
    after (.radQModeWrite 0 1) ready (fun t => t.rd R.RAD_Q_MODE.MODE 0 = 1 ∧ t.rd R.RAD_Q_LINK.STATE 0 = 3) = true := by decide +kernel
def beatOf (l : Int) (r : RadSt) : State := { radioAt 1000000 r with rad := { r with glades := [(5, { radio := ⟨1, [cell0], [flow0]⟩, lastM := some l })] } }
theorem wit_RadioSlotsAndMoves_beat : (beatOf 0 rad0).slotAt 1 (beatOf 0 rad0).tai = 2 ∧ (cell0.slotOf 2).1 = true ∧ (∀ e ∈ rad0.cells, e.2.next = none) ∧
    after (.drumbeat 5) (beatOf 2 rad0) (fun t => t = beatOf 2 rad0) = true ∧
    after (.drumbeat 5) (beatOf 0 rad0) (fun t => t.rd R.RAD_GLADE_DRUM.LAST_M 0 5 = 2 ∧ t.rd R.RAD_GLADE_DRUM.SKIPPED 0 5 = 1 ∧
      t.rad.waiting.length = 3 ∧ (t.rad.waiting.getLast?).map (fun x => x.words.headD 0) = some (2 + 2 ^ 32 + 2 ^ 41)) = true := by decide +kernel
def cutting (heard : Bool) (quiet : Nat) : RadSt := { rad0 with cells := [(1, { owner := 5, heard := heard, quiet := quiet, cutoffs := [(5, 0)] })] }
theorem wit_RadioSlotsAndMoves_cutoff : (radioAt 0 (cutting true 0)).cellCfg 5 1 = some cell0 ∧
    after (.uplinkCutoff 1) (radioAt 399999 (cutting true 0)) (fun t => t = radioAt 399999 (cutting true 0)) = true ∧
    after (.uplinkCutoff 1) (radioAt 400000 (cutting true 0)) (fun t => (t.rad.cells.find 1).map (fun c => (c.quiet, c.absent, c.cutoffs)) = some (0, false, []) ∧
      t.rad.waiting.length = 3) = true ∧
    after (.uplinkCutoff 1) (radioAt 400000 (cutting false 1000)) (fun t => t.rd R.RAD_CELL_CNT.ABSENCES 0 1 = 1 ∧
      (t.rad.waiting.getLast?).map (fun x => x.ruAbsent) = some true) = true := by decide +kernel
/-- The queue of local index 3 fed by radio service. -/
def offering (acc : Nat) : State := { queues [(2, { queue2 with msgFed := true, accepted := acc })] with rad := rad0, count := 10 * nsUnit }
def soon (acc : Nat) : State := { offering acc with rad := { rad0 with waiting := [{ item0 with deadline := 9999 }, { item0 with loc := 4 }] } }
theorem wit_RadioSlotsAndMoves_offer : (offering 0).localQueue 5 3 = some (2, { queue2 with msgFed := true }) ∧ (offering 0).radioAhead 0 item0 = false ∧
    (offering 0).hold 2 { queue2 with msgFed := true } = 0 ∧ (offering 0).passed item0.deadline = true ∧ (soon 0).passed 9999 = false ∧
    after (.radioItemOffer 0) (offering 0) (fun t => t = offering 0) = true ∧
    after (.radioItemOffer 0) (soon 0) (fun t => t.rad.waiting.length = 1 ∧ (q2 t).writing.map (fun w => w.1.words) = [[1, 1, 2, 3, 4, 5, 6, 7]]) = true ∧
    after (.radioItemOffer 0) (soon 16) (fun t => t = soon 16) = true ∧
    after (.radioItemDiscard 0) (offering 0) (fun t => t.rad.waiting.length = 1 ∧ t.rd R.RAD_CELL_CNT.UNSENT 0 1 = 1) = true := by decide +kernel
def movingCell : State := (radioAt 0 rad0).wr R.RAD_MOVE_ARG.CELL 1
def cancelling (n : Option (Nat × Int)) : State := { movingCell with rad := { rad0 with cells := [(1, { owner := 5, next := n })], glades := [(5, { radio := ⟨1, [cell0], [flow0]⟩ })] } }
theorem wit_RadioSlotsAndMoves_move : movingCell.moveCause 1 0 ≠ 0 ∧ (movingCell.wr R.RAD_MOVE_ARG.CELL 2).moveCause 2 0 = 1 ∧
    after .cellMove movingCell (fun t => t.rad = movingCell.rad ∧ t.rd R.RAD_MOVE_STATUS.STATUS = 5) = true ∧
    after .moveCancel (cancelling (some (6, 100))) (fun t => (t.rad.cells.find 1).map (fun c => c.next) = some none) = true ∧
    after .moveCancel (cancelling none) (fun t => t.rd R.RAD_MOVE_STATUS.CAUSE = 6) = true := by decide +kernel
def fecUsing (n : Nat) : State := { radioAt 0 { rad0 with window := -1 } with eng := { fecUse := [((-1, 5, 0, false), (n, false))] } }
theorem wit_RadioSlotsAndMoves_window : Int.fdiv (((fecUsing 0).tai : Int) - gpsEpoch - (fecUsing 0).frameOffset) 500000 = 0 ∧
    (((fecUsing 1).wr R.SCH_TEN_CFG.IMAGE 1 0 5).declared 5 0).1 = 0 ∧
    after .fecUseWindow ((fecUsing 1).wr R.SCH_TEN_CFG.IMAGE 1 0 5) (fun t => t.rad.window = 0 ∧ t.rd R.RAD_GLADE_FEC.OVER_DEC 0 5 = 1 ∧ t.eng.fecUse = [((-1, 5, 0, false), (1, true))]) = true ∧
    after .fecUseWindow { fecUsing 1 with rad := { rad0 with window := 0 } } (fun t => t.eng.fecUse.length = 1) = true := by decide +kernel

def txf : TxFrame := { bytes := List.replicate 60 0, queued := 0, stamp := some 9 }
def egress0 (p : TxPort) : State := { radioAt 0 rad0 with rad := { rad0 with ports := [(0, p)] } }
theorem wit_EgressOfAQuad_transmit : ((egress0 { queues := [(2, [txf])] }).creditTo 0).eligible 0 2 txf = true ∧
    after (.frameTransmit 0) (egress0 { queues := [(2, [txf])] }) (fun t => (t.txPort 0).sending = some (2, txf, 10 ^ 9) ∧
      (t.tim.stamps.findD 0 []).map (fun e => (e.id, e.timing)) = [(9, false)]) = true := by decide +kernel
def sendingF (start : Nat) : State := egress0 { sending := some (2, txf, start) }
theorem wit_EgressOfAQuad_sent : 10 * (10 ^ 9 - (10 ^ 9 - 8)) < txf.bytes.length + 24 ∧ txf.bytes.length + 24 ≤ 10 * (10 ^ 9 - (10 ^ 9 - 9)) ∧
    after (.frameSent 0) (sendingF (10 ^ 9 - 8)) (fun t => t = sendingF (10 ^ 9 - 8)) = true ∧
    after (.frameSent 0) (sendingF (10 ^ 9 - 9)) (fun t => (t.txPort 0).sending = none) = true := by decide +kernel
def lateF : TxFrame := { txf with launch := some 0 }
theorem wit_EgressOfAQuad_drop : (egress0 { queues := [(2, [txf])] }).quadUp 0 = true ∧
    (egress0 { queues := [(2, [lateF])] }).passed (0 + (egress0 { queues := [(2, [lateF])] }).rd R.RAD_Q_TXCFG.TX_LATE_NS 0) = true ∧
    after (.txDrop 0 2) (egress0 { queues := [(2, [txf])] }) (fun t => t = egress0 { queues := [(2, [txf])] }) = true ∧
    after (.txDrop 0 2) (egress0 { queues := [(2, [lateF, txf])] }) (fun t => (t.txPort 0).queues = [(2, [txf])] ∧ t.rd R.RAD_Q_DROP_C.TX_DROP 0 = 1) = true := by
  decide +kernel
theorem wit_EgressOfAQuad_down : ready.quadUp 0 = false ∧ after (.quadDown 0) ready (fun t => t = ready) = true ∧
    after (.quadDown 0) (egress0 { queues := [(2, [txf, txf])], sending := some (1, txf, 0) }) (fun t => t.rd R.RAD_Q_DROP_C.TX_DROP 0 = 3 ∧
      t.rd R.RAD_Q_LINK.STATE 0 = 2) = true := by decide +kernel
def shaped : State := ((egress0 { queues := [(2, [txf])] }).wr R.RAD_Q_CBS.EN 1 0 2).wr R.RAD_Q_CBS.IDLE_MBPS 100 0 2
theorem wit_EgressOfAQuad_gates : shaped.flag R.RAD_Q_CBS.EN 0 2 = true ∧ (shaped.txPort 0).gates.testBit 2 = true ∧
    after (.gateInterval 0) (shaped.wr R.RAD_Q_CBS.HI_BYTES 5 0 2) (fun t => (t.txPort 0).credit.findD 2 0 = 5 * 200000 ∧ (t.txPort 0).creditAt = 10 ^ 9) = true ∧
    after (.queueSample 0) shaped (fun t => t.rd R.RAD_Q_DEPTH.LAST_BYTES 0 2 = 84 ∧ t.rd R.RAD_Q_DELAY.MAX_NS 0 2 = 200000000) = true := by decide +kernel

/-- A core whose vector engine has an instruction to run has not stalled. -/
theorem wit_SchedulerDecides_runs :
    let s := (withCtx ctx0 []).wr R.SIG_STATE.RUNNING 1 0
    (s.ctxSites ctx0).all s.siteStalled = false ∧ ((withCtx ctx0 []).ctxSites ctx0).all (withCtx ctx0 []).siteStalled = true ∧
    after (.contextBlocked 5 0) s (fun t => t = s) = true := by decide +kernel
theorem wit_FrameReceiveChecks_kinds :
    let padded : RxFrame := { frame0 with length := 64, payload := 30 }
    (padded.length = 64 ∧ 26 + padded.payload ≤ 64) ∧ (radioAt 0 { rad0 with cells := [] }).rad.cells.find flow0.cell = none ∧
    after (.frameReceive 0 { frame0 with oneTag := false }) (radio rad0) (fun t => quadCounts t = [1, 0, 0, 0, 0]) = true ∧
    after (.frameReceive 0 { frame0 with etherType := 0x800 }) (radio rad0) (fun t => quadCounts t = [1, 0, 0, 0, 0]) = true ∧
    after (.frameReceive 0 { padded with pcId := 4 }) (radio rad0) (fun t => quadCounts t = [0, 1, 0, 0, 0]) = true ∧
    after (.frameReceive 0 frame0) (radioAt 0 { rad0 with cells := [] }) (fun t => quadCounts t = [1, 0, 0, 0, 0]) = true := by decide +kernel
theorem wit_EgressOfAQuad_sample :
    let s := egress0 { queues := [(2, [txf])], sampledAt := 10 ^ 9 }
    s.elapsed < (s.txPort 0).sampledAt + 5 * s.rd R.RAD_Q_TXCFG.SAMPLE_NS 0 ∧ after (.queueSample 0) s (fun t => t = s) = true ∧
    (shaped.txPort 0).sampledAt + 5 * shaped.rd R.RAD_Q_TXCFG.SAMPLE_NS 0 ≤ shaped.elapsed := by decide +kernel

/-- A restored context that is to move is stopped again. -/
theorem wit_SavesAndRestores_moving : (withCtx { restoring0 with moving := true } []).occupants (5, 0) { restoring0 with moving := true } = [] ∧
    after (.restoreDone 5 0) (withCtx { restoring0 with moving := true } []) (fun t => (cx t).res = .saving ∧ t.sched.due = [0]) = true := by decide +kernel
/-! ### Time -/

def stepping (v : Nat) : State := { ready.wr R.TIM_STEP.STEP_NS v with count := 10 * secUnit + 5 }
def ticking : State := { ready with count := 10 * secUnit + 7 * nsUnit + 5, elapsed := 5 * 1100000000 }
theorem wit_CounterSetAndLatched_set : ready.managed = true ∧
    after .set ((ready.wr R.TIM_SET_SEC.SEC 9).wr R.TIM_SET_NS.NS 999999999) (fun t => t.sec = 9 ∧ t.ns = 999999999 ∧ t.frac = 0 ∧ t.rd R.TIM_STATUS.VALID = 1) = true ∧
    after .set (ready.wr R.TIM_SET_NS.NS 1000000000) (fun t => t = ready.wr R.TIM_SET_NS.NS 1000000000) = true ∧
    after .step (stepping (2 ^ 47)) (fun t => t = stepping (2 ^ 47)) = true ∧
    after .step (stepping (2 ^ 48 - 1)) (fun t => t.sec = 9 ∧ t.ns = 999999999 ∧ t.frac = (stepping 0).frac ∧ t.rd R.TIM_STATUS.STEPS = 1) = true ∧
    after .step (stepping (2 ^ 47 - 1)) (fun t => t.tai = 10 * 10 ^ 9 + 2 ^ 47 - 1) = true := by decide +kernel
theorem wit_CounterSetAndLatched_latch :
    after .snap ticking (fun t => t.rd R.TIM_SNAP_SEC.SEC = 10 ∧ t.rd R.TIM_SNAP_NS.NS = 7 ∧ t.rd R.TIM_SNAP_NS.FRAC = ticking.frac) = true ∧
    after .ppsEdge ticking (fun t => t.rd R.TIM_PPS_SEC.SEC = 10 ∧ t.rd R.TIM_PPS_NS.COUNT = 1 ∧ t.rd R.TIM_STATUS.PPS_OK = 1) = true ∧
    after .ppsLoss (ticking.wr R.TIM_STATUS.PPS_OK 1) (fun t => t.rd R.TIM_STATUS.PPS_OK = 0) = true ∧
    after .ppsLoss { ticking with elapsed := 5 * 1100000000 - 1 } (fun t => t = { ticking with elapsed := 5 * 1100000000 - 1 }) = true ∧
    after .holdover ticking (fun t => t.rd R.TIM_STATUS.HOLDOVER = 1 ∧ t.rd R.TIM_STATUS.REF_OK = 0) = true ∧
    after .refClkRestore { ticking with tim := { gapAt := 5500000000 - 4999999, lostAt := some 7 } } (fun t => t.tim.lostAt = some 7) = true ∧
    after .refClkRestore { ticking with tim := { gapAt := 10 ^ 9, lostAt := some 0 } } (fun t => t.tim.lostAt = none ∧ t.rd R.TIM_STATUS.REF_OK = 1) = true := by decide +kernel

/-- A toll of 10 ns pulses whose START is the counter's second `sec`, nanosecond `ns`. -/
def tolling (sec ns period : Nat) : State :=
  { ((ready.wr R.TIM_TOLL_START.SEC_LO sec 0).wr R.TIM_TOLL_START.NS ns 0).wr R.TIM_TOLL_PERIOD.PERIOD_NS period 0 with count := 10 * secUnit }
def onceV : Word := BitVec.ofNat 64 (1 + 10 * 2 ^ 32)
def periodicV : Word := BitVec.ofNat 64 (1 + 2 + 10 * 2 ^ 32)
theorem wit_TollsRingsAndClocks_arm :
    after (.tollArm 0 onceV) (tolling 10 1000 0) (fun t => t.tim.tolls.find 0 = some { start := 10000001000, next := 0, first := 0 }) = true ∧
    after (.tollArm 0 onceV) (tolling 10 999 0) (fun t => t.rd R.TIM_TOLL_STAT.LATE 0 0 = 1 ∧ t.rd R.TIM_TOLL_CTRL.EN 0 0 = 0) = true ∧
    after (.tollArm 0 periodicV) (tolling 10 0 400) (fun t => t.tim.tolls.find 0 = some { start := 10000000000, next := 3, first := 3 } ∧ t.rd R.TIM_TOLL_STAT.ARMED 0 0 = 1) = true ∧
    after (.tollArm 0 periodicV) (tolling 10 0 99) (fun t => t.rd R.TIM_TOLL_STAT.BAD 0 0 = 1 ∧ t.rd R.TIM_TOLL_CTRL.WIDTH_NS 0 0 = 10) = true ∧
    after (.tollArm 0 onceV) ((tolling 10 1000 0).wr R.TIM_TOLL_CTRL.EN 1 0 0) (fun t => t.rd R.TIM_TOLL_CTRL.WIDTH_NS 0 0 = 0) = true := by decide +kernel
def armedToll (x : TollSt) : State :=
  { (((tolling 10 0 400).wr R.TIM_TOLL_CTRL.EN 1 0 0).wr R.TIM_TOLL_CTRL.PERIODIC 1 0 0).wr R.TIM_TOLL_CTRL.WIDTH_NS 10 0 0 with
    elapsed := 100, tim := { tolls := [(0, x)] } }
theorem wit_TollsRingsAndClocks_edges :
    after (.tollDisarm 0 0) (armedToll { start := 10 ^ 10, next := 0 }) (fun t => t.tim.tolls = [] ∧ t.rd R.TIM_TOLL_CTRL.EN 0 0 = 0) = true ∧
    after (.tollDisarm 0 (9 * 2 ^ 32)) (tolling 0 0 0) (fun t => t.rd R.TIM_TOLL_CTRL.WIDTH_NS 0 0 = 9) = true ∧
    after (.tollEdge 0) (armedToll { start := 10 ^ 10, next := 0 }) (fun t => t.tollActive 0 ∧ t.tim.tolls = [(0, { start := 10 ^ 10, next := 1, given := some 0, pulseEnd := some (.count (10000000010 * nsUnit)) })]) = true ∧
    after (.tollEdge 0) (armedToll { start := 10 ^ 10, next := 0, pulseEnd := some (.elapsed 101) }) (fun t => t.rd R.TIM_TOLL_STAT.SKIPPED 0 0 = 1) = true ∧
    after (.tollEdge 0) (armedToll { start := 10 ^ 10, next := 1 }) (fun t => t = armedToll { start := 10 ^ 10, next := 1 }) = true ∧
    after (.tollPulseEnd 0) (armedToll { start := 10 ^ 10, next := 1, pulseEnd := some (.elapsed 100) }) (fun t => !t.tollActive 0 ∧ t.tim.tolls = [(0, { start := 10 ^ 10, next := 1 })]) = true ∧
    after (.tollPulseEnd 0) ((armedToll { start := 10 ^ 10, next := 1, pulseEnd := some (.elapsed 100) }).wr R.TIM_TOLL_CTRL.PERIODIC 0 0 0) (fun t => t.tim.tolls = []) = true := by
  decide +kernel
/-- Edge 2 was the last given; the counter is 1,000 ns past START when it steps back by 500 ns, past edge 1. -/
theorem wit_CounterSetAndLatched_back :
    let s : State := { (armedToll { start := 10 ^ 10, next := 3, given := some 2 }).wr R.TIM_STEP.STEP_NS (2 ^ 48 - 500) with count := 10 * secUnit + 1000 * nsUnit }
    s.managed = true ∧ after .step s (fun t => t.tim.tolls = [(0, { start := 10 ^ 10, next := 3, given := some 2 })]) = true ∧
    after .step { s with tim := { tolls := [(0, { start := 10 ^ 10, next := 3 })] } } (fun t => t.tim.tolls = [(0, { start := 10 ^ 10, next := 2 })]) = true := by
  decide +kernel
def dieOut (l : List Nat) : State := { ready with err := { out := l.map fun d => .die d } }
def goodSlot : List Byte := 60 :: (List.replicate 42 0 ++ [0x22, 0x81, 0, 0, 0, 0x88, 0xF7] ++ List.replicate 42 0)
theorem wit_TollsRingsAndClocks_rings : (dieOut [0]).isOut (.die 0) = true ∧ (dieOut [0]).isOut (.die 7) = false ∧
    after .tollHandover (dieOut [0]) (fun t => t.tollDie = some 7) = true ∧ after .tollHandover ready (fun t => t = ready) = true ∧
    (egress0 {}).ethernet 0 = true ∧ (egress0 {}).quadUp 0 = true ∧ (egress0 {}).queuedBytes 0 = 0 ∧ (egress0 {}).slotGood 0 goodSlot = true ∧
    (egress0 {}).slotGood 0 [] = false ∧ ready.ethernet 0 = false ∧
    after (.txRingProdWrite 0 1 [goodSlot] []) (egress0 {}) (fun t => t.rd R.TIM_Q_TXIDX.CONS 0 = 1 ∧ ((t.txPort 0).queues.findD 7 []).map (fun f => f.bytes.length) = [60]) = true ∧
    after (.txRingProdWrite 0 1 [goodSlot] [0]) (egress0 {}) (fun t => t.rd R.TIM_Q_TXIDX.CONS 0 = 1 ∧ t.rd R.RAD_Q_DROP_C.TX_DROP 0 = 1 ∧ t.rd R.HST_POISON.COUNT = 1) = true ∧
    after (.txRingProdWrite 0 1 [[]] []) (egress0 {}) (fun t => t.rd R.TIM_Q_TXIDX.CONS 0 = 1 ∧ t.rd R.RAD_Q_DROP_C.TX_DROP 0 = 1) = true := by decide +kernel
def synce : State := ((((egress0 {}).wr R.TIM_SYNCE.EN 1 0 0).wr R.RAD_Q_LINK.STATE 1 0).wr R.RAD_Q_LINK.LANES 1 0).wr R.TIM_SYNCE.SQUELCHED 1 0 0
theorem wit_TollsRingsAndClocks_synce :
    after (.synceSquelch 0) synce (fun t => t.rd R.TIM_SYNCE.SQUELCHED 0 0 = 0) = true ∧
    after (.synceSquelch 0) (synce.wr R.TIM_SYNCE.LANE 1 0 0) (fun t => t.rd R.TIM_SYNCE.SQUELCHED 0 0 = 1) = true := by decide +kernel
/-- A SET past T reaches the barrier; a context that is not resident is still to be released. -/
theorem wit_CounterSetAndLatched_barrier :
    let s : State := { (armed 20000).wr R.TIM_SET_SEC.SEC 9 with sched := { ctxs := [((5, 0), saved0)] } }
    s.tai < 20000 ∧ after .set s (fun t => 20000 < t.tai ∧ t.det.bar.map (fun b => b.reached) = some true) = true := by decide +kernel
theorem wit_TollsRingsAndClocks_down : ((egress0 {}).wr R.RAD_Q_LINK.STATE 0 0).quadUp 0 = false ∧
    after (.txRingProdWrite 0 2 [goodSlot, []] []) ((egress0 {}).wr R.RAD_Q_LINK.STATE 0 0)
      (fun t => t.rd R.TIM_Q_TXIDX.PROD 0 = 2 ∧ t.rd R.TIM_Q_TXIDX.CONS 0 = 0 ∧ (t.tim.ring.findD 0 []).length = 2) = true := by decide +kernel
/-! ### The fabric -/

def link0 : PortLink := { credReq := 9, credRsp := 9, credCtl := 9, fresh := false, high := 100, accepted := [100, 99] }
/-- Quad 0's port is up with its link; node 1 is a known source whose CUM is 4; owner 5's clearing HBM at 0 is exported to it. -/
def win0 : ExportWin := { base := 0, pages := 16, read := true, write := true, atomic := true, anyNode := false, node := 1, owner := 5, clBase := 0 }
def wor0 : WorSt := { links := [(0, link0)], srcs := [(1, { cum := 4 })], exports := [(0, win0)] }
def fab (w : WorSt) : State :=
  { (((active5.wr R.WOR_P_STATE.STATE 3 0).wr R.WOR_CTRL.EN 1).wr R.WOR_P_CTRL.FENCE_THRESH 2 0).wr R.HBM_STATE.IN_SERVICE 1 0 with
    elapsed := 10 ^ 11, wor := w, mem := { extents := [((5, 0), ⟨0, 64, 4, true⟩)], hbm := [⟨1025 * 256, 7⟩] } }
def inp (p : Packet) : InPkt := ⟨0, 101, true, p⟩
def rd0 (seq : Nat) : Packet := { pk .read .request with seq := seq, addr := 0x100 }
def cumOf (t : State) : Nat := (t.srcOf 1).cum
def reps (t : State) : List (PktType × Nat) := (t.dest 1).replies.map fun r => (r.typ, r.seq)

theorem wit_FabricPacketChecks_link : (fab wor0).rd R.WOR_P_STATE.STATE 0 = 3 ∧ (rd0 5).legal = true ∧ link0.takes 101 = true ∧ link0.takes 100 = false ∧
    link0.takes 36 = true ∧ link0.takes 35 = false ∧
    after (.read { inp (rd0 5) with tagOk := false }) (fab wor0) (fun t => t.rd R.WOR_P_SEC.INTEG 0 = 1 ∧ (t.wor.links.find 0).map (fun l => l.fails.length) = some 1) = true ∧
    after (.read { inp (rd0 5) with ctr := 100 }) (fab wor0) (fun t => t.rd R.WOR_P_SEC.REPLAY 0 = 1) = true ∧
    after (.read { inp (rd0 5) with tagOk := false }) (fab { wor0 with links := [(0, { link0 with fails := [10 ^ 11 - 1] })] })
      (fun t => t.rd R.WOR_P_STATE.STATE 0 = 4 ∧ t.wor.links = []) = true := by decide +kernel
theorem wit_FabricPacketChecks_sequence : (fab wor0).rd R.WOR_CTRL.NODE = 0 ∧ seqLe 4 4 = true ∧ seqLe 7 4 = false ∧ seqNext 4 = 5 ∧
    after (.read (inp { rd0 5 with addr := 0x101 })) (fab wor0) (fun t => t.rd R.WOR_P_DROP.MALFORMED 0 = 1 ∧ reps t = []) = true ∧
    after (.read (inp (rd0 4))) (fab wor0) (fun t => t.rd R.WOR_P_DROP.DUP 0 = 1 ∧ reps t = [(.probeAck, 0)] ∧ cumOf t = 4) = true ∧
    after (.read (inp (rd0 7))) (fab wor0) (fun t => t.wor.reorder = [inp (rd0 7)] ∧ reps t = [(.nack, 5)]) = true := by decide +kernel

def wr0 : Packet := { pk .write .request with seq := 5, addr := 0x100, len := 256, mask := 1, data := List.replicate 256 9 }
def at0 : Packet := { pk .atomic .request with seq := 5, addr := 0x100, op := 1, size8 := true, atoms := [{ identity := 3, epoch := 1, stamp := 2, operand := 5 }] }
def fullBuf : WorSt := { wor0 with merge := [(channelOf 1025, List.replicate 256 ⟨0, [(0, 1)], 1, 0, 1⟩)] }
theorem wit_FabricHomeServes_windows : wr0.legal = true ∧ at0.legal = true ∧
    (fab wor0).serve 1 0x100 256 false (fun w => w.read) = .line 5 1025 ∧
    (fab wor0).serve 1 0x100 8 true (fun w => w.atomic) = .line 5 1025 ∧
    (fab wor0).serve 1 0x10000 256 true (fun w => w.write) = .denied none ∧ (fab wor0).merged (channelOf 1025) = [] ∧
    after (.read (inp (rd0 5))) (fab wor0) (fun t => cumOf t = 5 ∧ (t.dest 1).replies.map (fun r => r.data.take 2) = [[7, 0]]) = true ∧
    after (.read (inp { rd0 5 with addr := 0x10000 })) (fab wor0) (fun t => t.rd R.WOR_COUNTS_A.DENIED = 1 ∧ (t.dest 1).replies.map (fun r => r.data) = [zeroLine]) = true := by
  decide +kernel
theorem wit_FabricHomeServes_write :
    after (.write (inp wr0)) (fab wor0) (fun t => (t.merged (channelOf 1025)).map (fun m => (m.line, m.bytes)) = [(1025, [(0, 9)])] ∧ reps t = [] ∧ cumOf t = 5) = true ∧
    after (.write (inp { wr0 with addr := 0x10000 })) (fab wor0) (fun t => t.rd R.WOR_COUNTS_A.DENIED = 1 ∧ reps t = [(.writeAck, 5)]) = true ∧
    ((fab fullBuf).merged (channelOf 1025)).length = 256 ∧
    after (.write (inp wr0)) (fab fullBuf) (fun t => (t.wor.links.find 0).bind (fun l => l.stalled) = some (inp wr0, 10 ^ 11) ∧ cumOf t = 4) = true ∧
    after (.mergeApply 0 1) (fab { wor0 with merge := [(1, [⟨1, [(0, 9)], 1, 0, 5⟩])] }) (fun t => t.wor.merge = [] ∧ reps t = [(.writeAck, 5)]) = true := by decide +kernel
theorem wit_FabricHomeServes_atomic :
    after (.atomic (inp at0)) (fab wor0) (fun t => (t.dest 1).replies.map (fun r => r.atoms.map fun a => a.ret) = [[7]] ∧
      (t.seenLine 1025).take 2 = [12, 0] ∧ t.wor.replay.length = 1) = true ∧
    after (.atomic (inp at0)) (fab { wor0 with replay := [((1, 1, 0, 0), { pairs := [(2 * 2 ^ 44 + 3, 3, 21)] })] })
      (fun t => (t.dest 1).replies.map (fun r => r.atoms.map fun a => a.ret) = [[21]] ∧ t.mem = (fab wor0).mem) = true ∧
    after (.inv (inp { pk .inv .request with seq := 5, addr := 0x2000, lines := 2 })) { fab wor0 with mem := { lc := [(0, { lines := [{ line0 with key := .wor 0x20 }, { line0 with key := .wor 0x22 }] })] } }
      (fun t => reps t = [(.invAck, 5)] ∧ (t.cache 0).lines.map (fun x => x.key) = [.wor 0x22]) = true ∧
    after (.replayEntryFree 1 1 0 0) (fab { wor0 with replay := [((1, 1, 0, 0), { used := 5 * 10 ^ 10 })] }) (fun t => t.wor.replay = []) = true ∧
    after (.replayEntryFree 1 1 0 0) (fab { wor0 with replay := [((1, 1, 0, 0), { used := 5 * 10 ^ 10 + 1 })] }) (fun t => t.wor.replay.length = 1) = true := by decide +kernel

/-- One request outstanding toward node 1, sent with sequence 1, for what waits. -/
def out1 (w : FabricWait) : OutReq := { pkt := { pk .read .request with dst := 1, src := 0, seq := 1 }, wait := w, issued := 0, unsent := false }
def sourcing (d : DestSt) : State := fab { wor0 with dests := [(1, { d with route := 1, port := some 0, heard := 10 ^ 11 })] }
def asked (w : FabricWait) : State := sourcing { next := 2, unacked := [out1 w] }
def rsp (t : PktType) (c : PktClass) : Packet := { pk t c with seq := 1 }
def lineRsp : Packet := { rsp .readRsp .response with len := 256, data := List.replicate 256 3 }
theorem wit_FabricSource_stray : lineRsp.legal = true ∧ (fab wor0).matchReq lineRsp = none ∧
    after (.readRsp (inp lineRsp)) (fab wor0) (fun t => t.rd R.WOR_COUNTS_A.STRAY = 1) = true ∧
    after (.writeAck (inp (rsp .writeAck .response))) (fab wor0) (fun t => t.rd R.WOR_COUNTS_A.STRAY = 1) = true ∧
    after (.invAck (inp (rsp .invAck .response))) (fab wor0) (fun t => t.rd R.WOR_COUNTS_A.STRAY = 1) = true ∧
    after (.atomicRsp (inp (rsp .atomicRsp .response))) (fab wor0) (fun t => t.rd R.WOR_COUNTS_A.STRAY = 1) = true := by decide +kernel
def wor1 : Nat := 2 ^ 36 + 5
def filling1 : State := { asked (.fill 0 wor1) with mem := { lc := [(0, { fills := [{ key := .wor wor1, waiting := [], glade := false }] })] } }
def wreq : MovReq := { id := 3, desc := 0, space := .woruri, line := wor1, key := .wor wor1, write := some [(0, 1)], tag := { owner := 5 } }
def storing : State := { asked (.write 0 wreq) with mem := { movers := [(0, { slots := [wreq] })] } }
theorem wit_FabricSource_responses : filling1.matchReq lineRsp = some (out1 (.fill 0 wor1)) ∧
    after (.readRsp (inp lineRsp)) filling1 (fun t => ((t.cache 0).fill (.wor wor1)).bind (fun x => x.data) = some lineRsp.data) = true ∧
    (storing.mover 0).expects wreq = true ∧
    after (.writeAck (inp (rsp .writeAck .response))) storing (fun t => (t.mover 0).resp = [⟨wreq, [], false, true⟩]) = true ∧
    after (.invAck (inp (rsp .invAck .response))) ((asked .inv).wr R.WOR_INV_STATUS.BUSY 1) (fun t => t.rd R.WOR_INV_STATUS.BUSY = 0 ∧ (t.dest 1).unacked.all (fun u => u.answered)) = true := by
  decide +kernel
def eff1 : State := { asked (.effect ⟨2, 1, 0⟩) with que := { queues := [(2, { queue2 with sent := [(1, 0)], accepted := 1, items := [(1, { rec1 with released := true, effects := [atomE] })] })] } }
theorem wit_FabricSource_atomic : (rsp .atomicRsp .response).legal = true ∧ (eff1.queue 2).map (fun v => v.leaving) = some false ∧
    after (.atomicRsp (inp (rsp .atomicRsp .response))) eff1 (fun t => (q2 t).sent = []) = true ∧
    after (.atomicRsp (inp { rsp .atomicRsp .response with busy := true })) eff1
      (fun t => (q2 t).sent = [(1, 0)] ∧ (t.dest 1).again.map (fun x => (x.1.nocomb, x.2.1)) = [(true, .effect ⟨2, 1, 0⟩)]) = true := by decide +kernel
theorem wit_FabricSource_control :
    after (.nack (inp (rsp .nack .control))) (asked .inv) (fun t => (t.dest 1).unacked = [{ out1 .inv with unsent := true, resent := true }]) = true ∧
    seqBelow 0 1 = true ∧ seqLe 1 (2 + 2 ^ 32 - 1) = true ∧
    after (.probeAck (inp { rsp .probeAck .control with cum := 1 })) (asked .inv) (fun t => (t.dest 1).cum = 1 ∧ (t.dest 1).unacked.map (fun u => u.acked) = [true]) = true ∧
    after (.probeAck (inp (rsp .probeAck .control))) (asked .inv) (fun t => (t.dest 1).unacked.map (fun u => u.unsent) = [true]) = true ∧
    after (.probe (inp (rsp .probe .control))) (fab { wor0 with srcs := [] }) (fun t => reps t = [(.probeAck, 0)] ∧ t.wor.srcs.has 1) = true := by decide +kernel
theorem wit_FabricSource_probes : ((asked .inv).dest 1).oldest = some (out1 .inv) ∧
    after (.probeInterval 1) (asked .inv) (fun t => reps t = [(.probe, 1)] ∧ (t.dest 1).lastProbe = 10 ^ 11) = true ∧
    after (.probeInterval 1) (sourcing { next := 2, unacked := [{ out1 .inv with issued := 10 ^ 11 - 4999 }] }) (fun t => reps t = []) = true ∧
    (asked .inv).silent ((asked .inv).dest 1) = false ∧
    after (.deadTarget 1) (asked .inv) (fun t => t = asked .inv) = true := by decide +kernel
def silent1 : State := (fab { wor0 with dests := [(1, { next := 2, unacked := [out1 .inv], route := 1, port := some 0 })] }).wr R.WOR_INV_STATUS.BUSY 1
def dead1 : State := ((sourcing { dead := true }).wr R.WOR_NODE_SEL.NODE 1).wr R.WOR_STATUS.DEAD_NODES 1
theorem wit_FabricSource_dead : silent1.silent (silent1.dest 1) = true ∧
    after (.deadTarget 1) silent1 (fun t => (t.dest 1).dead ∧ t.rd R.WOR_COUNTS_B.DEAD_EVENTS = 1 ∧ t.rd R.WOR_INV_STATUS.BUSY = 0) = true ∧
    dead1.managed = true ∧ after .deadClear dead1 (fun t => !(t.dest 1).dead ∧ t.rd R.WOR_STATUS.DEAD_NODES = 0) = true := by decide +kernel
def toSend : State := sourcing { next := 2, unacked := [{ out1 .inv with unsent := true }] }
theorem wit_FabricSource_send : toSend.sendClass 0 (link0.grant 0 0 0) = some .request ∧ (toSend.dest 1).nextOf .request = some (out1 .inv).pkt ∧
    after (.packetSend 0 1 0 0 0) toSend (fun t => (t.wor.links.find 0).map (fun l => l.credReq) = some (9 - (out1 .inv).pkt.units) ∧
      (t.dest 1).unacked.map (fun u => u.unsent) = [false] ∧ t.rd R.WOR_P_TX.COUNT 0 = 1) = true := by decide +kernel
/-- Sequence 1,029 lies beyond the window of a source whose CUM is 4; 1,028 does not. -/
theorem wit_FabricPacketChecks_window : seqLe 1029 (4 + 1024) = false ∧ seqLe 1028 (4 + 1024) = true ∧
    after (.read (inp (rd0 1029))) (fab wor0) (fun t => t.rd R.WOR_P_DROP.MALFORMED 0 = 1 ∧ t.wor.reorder = []) = true ∧
    after (.read (inp (rd0 1028))) (fab wor0) (fun t => t.wor.reorder = [inp (rd0 1028)]) = true := by decide +kernel
/-- A request behind one that stalls the input waits; a doorbell write of a reach window rings; a gap asks again; the key is due. -/
def stalled0 : WorSt := { fullBuf with links := [(0, { link0 with stalled := some (inp wr0, 9) })] }
def reach5 : State :=
  { ((queues [(2, queue2)]).wr R.WOR_P_STATE.STATE 3 0 |>.wr R.SCH_TEN_CFG.REACH 2 0 5 |>.wr R.SCH_TEN_CFG.NODE 1 0 5) with
    elapsed := 10 ^ 11, wor := { links := [(0, link0)], srcs := [(1, { cum := 4 })] } }
def bellAt (off mask : Nat) : InPkt :=
  inp { pk .write .request with seq := 5, addr := 0xF0000000000 + 5 * 0x200000 + off, len := 64, mask := mask, data := [3, 0, 9] ++ List.replicate 61 0 }
theorem wit_FabricHomeServes_reach : reach5.serve 1 (0xF0000000000 + 5 * 0x200000) 64 true (fun w => w.write) = .reach 5 0 ∧ reach5.tenState 5 = 1 ∧
    (reach5.localQueue 5 3).isSome = true ∧ (bellAt 0 255).pkt.doorbell 0 = some (BitVec.ofNat 64 (3 + 9 * 65536)) ∧ (bellAt 0 3).pkt.doorbell 0 = none ∧
    after (.write (bellAt 0 255)) reach5 (fun t => (q2 t).db = 9 ∧ reps t = [(.writeAck, 5)]) = true ∧
    after (.write (bellAt 0 3)) reach5 (fun t => (q2 t).db = 0 ∧ t.rd R.WOR_COUNTS_A.DENIED = 1 ∧ reps t = [(.writeAck, 5)]) = true := by decide +kernel
theorem wit_FabricPacketChecks_behind :
    after (.read (inp (rd0 5))) (fab stalled0) (fun t => (t.wor.links.find 0).map (fun l => l.behind) = some [inp (rd0 5)] ∧ cumOf t = 4) = true ∧
    (fab stalled0).rd R.WOR_P_STATE.STATE 0 = 3 := by decide +kernel
theorem wit_FabricSource_gap : ({ cum := 4, early := some 7 } : SrcSt).gap = true ∧ ({ cum := 4 } : SrcSt).gap = false ∧
    after (.probeInterval 1) (fab { wor0 with srcs := [(1, { cum := 4, early := some 7 })], dests := [(1, { next := 2, unacked := [out1 .inv] })] })
      (fun t => (.nack, 5) ∈ reps t ∧ (t.srcOf 1).lastNack = 10 ^ 11) = true ∧
    after (.packetSend 0 1 0 0 0) (toSend.wr R.WOR_P_KEY.TX_CTR (2 ^ 47 - 1) 0) (fun t => t.wor.dests = toSend.wor.dests) = true := by decide +kernel
/-! ### Ports of the fabric, windows, and errors -/

def port0 (mode link st en : Nat) : State :=
  (((ready.wr R.RAD_Q_MODE.MODE mode 0).wr R.RAD_Q_LINK.STATE link 0).wr R.WOR_P_STATE.STATE st 0).wr R.WOR_P_CTRL.EN en 0
theorem wit_FabricPortsAndWindows_enable : (port0 2 1 3 1).isOut (.quad 0) = false ∧
    after (.worPortEnWrite 0 0) (port0 2 1 3 1) (fun t => t.rd R.WOR_P_CTRL.EN 0 = 0 ∧ t.rd R.WOR_P_STATE.STATE 0 = 5) = true ∧
    after (.worPortEnWrite 0 0x401) (port0 2 0 0 0) (fun t => t.rd R.WOR_P_STATE.STATE 0 = 1 ∧ t.rd R.RAD_Q_LINK.STATE 0 = 3 ∧ t.rd R.WOR_P_CTRL.FENCE_THRESH 0 = 4) = true ∧
    after (.quadTrainingEnd 0 true 15) (port0 2 3 1 1) (fun t => t.rd R.WOR_P_STATE.STATE 0 = 2 ∧ t.rd R.RAD_Q_LINK.LANES 0 = 15) = true ∧
    after (.quadTrainingEnd 0 true 15) (port0 1 3 0 0) (fun t => t.quadUp 0 ∧ t.rd R.RAD_Q_LINK.LANES 0 = 15) = true ∧
    after (.quadTrainingEnd 0 true 7) (port0 1 3 0 0) (fun t => !t.quadUp 0 ∧ t.err.quadFails = [(0, [0])]) = true ∧
    after (.quadTrainingEnd 0 true 3) (port0 1 1 0 0) (fun t => t = port0 1 1 0 0) = true ∧
    after (.quadTrainingEnd 0 false 0) (port0 1 3 0 0) (fun t => t.err.quadFails = [(0, [0])] ∧ t.rd R.RAD_Q_LINK.STATE 0 = 3) = true ∧
    after (.quadTrainingEnd 0 false 0) { port0 1 3 0 0 with elapsed := 5000000000, err := { quadFails := [(0, [9, 1])] } }
      (fun t => t.isOut (.quad 0) ∧ t.rd R.RAD_Q_LINK.STATE 0 = 0 ∧ (t.err.last.find 0).map (fun r => r.cls) = some 0x0D) = true := by decide +kernel
def upPort : State := { port0 2 1 3 1 with wor := { links := [(0, { link0 with high := 7 })], dests := [(1, { port := some 0, next := 2, unacked := [out1 .inv] })] } }
def spoken : State := { port0 2 1 2 1 with wor := { links := [(0, { spdm := [[1]] })] } }
theorem wit_FabricPortsAndWindows_secured :
    after (.spdm (inp { pk .spdm .control with data := [1] })) (port0 2 1 2 1) (fun t => (t.wor.links.findD 0 {}).spdm = [[1]]) = true ∧
    after (.portSecured 0 none) (port0 2 1 2 1) (fun t => t.rd R.WOR_P_STATE.STATE 0 = 2) = true ∧
    after (.portSecured 0 (some 1)) spoken (fun t => t.rd R.WOR_P_STATE.STATE 0 = 2) = true ∧
    after (.portSecured 0 none) spoken (fun t => t.rd R.WOR_P_STATE.STATE 0 = 3 ∧ (t.wor.links.findD 0 {}).credCtl = 128) = true ∧
    after (.keyUpdate 0) upPort (fun t => (t.wor.links.findD 0 {}).high = 0 ∧ t.rd R.WOR_P_KEY.UPDATES 0 = 1) = true ∧
    after (.reroute 0) upPort (fun t => t.rd R.WOR_P_STATE.STATE 0 = 5 ∧ (t.dest 1).port = none ∧ (t.dest 1).unacked.map (fun u => u.unsent) = [true]) = true := by
  decide +kernel
def winArgs (a b c : Nat) (w : WorSt) : State :=
  { (((active5.wr R.WOR_WIN_ARG.ARG a 0 0).wr R.WOR_WIN_ARG.ARG b 0 1).wr R.WOR_WIN_ARG.ARG c 0 2) with wor := w }
def imp0 : ImportWin := ⟨0x100000001000, 2, true, false, false⟩
theorem wit_FabricPortsAndWindows_windows :
    (winArgs 0x100000001000 (2 + 2 ^ 24) 0 {}).winCause 1 5 15 false = 0 ∧ (winArgs 0x100000001000 (2 + 2 ^ 24) 0 {}).winCause 1 5 16 false = 4 ∧
    after (.mapImport 5 15) (winArgs 0x100000001000 (2 + 2 ^ 24) 0 {}) (fun t => t.wor.imports = [((5, 15), imp0)]) = true ∧
    after (.mapExport 5 255) (winArgs 0x1000 (2 + 2 ^ 25 + 9 * 2 ^ 32) 0x3000 {}) (fun t => t.wor.exports = [(255, ⟨0x1000, 2, false, true, false, false, 9, 5, 0x3000⟩)]) = true ∧
    after (.mapExport 5 2) (winArgs 0x1000 1 0 { exports := [(3, { win0 with base := 0x1000, pages := 1 })] }) (fun t => t.rd R.WOR_WIN_STATUS.CAUSE = 0x0B) = true ∧
    after (.mapExport 5 2) (winArgs 0x2000 1 0 { exports := [(3, { win0 with base := 0x1000, pages := 1 })] }) (fun t => t.rd R.WOR_WIN_STATUS.STATUS = 0) = true ∧
    after (.unmap 5 0 true) (winArgs 0 0 0 { exports := [(0, win0)] }) (fun t => t.wor.exports = [] ∧ t.rd R.WOR_WIN_STATUS.STATUS = 0) = true ∧
    after (.unmap 5 0 false) (winArgs 0 0 0 { imports := [((5, 0), imp0)] }) (fun t => t.wor.imports = []) = true ∧
    after (.mapImport 1023 0) (winArgs 0x1000 1 0 {}) (fun t => t.rd R.WOR_WIN_STATUS.STATUS = 5 ∧ t.rd R.WOR_WIN_STATUS.CAUSE = 3) = true := by decide +kernel
def invArgs : State := (ready.wr R.WOR_INV_ARG.ARG 0x100000002000 0 0).wr R.WOR_INV_ARG.ARG (1 + 4096 * 2 ^ 16) 0 1
/-- Another node has not acknowledged a request made before the fence. -/
def behind : State := { invArgs with wor := { dests := [(2, { next := 2, unacked := [out1 .inv] })] } }
theorem wit_FabricPortsAndWindows_send : (invArgs.dest 1).dead = false ∧ (invArgs.dest 1).inPlay < 1024 ∧
    after .send invArgs (fun t => t.rd R.WOR_INV_STATUS.BUSY = 1 ∧ (t.dest 1).unacked.map (fun u => (u.pkt.lines, u.pkt.seq, u.pkt.addr)) = [(4096, 1, 0x100000002000)]) = true ∧
    after .send (invArgs.wr R.WOR_INV_STATUS.BUSY 1) (fun t => t = invArgs.wr R.WOR_INV_STATUS.BUSY 1) = true ∧
    after .send behind (fun t => t.rd R.WOR_INV_STATUS.BUSY = 1 ∧ (t.wor.inv.map fun x => (x.1.typ, x.1.dst, x.1.lines)) = some (.inv, 1, 4096) ∧
      t.wor.dests = behind.wor.dests) = true := by decide +kernel

def item11 : ItemRef := ⟨1, 1⟩
theorem wit_ErrorsAndRecoveries_detect : ready.siteServes 1151 = true ∧ CellClass.subs .program = 11 ∧
    after (.errorDetect (.cell .program 10 1151 7 (some item11) 9)) ready (fun t => t.failed = [(item11, 1)] ∧
      (t.err.ring.find 1).map (fun r => (r.seq, r.sub, r.level, r.item)) = some (1, 11, 0, 1) ∧ t.err.queue = []) = true ∧
    after (.errorDetect (.core 10 3 0)) ready (fun t => (t.siteRec 10).state = .failed ∧ t.err.queue = [⟨1, 1, .row 1, some 10⟩]) = true ∧
    after (.coreHang 10 false) ready (fun t => (t.siteRec 10).state = .failed ∧ !t.siteServes 10) = true ∧
    after (.coreHang 10 false) { ready with err := { out := [.row 1] } } (fun t => t.err.queue = []) = true := by decide +kernel
theorem wit_ErrorsAndRecoveries_units : ready.rd R.GLB_DIE_STATE.CHIEF = 0 ∧
    (∀ u ∈ [RecUnit.quadrant 31, .cluster 15, .stack 15, .die 3], ready.isOut u = false ∧ ready.chainAt u = none) ∧
    after (.errorDetect (.stack 15 1)) ready (fun t => t.isOut (.stack 15) ∧ t.rd R.HBM_STATE.IN_SERVICE 15 = 0) = true ∧
    after (.errorDetect (.die 3 0)) (dieOut [3]) (fun t => t = dieOut [3]) = true := by decide +kernel
def chiefLost (t : State) : Bool := decide (t.boot.lostChief = some 3) && decide (t.boot.electStart = 9) && t.err.out.isEmpty
theorem wit_ErrorsAndRecoveries_chief : after (.errorDetect (.die 0 2)) { ready with elapsed := 9 } chiefLost = true := by decide +kernel
def beating (m : Tab Nat Nat) : State := { ((ready.wr (R.GLB_DIE_STATE.DIE 0) 1).wr (R.GLB_DIE_STATE.DIE 3) 1) with err := { missed := m } }
theorem wit_ErrorsAndRecoveries_heartbeat : (beating []).dieUp 3 = true ∧
    after (.heartbeat 0xFF) (beating [(3, 3)]) (fun t => t.err.missed = [] ∧ t.rd R.DIE_HEARTBEAT.SENT 3 = 1) = true ∧
    after (.heartbeat 0xFF) { beating [] with err := { (beating []).err with heartAt := 1 } } (fun t => t.rd R.DIE_HEARTBEAT.SENT 3 = 0) = true ∧
    after (.heartbeat 0xF7) (beating [(3, 2)]) (fun t => t.err.missed = [(3, 3)] ∧ t.err.out = []) = true ∧
    (beating [(3, 3)]).isOut (.die 3) = false ∧ (beating [(3, 3)]).chainAt (.die 3) = none ∧ (3 : Nat) ≠ (beating [(3, 3)]).rd R.GLB_DIE_STATE.CHIEF := by
  decide +kernel
def recovering (u : RecUnit) (site : Option Nat) (run : Bool) : State :=
  let c : Chain := ⟨9, u.level, u, site⟩
  { barring with err := if run then { running := some c } else { queue := [c] } }
theorem wit_ErrorsAndRecoveries_recovery : (recovering (.cluster 0) none false).holdsImage 5 = true ∧ (recovering (.cluster 0) none false).unitHit (.cluster 0) ctx0 = true ∧
    after .recoveryStart (recovering (.cluster 0) none false) (fun t => t.err.queue = [] ∧ t.holdsImage 5 = false ∧ t.err.orphans.find 5 = some 9) = true ∧
    after .recoveryStart (recovering (.stack 3) none true) (fun t => t = recovering (.stack 3) none true) = true ∧
    after .recoveryEnd (recovering (.stack 3) none true) (fun t => t.err.running = none) = true ∧
    (recovering (.row 0) (some 0) true).movingOf 0 = [] ∧ (recovering (.row 0) (some 0) true).rowMask 0 = 0xFF ∧
    (recovering (.row 0) (some 0) true).maskAfter 0 0 = 0x1FE ∧ (recovering (.row 0) (some 0) true).spareOf 0 = some 8 ∧
    after .recoveryEnd { recovering (.row 0) (some 0) true with coreStore := [⟨coreAddr 8 5, 1⟩, ⟨coreAddr 9 0, 2⟩] }
      (fun t => t.err.running = none ∧ t.rowMask 0 = 0x1FE ∧ t.coreStore = [⟨coreAddr 9 0, 2⟩]) = true := by decide +kernel
def standing : State :=
  { barring with err := { standby := [(5, 0, 9)] }, ten := { images := [(5, { loaded0 with img := { img0 with glade := true, groups := [{ shapes := [{ loose := true, cores := [0] }], prot := true }] } })] } }
theorem wit_ErrorsAndRecoveries_standby :
    after (.standbyRelease 5 0) standing (fun t => t.err.standby = [] ∧ (t.loaded 5).map (fun l => l.gone) = some [0]) = true := by decide +kernel
def ageing (st : SiteState) (ce samples start : Nat) : State :=
  { (ready.wr R.ERR_CTRL.CE_LIMIT 4).wr R.ERR_CTRL.PROBATION_H 1 with
    elapsed := 2 * 5 * 3600 * 10 ^ 9, err := { sites := [(7, { state := st, ceHour := ce, ceStart := 2, samples := samples, probStart := start })] } }
theorem wit_ErrorsAndRecoveries_ce : (ageing .good 4 0 0).ceHour 7 = 4 ∧ (ageing .good 4 0 0).siteServes 7 = true ∧
    after (.ceLimitReached 7) (ageing .good 4 0 0) (fun t => (t.siteRec 7).state = .probation) = true ∧
    after (.ceLimitReached 7) (ageing .good 3 0 0) (fun t => (t.siteRec 7).state = .good) = true ∧
    after (.ceLimitReached 7) (ageing .probation 4 0 0) (fun t => (t.siteRec 7).state = .retired) = true ∧
    after (.probationEnd 7) (ageing .probation 0 1024 (5 * 3600 * 10 ^ 9)) (fun t => (t.siteRec 7).state = .good) = true ∧
    after (.probationEnd 7) (ageing .probation 0 1023 0) (fun t => (t.siteRec 7).state = .probation) = true := by decide +kernel
theorem wit_ErrorsAndRecoveries_restoring :
    after (.coreHang 0 true) { ready with sched := { ctxs := [((5, 0), { ctx0 with res := .restoring })] } }
      (fun t => (t.siteRec 0).state = .failed ∧ !t.siteServes 0) = true ∧
    after (.errorDetect (.cell .program 10 1151 7 none 9)) ready (fun t => t.failed = [] ∧ t.rd R.ERR_STATUS.NEXT_SEQ = 2) = true := by decide +kernel
theorem wit_ErrorsAndRecoveries_fec :
    after .recoveryEnd (recovering (.fec 3) none true) (fun t => t.err.running = none) = true ∧
    after .recoveryEnd (recovering .package none true) (fun t => t = recovering .package none true) = true := by decide +kernel
/-- The standby's shape is lent: the release recalls it and waits. -/
def lentStandby : State :=
  let l : Loaded := { loaded0 with placed := loaded0.placed.map fun p => { p with group := 0, standby := true } }
  { standing with ten := { images := [(5, l)] }, sched := { lent := [((5, 0), { borrower := (6, 0), phase := .lent, use := none })] } }
theorem wit_ErrorsAndRecoveries_lent : (lentStandby.loaded 5).bind (fun l => l.placed[0]?.map fun p => (p.group, p.standby)) = some (0, true) ∧
    after (.standbyRelease 5 0) lentStandby (fun t => t.err.standby = [(5, 0, 9)] ∧ (t.sched.lent.find (5, 0)).map (fun y => y.phase) = some .returning) = true := by
  decide +kernel
/-! ### The host interface -/

def paired : State := ((ready.wr R.HST_PORT.STATE_B 1).wr R.HST_PORT.WIDTH 16).wr R.HST_CTRL.LINK_TMO_MS 10
def downSince (n : Nat) : State := { (paired.wr R.HST_PORT.STATE_A 4).wr R.HST_CTRL.AUTO_SWITCH 1 with elapsed := 50000000, host := { down := some n } }
def switchedOver (t : State) : Bool := t.rd R.HST_PORT.ACTIVE = 1 && t.rd R.HST_PORT.STATE_B = 2 && t.rd R.HST_PORT.STATE_A = 4 && t.rd R.HST_PORT.SWITCHES = 1 &&
  t.host.switching && (t.err.last.find 7).map (fun r => (r.cls, r.sub)) = some (0x10, 3)
theorem wit_HostPortPair_switch : after .switch paired switchedOver = true ∧ after .switch ready (fun t => t = ready) = true ∧
    after .linkTimeout (downSince 0) switchedOver = true ∧ after .linkTimeout (downSince 1) (fun t => t = downSince 1) = true ∧
    after .linkTimeout ((downSince 0).wr R.HST_CTRL.AUTO_SWITCH 0) (fun t => t.rd R.HST_PORT.ACTIVE = 0) = true := by decide +kernel
theorem wit_HostPortPair_up :
    after (.portSwitch true true) { (queues [(2, queue2)]).wr R.HST_PORT.STATE_A 2 with host := { switching := true } }
      (fun t => t.rd R.HST_PORT.STATE_A = 3 ∧ t.rd R.HST_PORT.WIDTH = 16 ∧ t.rd R.HST_PORT.SPEED = 6 ∧ t.rd R.HST_EVENTS.PORT_SWITCH = 1 ∧ t.que.sweep = [2]) = true ∧
    after (.portSwitch true true) ready (fun t => t = ready) = true ∧
    after (.cxlLinkL0 false false) (ready.wr R.HST_PORT.STATE_A 4) (fun t => t.rd R.HST_PORT.STATE_A = 3 ∧ t.rd R.HST_PORT.WIDTH = 8 ∧ t.rd R.HST_PORT.SPEED = 5) = true ∧
    after .linkReset vfBound (fun t => t.rd R.HST_PORT.STATE_A = 4 ∧ t.host.cfg = {} ∧ t.host.down = some 0) = true := by decide +kernel
theorem wit_HostPortPair_flr : ready.configOpen = true ∧ vfBound.configOpen = true ∧ vfBound.tenState 5 = 1 ∧ vfBound.vfOwner 3 = some 5 ∧
    after .pfFlr (vfBound.wr R.HST_CTRL.LINK_TMO_MS 77) (fun t => t.tenState 5 ≠ 1 ∧ t.rd R.HST_CTRL.LINK_TMO_MS = 10 ∧ t.host.cfg = {}) = true := by decide +kernel
theorem wit_HostPortPair_ide :
    after (.ideFail true) ((ready.wr R.HST_IDE.IO_STATE 1).wr R.HST_IDE.CACHE_STATE 1) (fun t => t.rd R.HST_IDE.CACHE_STATE = 2 ∧ t.rd R.HST_IDE.FAILS = 1 ∧
      t.rd R.HST_EVENTS.IDE_FAIL = 1 ∧ !t.hostOpen ∧ (t.err.last.find 0).map (fun r => r.cls) = some 0x10) = true ∧
    after (.ideFail false) ready (fun t => t = ready) = true := by decide +kernel

def hreq (w : Option LineBytes) : MovReq := { id := 3, desc := 0, space := .host, line := 17, key := .hbm 0, write := w, tag := { owner := 5 } }
/-- A mover of site 0 has a request to page 1 of owner 5's virtual function 3; the page's translation is frame 9. -/
def hosting (w : Option LineBytes) (x : List Xlat) : State :=
  { vfBound with host := { vfBound.host with xlat := x }, mem := { movers := [(0, { slots := [hreq w], host := [hreq w] })] } }
def tr9 : Xlat := ⟨3, 1, true, true, 9⟩
theorem wit_HostMemoryAndMailboxes_reads : (hosting none [tr9]).hostOpen = true ∧ (hosting none [tr9]).hostReq 0 3 = some (hreq none) ∧
    (hosting none [tr9]).inFlight 0 (hreq none) = true ∧ ((hosting none [tr9]).mover 0).expects (hreq none) = true ∧ (hosting none [tr9]).hostFn 5 = some 3 ∧ (hreq none).squashed = false ∧
    after (.hostReadData 0 3 (Vector.replicate 256 7) false) (hosting none [tr9]) (fun t => (t.mover 0).resp = [⟨hreq none, List.replicate 256 7, false, true⟩]) = true ∧
    after (.hostReadData 0 3 (Vector.replicate 256 7) true) (hosting none [tr9]) (fun t => t.rd R.HST_POISON.COUNT = 1 ∧
      (t.err.last.find 0).map (fun r => (r.cls, r.sub)) = some (0x13, 2)) = true ∧
    after (.globalObservation 0 3) (hosting (some [(2, 8)]) [tr9]) (fun t => t.host.writes = [(9 * 4096 + 256 + 2, [8])] ∧ (t.mover 0).resp.length = 1) = true := by
  decide +kernel
def pendingW : State := { vfBound with host := { vfBound.host with waiting := [⟨3, 5, 4096 + 7, [1, 2], none⟩] } }
theorem wit_HostMemoryAndMailboxes_translations :
    after (.atsTranslation tr9 0) ready (fun t => t = ready) = true ∧
    after (.atsTranslation tr9 0) pendingW (fun t => t.host.waiting = [] ∧ t.host.xlat = [tr9] ∧ t.host.writes = [(9 * 4096 + 7, [1, 2])]) = true ∧
    after (.atsTranslation tr9 0) { pendingW with host := { pendingW.host with waiting := [⟨3, 5, 4096 + 7, [1, 2], some 2⟩] } }
      (fun t => t.host.waiting = [] ∧ t.rd R.TIM_Q_RXIDX.PROD 0 2 = 1) = true ∧
    (hosting none []).hostReqs = [(0, hreq none)] ∧
    after (.atsTranslation { tr9 with read := false, write := false } 0) (hosting none []) (fun t => (t.mover 0).resp = [⟨hreq none, zeroLine, false, true⟩] ∧
      t.rd R.HST_XLAT_FAULT.COUNT = 1 ∧ t.host.xlat = []) = true ∧
    after (.atsInvalidate 3 1 1) (hosting none [tr9]) (fun t => t.host.xlat = [] ∧ t.host.answers = [] ∧ t.host.inval = [⟨3, 1, 1, [(0, 3)]⟩]) = true ∧
    after (.atsInvalidate 3 1 1) ready (fun t => t.host.answers = [.invalidated 3 1 1]) = true := by decide +kernel
def holding (n : Nat) : State :=
  { (ready.wr R.HST_VF_IRQ_CTRL.HOLDOFF_US 10 0 3).wr R.HST_VF_IRQ_PEND.PEND 2 0 3 with elapsed := n, host := { lastMsg := [((3, 1), 0)], holdoff := [(3, 1)] } }
theorem wit_HostMemoryAndMailboxes_holdoff :
    after (.irqHoldoffEnd 3 1) (holding 50000) (fun t => t.host.holdoff = [] ∧ t.host.sent = [(3, 1)]) = true ∧
    after (.irqHoldoffEnd 3 1) (holding 49999) (fun t => t = holding 49999) = true := by decide +kernel
def known : State := ready.wr R.SEC_STATE.IDENTITY_READY 1
def id0 : Identity := ⟨[1], [2], [3], [4]⟩
def signing : State := { known with mgt := { known.mgt with identity := some id0 } }
theorem wit_HostMemoryAndMailboxes_doe : ready.configOpen = true ∧ known.chiefRuns = true ∧ known.flag R.SEC_STATE.DEBUG = false ∧
    after (.doeObject ⟨65536, .discovery 2⟩) ready (fun t => t.host.answers = [.doe (.discovery 2 0)]) = true ∧
    after (.doeObject ⟨8, .spdm .version⟩) ready (fun t => t.host.answers = [.doe (.spdm .error)]) = true ∧
    after (.doeObject ⟨8, .spdm .version⟩) known (fun t => t.host.answers = [.doe (.spdm (.version 1 3))]) = true ∧
    after (.doeObject ⟨8, .spdm (.challenge 0)⟩) known (fun t => t.host.answers = [.doe (.spdm (.notReady 2))] ∧
      after (.doeObject ⟨8, .spdm .respondIfReady⟩) t (fun u => u.host.answers.length = 2)) = true := by decide +kernel
theorem wit_HostMemoryAndMailboxes_signed : signing.mgt.identity = some id0 ∧ signing.chiefRuns = true ∧
    after (.doeObject ⟨8, .spdm (.challenge 0)⟩) signing (fun t => t.host.answers = [.doe (.spdm (.notReady 2))] ∧
      after (.doeObject ⟨8, .spdm .respondIfReady⟩) t (fun u => match u.host.answers with
        | [_, .doe (.spdm (.challengeAuth n g))] => n = 0 ∧ (g.elem.registry, g.elem.vendor) = folnexVendor
        | _ => false)) = true := by decide +kernel

/-! ### Boot, the mailbox, and the management ports -/

/-- The first bytes of a container: a header that names no section, SIG_OFF 0x80. -/
def contBytes (magic cls version secVer : Nat) : List Byte :=
  hdrBytes { hdr0 with magic := magic, cls := cls, minFw := version, secVer := secVer, sigOff := 0x80, totalLen := 0x80 + 8240, sects := [] }
def flashM : Manifest := { bytes := contBytes 0x53464E4D 0xF1 0 0, signed := true, badDies := [3], helper := [0], wrapped := [0], i3cStatic := 0x20 }
def flashI : FwImage := { bytes := contBytes 0x5457454D 0xF0 2 5, signed := true }
theorem test_containers : flashI.genuine = true ∧ flashI.version = 2 ∧ flashI.secVer = 5 ∧ flashM.genuine = true ∧
    ({ flashI with bytes := contBytes 0x5457454D 0xF1 2 5 } : FwImage).genuine = false := by decide +kernel
/-- Power-on boot with the flash reader's die in a stage. -/
def booting (stage : Nat) (b : BootSt) (m : MgtSt) : State :=
  { (((State.reset.wr R.HST_PORT.STATE_A 3).wr R.MGT_STATUS.STAGE stage).wr R.DIE_STATE.STAGE stage 0).wr R.DIE_STATE.STAGE stage 1 with
    elapsed := 5 * 20000000, boot := { b with phase := .stages }, mgt := m }
theorem wit_BootStagesAndRecovery_early : (booting 0 {} {}).held = false ∧ (booting 0 {} {}).stage = 0 ∧
    after (.selfTestEnd 0 true 7) (booting 0 {} {}) (fun t => t.dieStage 0 = 1 ∧ t.stage = 1) = true ∧
    after (.selfTestEnd 0 true 7) { booting 0 {} {} with tim := { gapAt := 5 * 19000001 } } (fun t => t.dieStage 0 = 0) = true ∧
    after (.selfTestEnd 0 false 7) (booting 0 {} {}) (fun t => t.boot.failed = [0] ∧ t.dieStage 0 = 0) = true ∧
    after (.pufEnd 0 true) (booting 1 {} {}) (fun t => t.dieStage 0 = 2 ∧ t.stage = 2 ∧ t.rd R.HST_PORT.STATE_A = 2 ∧ t.boot.puf = [0]) = true ∧
    after (.pufEnd 1 true) (booting 1 {} {}) (fun t => t.dieStage 1 = 2 ∧ t.stage = 1) = true ∧
    after (.pufEnd 1 true) (booting 1 {} { manifest := some flashM }) (fun t => t.dieStage 1 = 3) = true ∧
    after (.pufEnd 1 false) (booting 1 {} {}) (fun t => t.boot.failed = [1]) = true ∧
    after .flashReaderTakeover (booting 2 {} {}) (fun t => t.boot.reader = 7 ∧ t.stage = t.dieStage 7) = true ∧
    after .flashReaderTakeover (booting 2 { start := 1 } {}) (fun t => t.boot.reader = 0) = true := by decide +kernel
theorem wit_BootStagesAndRecovery_manifest :
    after .manifestEnd (booting 2 {} { flash := { readable := false } }) (fun t => t.stage = 8 ∧ t.rd R.MGT_STATUS.RCV_CAUSE = 3) = true ∧
    after .manifestEnd (booting 2 {} {}) (fun t => t.stage = 8 ∧ t.rd R.MGT_STATUS.RCV_CAUSE = 1) = true ∧
    after .manifestEnd (booting 2 {} { flash := { manifest := some flashM } }) (fun t => t.stage = 3 ∧ t.boot.off = [3] ∧ t.dieStage 1 = 3) = true ∧
    (booting 3 {} { flash := { image := some flashI } }).flashFloor ≤ flashI.secVer ∧
    after (.firmwareEnd 0 true) (booting 3 { failed := [2, 3, 4, 5, 6, 7, 1] } { flash := { image := some flashI } })
      (fun t => t.dieStage 0 = 4 ∧ t.rd R.DIE_STATE.CANDIDATE 0 = 1 ∧ t.stage = 4 ∧ t.boot.electStart = 100000000) = true ∧
    after (.firmwareEnd 1 false) (booting 3 {} { flash := { image := some flashI } }) (fun t => t.boot.failed = [1] ∧ t.dieStage 1 = 3) = true := by decide +kernel
def electingS (b : BootSt) : State := (((booting 4 b {}).wr R.DIE_STATE.CANDIDATE 1 0).wr R.DIE_STATE.CANDIDATE 1 1)
theorem wit_BootStagesAndRecovery_election : (electingS {}).electing = true ∧ (electingS {}).candidateSet = [0, 1] ∧
    after (.electionRound 0xFF) (electingS {}) (fun t => t.boot.heard = 3 ∧ t.boot.rounds = 1) = true ∧
    after (.electionRound 0xFF) (electingS { roundDue := 100000001 }) (fun t => t.boot.rounds = 0) = true ∧
    after (.electionRound 0x02) (electingS { heard := 2, rounds := 2 }) (fun t => t.rd R.GLB_DIE_STATE.CHIEF = 1 ∧ t.stage = 5 ∧ t.rd R.MGT_ELECT.ROUND = 1) = true ∧
    after .electionTimeout (electingS { electStart := 95000000 }) (fun t => t = electingS { electStart := 95000000 }) = true ∧
    after .electionTimeout (electingS { electStart := 94999999 }) (fun t => t.err.packageStop ∧ t.boot.electFails = 1) = true ∧
    after .electionTimeout (electingS { electFails := 2 }) (fun t => t.stage = 8 ∧ t.rd R.MGT_STATUS.RCV_CAUSE = 4) = true := by decide +kernel
theorem wit_BootStagesAndRecovery_identity :
    after .identityEnd (booting 5 { puf := [0] } { manifest := some flashM, flash := { a := some { epoch := 8, fwFloor := 4 } } })
      (fun t => t.stage = 6 ∧ t.rd R.QUE_EPOCH.EPOCH = 9 ∧ t.rd R.SEC_STATE.FW_FLOOR = 4 ∧ t.flag R.SEC_STATE.IDENTITY_READY) = true ∧
    after .identityEnd { booting 5 { warm := true } {} with que := { epochRead := true } } (fun t => t.stage = 6 ∧ t.rd R.QUE_EPOCH.EPOCH = 0 ∧ t.flag R.SEC_STATE.STATE_FRESH) = true ∧
    after .identityEnd ((booting 5 { puf := [0] } { manifest := some flashM }).wr R.SEC_STATE.DEBUG 1)
      (fun t => t.stage = 6 ∧ !t.flag R.SEC_STATE.IDENTITY_READY ∧ t.mgt.identity.isNone) = true ∧
    (booting 5 { puf := [0] } { manifest := some flashM }).secretDies ≠ [] ∧
    after .identityEnd (booting 5 { puf := [0] } { manifest := some flashM }) (fun t => t.mgt.identity.isSome) = true ∧
    (booting 6 {} { manifest := some flashM }).copiesLost = false := by decide +kernel
theorem wit_BootStagesAndRecovery_bringUp :
    after (.bringUpEnd {}) (booting 6 {} { manifest := some flashM }) (fun t => t.stage = 7 ∧ t.dieStage 0 = 7) = true := by decide +kernel
def pushing (p : PushSt) : State := booting 8 {} { push := some p }
theorem wit_BootStagesAndRecovery_push : (booting 8 {} {}).inRecovery = true ∧
    after (.begin true) (booting 8 {} {}) (fun t => t.mgt.push = some { manifest := true }) = true ∧
    after (.append 32768) (pushing { done := 33550336 - 32768 }) (fun t => t.rd R.MGT_RCV_STATUS.BUSY = 1 ∧
      after (.flashWriteEnd true) t (fun u => u.rd R.MGT_RCV_STATUS.BUSY = 0 ∧ u.rd R.MGT_RCV_STATUS.OFFSET = 32768)) = true ∧
    after (.end_ { image := some flashI }) (pushing { done := 128, bytes := flashI.bytes }) (fun t => t.stage = 2 ∧ t.mgt.flash.image = some flashI) = true ∧
    after (.end_ { image := some flashI }) (pushing { done := 128, bytes := flashI.bytes.set 64 1 }) (fun t => t.stage = 8 ∧ t.rd R.MGT_RCV_STATUS.RESULT = 3) = true ∧
    after (.end_ {}) (pushing {}) (fun t => t.stage = 8 ∧ t.rd R.MGT_RCV_STATUS.RESULT = 3) = true := by decide +kernel

def mailbox (a0 a1 a2 : Nat) (m : MgtSt) : State :=
  { (((ready.wr R.MGT_MBX_ARG.ARG a0 0 0).wr R.MGT_MBX_ARG.ARG a1 0 1).wr R.MGT_MBX_ARG.ARG a2 0 2).wr R.SEC_STATE.FW_FLOOR 5 with mgt := m }
def refusedBy (t : State) (c : Nat) : Bool := t.rd R.MGT_MBX_STATUS.STATUS = 5 && t.rd R.MGT_MBX_STATUS.CAUSE = c
theorem wit_MailboxCommands_firmware : ready.chiefRuns = true ∧ ready.answers = true ∧
    after (.fwStage flashI) (mailbox 0x1000 8496 0 {}) (fun t => t.mgt.staged = some flashI ∧ t.rd R.MGT_MBX_STATUS.STATUS = 0) = true ∧
    after (.fwStage { flashI with signed := false }) (mailbox 0x1000 33550336 0 {}) (fun t => refusedBy t 0x0E) = true ∧
    after (.fwStage { flashI with bytes := contBytes 0x5457454D 0xF0 2 4 }) (mailbox 0x1000 8496 0 {}) (fun t => refusedBy t 0x0F) = true ∧
    after .fwCommit (mailbox 0 0 0 {}) (fun t => refusedBy t 0x0D) = true ∧
    after .fwCommit (mailbox 0 0 0 { staged := some flashI }) (fun t => t.rd R.MGT_MBX_STATUS.BUSY = 1 ∧
      after (.flashWriteEnd true) t (fun u => u.mgt.flash.image = some flashI ∧ u.rd R.MGT_MBX_STATUS.BUSY = 0)) = true ∧
    after .fwFloor (mailbox 5 0 0 { flash := { image := some flashI } }) (fun t => t.rd R.MGT_MBX_STATUS.BUSY = 1 ∧
      after (.flashWriteEnd true) t (fun u => u.rd R.SEC_STATE.FW_FLOOR = 5 ∧ u.mgt.flash.newest.isSome) ∧
      after (.flashWriteEnd false) t (fun u => u.rd R.MGT_MBX_STATUS.STATUS = 3 ∧ u.mgt.flash = t.mgt.flash)) = true ∧
    after .fwFloor (mailbox 4 0 0 {}) (fun t => refusedBy t 0x0F) = true := by decide +kernel
def slots7 : MgtSt := { slots := [(7, { key := 1, floor := 3 })] }
theorem wit_MailboxCommands_keys :
    after .keyClear (mailbox 7 0 0 slots7) (fun t => t.rd R.MGT_MBX_STATUS.BUSY = 1 ∧ after (.flashWriteEnd true) t (fun u => u.mgt.slots.find 7 = none)) = true ∧
    after .keyFloor (mailbox 7 0 3 slots7) (fun t => after (.flashWriteEnd true) t (fun u => u.mgt.slots.find 7 = some { key := 1, floor := 3 })) = true ∧
    after .keyClear (mailbox 1 0 0 slots7) (fun t => refusedBy t 0x10) = true ∧
    after .keyFloor ((mailbox 7 0 3 slots7).wr R.SEC_CTRL.LOCK 1) (fun t => refusedBy t 0x0B) = true ∧
    after (.anchorSet [1, 2, 3]) (mailbox 3 0 2 {}) (fun t => after (.flashWriteEnd true) t (fun u => u.mgt.anchors = [(3, [1, 2])])) = true ∧
    after (.anchorSet []) ((mailbox 3 0 2048 {}).wr R.SEC_CTRL.LOCK 1) (fun t => refusedBy t 0x0B) = true := by decide +kernel
def unlocking : State := (mailbox 0 0 0 { identity := some id0 }).wr R.SEC_NONCE.VALUE 7
theorem wit_MailboxCommands_unlock : (∀ o : Fin 1024, unlocking.tenState o = 0) ∧
    after (.debugUnlock ⟨true, BitVec.ofNat 64 (unlocking.rd R.SEC_DSN.VALUE), 7⟩) unlocking (fun t => t.rd R.SEC_STATE.DEBUG = 1 ∧ t.freeCtr = 1 ∧ t.mgt.identity.isNone) = true ∧
    after (.debugUnlock ⟨false, 0, 7⟩) unlocking (fun t => refusedBy t 0x0E ∧ t.rd R.SEC_STATE.DEBUG = 0 ∧ t.freeCtr = 1) = true := by decide +kernel

def i3c (a : Nat) : State := { ready.wr R.MGT_I3C.DYN_ADDR a with mgt := { manifest := some flashM } }
theorem wit_ManagementPorts_i3c : (i3c 0).i3cRuns = true ∧ ready.i3cRuns = false ∧
    after (.entdaa 9) (i3c 0) (fun t => t.rd R.MGT_I3C.DYN_ADDR = 9) = true ∧
    after (.setdasa 0x20 9) (i3c 0) (fun t => t.rd R.MGT_I3C.DYN_ADDR = 9) = true ∧
    after (.setdasa 0x21 9) (i3c 0) (fun t => t = i3c 0) = true ∧
    after .rstdaa (i3c 9) (fun t => t.rd R.MGT_I3C.DYN_ADDR = 0) = true ∧
    after (.setEndpointId 4) (i3c 9) (fun t => t.rd R.MGT_I3C.EID = 4 ∧ t.mgt.answers = [.control 1]) = true ∧
    after (.mctpMessage (.pldm 2 (some 8))) ((i3c 9).wr R.DIE_THERM_DC.DIE_C 95 7) (fun t => t.mgt.answers = [.reading 8 95 3]) = true ∧
    after (.mctpMessage (.control 2)) ready (fun t => t = ready) = true := by decide +kernel
def heldS : State := { ready with boot := { phase := .warm }, jtag := { boundary := 6 } }
theorem wit_ManagementPorts_jtag : heldS.held = true ∧ ready.held = false ∧
    after .extest heldS (fun t => t.jtag.driven = some 6) = true ∧ after .highz heldS (fun t => t.jtag.floating) = true ∧
    after .clamp ready (fun t => t = ready) = true ∧ after (.samplePreload 5) ready (fun t => t.jtag.boundary = 5) = true := by decide +kernel

/-! ### Resets, rails and heat -/

def inReset (p : BootPhase) : State := { ready with elapsed := 9, boot := { phase := p, warm := true } }
theorem wit_ResetsRailsAndHeat_resets :
    after .porRelease (inReset .por) (fun t => !t.held ∧ t.boot.start = 9 ∧ !t.boot.warm) = true ∧
    after .porRelease (inReset .warm) (fun t => t = inReset .warm) = true ∧
    after .warmResetRelease (inReset .warm) (fun t => !t.held ∧ t.boot.warm) = true ∧
    after .warmResetRelease (inReset .por) (fun t => t = inReset .por) = true ∧
    after .powerOnReset (mailbox 0 0 0 { flash := { image := some flashI } }) (fun t => t.boot.phase = .por ∧ t.mgt.flash.image = some flashI ∧ t.stage = 0) = true ∧
    after (.thermtrip 3) ready (fun t => t.boot.phase = .tripped ∧ t.pow.trip) = true ∧
    after (.warmReset false 0) ready (fun t => t = ready) = true := by decide +kernel
theorem wit_ResetsRailsAndHeat_rails : hasRail 7 15 = true ∧ hasRail 6 15 = false ∧
    after (.railOutOfRange 7 15 1 2) ready (fun t => t.rd R.DIE_RAIL.STATE 7 15 = 2 ∧ t.rd R.DIE_RAIL.MV 7 15 = 1) = true ∧
    after (.railOutOfRange 0 3 1 2) (ready.wr R.MGT_STATUS.STAGE 6) (fun t => t.rd R.DIE_RAIL.STATE 0 3 = 2 ∧ t.err.out = []) = true ∧
    after (.railInRange 0 13 1 2) { ready with ziu := { railOut := [(0, 5), (1, 5)] } } (fun t => t.rd R.DIE_RAIL.DA 0 13 = 2 ∧ t.ziu.railOut = [(1, 5)]) = true := by decide +kernel
def refreshing : State := { ready.wr R.HBM_STATE.SELF_REFRESH 1 2 with mem := { hbm := [⟨2 * 2 ^ 36 - 1, 1⟩, ⟨2 * 2 ^ 36, 2⟩, ⟨3 * 2 ^ 36, 3⟩] } }
theorem wit_ResetsRailsAndHeat_lost : refreshing.flag R.HBM_STATE.SELF_REFRESH (2 * (1 : Die).val) = true ∧
    after (.hbmLost 1 0) refreshing (fun t => t.rd R.GLB_PWR_RESET.HBM_LOST = 1 ∧ t.mem.hbm = [⟨2 * 2 ^ 36 - 1, 1⟩, ⟨3 * 2 ^ 36, 3⟩]) = true := by decide +kernel
def warmth (c p : Nat) : ThermalSample := ⟨Vector.replicate 32 (BitVec.ofNat 8 c), Vector.replicate 8 0, Vector.replicate 16 0, BitVec.ofNat 11 p⟩
def tuned (k : Nat) : State := ((ready.wr R.DIE_THERM.K k 7 3).wr R.GLB_PWR_CTRL.PWR_LIMIT_W 900).wr R.GLB_PWR_CTRL.THROTTLE_C 85
def kOf (t : State) : Nat := t.rd R.DIE_THERM.K 7 3
theorem wit_ResetsRailsAndHeat_sample :
    after (.thermalSample (warmth 85 900)) (tuned 16) (fun t => kOf t = 15 ∧ t.rd R.GLB_PWR_STATUS.CAPPED = 0) = true ∧
    after (.thermalSample (warmth 85 900)) (tuned 16) (fun t => after (.thermalSample (warmth 85 900)) t (fun u => kOf u = 15) ∧
      after (.thermalSample (warmth 85 900)) { t with elapsed := t.elapsed + 500000 } (fun u => kOf u = 14)) = true ∧
    after (.thermalSample (warmth 82 900)) (tuned 12) (fun t => kOf t = 13) = true ∧
    after (.thermalSample (warmth 95 0)) (tuned 8) (fun t => t.pow.hot.find (.quadrant 31) = some 0) = true := by decide +kernel
def hot31 (n : Nat) : State := { ready with elapsed := n, pow := { hot := [(.quadrant 31, 0)] }, tim := { lostAt := some 0 } }
theorem wit_ResetsRailsAndHeat_late : (hot31 5000000).isOut (.quadrant 31) = false ∧ (hot31 5000000).chainAt (.quadrant 31) = none ∧ (hot31 5000000).stage ≠ 0 ∧
    after (.thermalContainment (.quadrant 31)) (hot31 4999999) (fun t => t = hot31 4999999) = true ∧
    after .pllLockLoss (hot31 4999999) (fun t => t = hot31 4999999) = true := by decide +kernel
theorem wit_HostMemoryAndMailboxes_denied :
    after (.atsTranslation { tr9 with write := false } 0) pendingW (fun t => t.host.waiting = [] ∧ t.host.xlat = [{ tr9 with write := false }]) = true := by decide +kernel
def lostS (start : Nat) : State :=
  ((electingS { heard := 2, rounds := 2, lostChief := some 3, electStart := start }).wr R.MGT_STATUS.STAGE 7).wr (R.GLB_DIE_STATE.DIE 1) 1
theorem wit_BootStagesAndRecovery_lost : (lostS 0).electing = true ∧ (lostS 0).candidateSet = [1] ∧ (1 : Nat) ≠ (lostS 0).rd R.GLB_DIE_STATE.CHIEF ∧
    after .electionTimeout (lostS 99899999) (fun t => t.err.packageStop ∧ t.boot.electFails = 1) = true ∧
    after .electionTimeout (lostS 99900000) (fun t => t.err.packageStop = false ∧ t.boot.electFails = 0) = true := by decide +kernel
theorem wit_ResetsRailsAndHeat_stacks : refreshing.flag R.HBM_STATE.SELF_REFRESH 2 = true ∧
    after (.hbmLost 1 3) refreshing (fun t => t.boot.lostStacks = [2] ∧ t.mem.hbm = [⟨2 * 2 ^ 36 - 1, 1⟩, ⟨3 * 2 ^ 36, 3⟩]) = true ∧
    after (.railOutOfRange 0 10 1 2) (ready.wr R.MGT_STATUS.STAGE 6) (fun t => t.rd R.DIE_RAIL.STATE 0 10 = 2 ∧ t.err.out = []) = true ∧
    ready.isOut (.die 3) = false ∧ ready.chainAt (.die 3) = none ∧ (3 : Nat) ≠ ready.rd R.GLB_DIE_STATE.CHIEF := by decide +kernel

end Sys2Proof.Tests
end

section
/-!
PROOFS of the statements of chapter 0, without O2: the accesses of BAR 0 that have no effect, the lock of SEC_CTRL, the values after
reset, and a write that changes more than its fields.
-/
namespace Sys2Proof
namespace Machine

/-! ### Registers: the fields of one register are told apart by their lowest bit -/

theorem fields_reg (r : RegName) (f : Fld) (hf : f ∈ r.fields) : f.reg = r := by
  have h : (r.fields.all fun f => decide (f.reg = r)) = true := by cases r <;> rfl
  exact of_decide_eq_true (List.all_eq_true.mp h f hf)

theorem fields_eq_of_lo {r : RegName} {f g : Fld} (hf : f ∈ r.fields) (hg : g ∈ r.fields) (hlo : f.lo = g.lo) : f = g := by
  have h : (r.fields.all fun f => r.fields.all fun g => decide (f.lo = g.lo → f = g)) = true := by cases r <;> rfl
  exact of_decide_eq_true (List.all_eq_true.mp (List.all_eq_true.mp h f hf) g hg) hlo

/-! ### A write to the fields of a register (R7) -/

theorem writeField_of_ro (s before : State) (u i data mask : Nat) {f : Fld} (h : f.acc = .ro ∨ f.acc = .wo) :
    s.writeField before u i data mask f = s := by
  unfold State.writeField
  rcases h with h | h <;> simp [h]

/-- A write to one field is either a hardware write of that field or nothing. -/
theorem writeField_cases (s before : State) (u i data mask : Nat) (f : Fld) :
    s.writeField before u i data mask f = s ∨ ∃ v, s.writeField before u i data mask f = s.wr f v u i := by
  unfold State.writeField
  simp only []
  split
  · exact .inl rfl
  split
  iterate 3
    split
    · exact .inl rfl
    · exact .inr ⟨_, rfl⟩
  · exact .inr ⟨_, rfl⟩
  iterate 2 exact .inl rfl

theorem rd_writeField_of_lo_ne (s before : State) (u i data mask : Nat) {f g : Fld} (h : f.lo ≠ g.lo) (u' i' : Nat) :
    (s.writeField before u i data mask f).rd g u' i' = s.rd g u' i' := by
  obtain e | ⟨v, e⟩ := writeField_cases s before u i data mask f
  · rw [e]
  · rw [e, rd_wr_ne]
    exact fun hk => h (congrArg FKey.lo hk)

/-- Writes to any fields of a register leave each of its ro and wo fields as it was. -/
theorem rd_foldl_writeField_of_ro (s before : State) (u i data mask : Nat) {r : RegName} {f : Fld} (hf : f ∈ r.fields)
    (hro : f.acc = .ro ∨ f.acc = .wo) (l : List Fld) (hl : ∀ g ∈ l, g ∈ r.fields) :
    (l.foldl (fun t g => t.writeField before u i data mask g) s).rd f u i = s.rd f u i := by
  refine List.foldlRecOn l _ (motive := fun t : State => t.rd f u i = s.rd f u i) rfl fun t ht g hg => ?_
  by_cases hlo : g.lo = f.lo
  · obtain rfl := fields_eq_of_lo (hl g hg) hf hlo
    rw [writeField_of_ro _ _ _ _ _ _ hro, ht]
  · rw [rd_writeField_of_lo_ne _ _ _ _ _ _ hlo, ht]

/-- Beyond its fields a write to a register changes at most a count of tenant changes and the hold of a recovered clock. -/
theorem rd_writeFields (s : State) {r : RegName} (u i data mask : Nat) {f : Fld} (hf : f ∈ r.fields) :
    (s.writeFields r u i data mask).rd f u i = (r.fields.foldl (fun t f => t.writeField s u i data mask f) s).rd f u i := by
  have hr := fields_reg r f hf
  have tick (t : State) (h : r ≠ .SCH_TEN_GEN) : (t.tick R.SCH_TEN_GEN.GEN).rd f u i = t.rd f u i :=
    rd_wr_ne _ _ _ _ _ _ _ _ fun hk => h (hr ▸ (congrArg FKey.reg hk).symm)
  unfold State.writeFields
  simp only []
  split
  · rfl
  split
  · exact tick _ (by decide)
  · exact tick _ (by decide)
  · split <;> rfl
  · rfl

/-! ### Accesses of BAR 0 that have no effect (R6, R9) -/

theorem writeMask_of_odd {addr size : Nat} (h8 : ¬ (size = 8 ∧ addr % 8 = 0)) (h4 : ¬ (size = 4 ∧ addr % 4 = 0)) :
    writeMask addr size = none := by
  unfold writeMask
  rw [if_neg h8, if_neg (by omega), if_neg (by omega)]

theorem readPart_of_odd {addr size : Nat} (word : Nat) (h8 : ¬ (size = 8 ∧ addr % 8 = 0)) (h4 : ¬ (size = 4 ∧ addr % 4 = 0)) :
    readPart addr size word = 0 := by
  unfold readPart
  rw [if_neg h8, if_neg (by omega), if_neg (by omega)]

/-- An MSI-X table takes the same sizes and alignments as a register. -/
theorem msix_refuses {addr size : Nat} (n : Nat) (h : 0x302000 ≤ addr) (h8 : ¬ (size = 8 ∧ addr % 8 = 0))
    (h4 : ¬ (size = 4 ∧ addr % 4 = 0)) :
    (size ≠ 4 ∧ size ≠ 8) ∨ (addr - 0x302000) % size ≠ 0 ∨ n * 16 ≤ addr - 0x302000 := by
  by_cases e8 : size = 8
  · subst e8; omega
  by_cases e4 : size = 4
  · subst e4; omega
  exact .inl ⟨e4, e8⟩

theorem writeBar0_of_odd {addr size : Nat} (data : Word) (s : State) (h8 : ¬ (size = 8 ∧ addr % 8 = 0))
    (h4 : ¬ (size = 4 ∧ addr % 4 = 0)) : s.writeBar0 addr size data = .next s := by
  unfold State.writeBar0 State.writeMsix
  split
  · rfl
  split
  next h => rw [if_pos (msix_refuses 8 h.1 h8 h4), ite_self]
  · rw [writeMask_of_odd h8 h4]

theorem readBar0_of_odd {addr size : Nat} (s : State) (h8 : ¬ (size = 8 ∧ addr % 8 = 0)) (h4 : ¬ (size = 4 ∧ addr % 4 = 0)) :
    s.readBar0 addr size = 0 := by
  unfold State.readBar0 State.readMsix
  split
  next h => rw [if_pos (msix_refuses 8 h.1 h8 h4), ite_self]
  split
  · rfl
  · rw [readPart_of_odd _ h8 h4, ite_self]

theorem writeBar0_unassigned {addr : Nat} (size : Nat) (data : Word) (s : State) (h : bar0Reg (addr / 8 * 8) = none)
    (hm : ¬ (0x302000 ≤ addr ∧ addr < 0x303000)) (hr : ¬ (0x8000 ≤ addr ∧ addr < 0x10000)) :
    s.writeBar0 addr size data = .next s := by
  unfold State.writeBar0
  simp only [hm, hr, h, if_false]
  split
  · rfl
  · split <;> rfl

theorem readBar0_unassigned {addr : Nat} (size : Nat) (s : State) (h : bar0Reg (addr / 8 * 8) = none)
    (hm : ¬ (0x302000 ≤ addr ∧ addr < 0x303000)) : s.readBar0 addr size = 0 := by
  unfold State.readBar0
  rw [if_neg hm, h]

/-- Settles O5: sizes and offsets are turned away before a register is reached, and a field that is ro or wo takes no write, its
neighbours being other fields. -/
theorem ignoredAccesses : Obligations.IgnoredAccesses := by
  unfold Obligations.IgnoredAccesses
  refine ⟨fun addr size data s h8 h4 => ⟨writeBar0_of_odd data s h8 h4, readBar0_of_odd s h8 h4⟩,
    fun addr size data s h hm hr => ⟨writeBar0_unassigned size data s h hm hr, readBar0_unassigned size s h hm⟩,
    fun r u i data mask s f hf hro => ?_⟩
  rw [rd_writeFields s u i data mask hf, rd_foldl_writeField_of_ro s s u i data mask hf hro r.fields fun _ => id]

/-! ### The lock of SEC_CTRL (R8) -/

theorem writeField_of_ignored {s before : State} {u i : Nat} {f : Fld} (data mask : Nat)
    (hacc : f.acc = .rw ∨ f.acc = .rws ∨ f.acc = .rwl) (h : ∀ v, before.ignores f u i v = true) :
    s.writeField before u i data mask f = s := by
  unfold State.writeField
  rcases hacc with hacc | hacc | hacc <;> simp [hacc, h]

theorem writeFields_secCtrl_of_lock {s : State} (u i data mask : Nat) (h : s.rd R.SEC_CTRL.LOCK = 1) :
    s.writeFields .SEC_CTRL u i data mask = s := by
  have hf : s.writeField s u i data mask R.SEC_CTRL.LOCK = s :=
    writeField_of_ignored data mask (.inr (.inr rfl)) fun _ => by
      change s.flag R.SEC_CTRL.LOCK = true
      rw [flag_eq, h]; rfl
  unfold State.writeFields
  simp only [RegName.fields, List.foldl_cons, List.foldl_nil, hf, if_true]

theorem writeReg_secCtrl_of_lock {s : State} (u i data mask : Nat) (h : s.rd R.SEC_CTRL.LOCK = 1) :
    s.writeReg .SEC_CTRL u i data mask = .next s := by
  unfold State.writeReg
  split
  · rfl
  · exact congrArg _ (writeFields_secCtrl_of_lock u _ data mask h)

theorem writeMsix_regs (s : State) (fn off n size : Nat) (data : Word) : (s.writeMsix fn off n size data).regs = s.regs := by
  unfold State.writeMsix; split <;> rfl

theorem writeRcv_regs (s : State) (off size : Nat) (data : Word) : (s.writeRcv off size data).regs = s.regs := by
  unfold State.writeRcv; split <;> rfl

theorem writeBar0_secCtrl_of_lock {s : State} {addr u i : Nat} (size : Nat) (data : Word) (h : s.rd R.SEC_CTRL.LOCK = 1)
    (hr : bar0Reg (addr / 8 * 8) = some (.SEC_CTRL, u, i)) :
    ∃ t, s.writeBar0 addr size data = .next t ∧ t.regs = s.regs := by
  unfold State.writeBar0
  rw [hr]
  split
  · exact ⟨s, rfl, rfl⟩
  split
  · refine ⟨_, rfl, ?_⟩
    split
    · exact writeMsix_regs ..
    · rfl
  split
  · exact ⟨s, rfl, rfl⟩
  split
  · exact ⟨_, rfl, writeRcv_regs ..⟩
  · simp only [writeReg_secCtrl_of_lock u i _ _ h, ite_self]
    exact ⟨s, rfl, rfl⟩

/-! ### What a warm reset leaves of a field it does not keep (R568) -/

theorem find_filter_of_dropped {ν : Type} (p : FKey → Bool) {k : FKey} (hk : p k = false) (t : Tab FKey ν) :
    Tab.find (t.filter fun e => p e.1) k = none := by
  induction t with
  | nil => rfl
  | cons e r ih =>
    obtain ⟨q, v⟩ := e
    by_cases hq : p q
    · have hne : q ≠ k := fun h => by simp [h, hk] at hq
      simp only [List.filter_cons, hq, if_true, Tab.find, hne, if_false, ih]
    · simpa [List.filter_cons, hq] using ih

theorem rd_wr_of_reg_ne (s : State) {f g : Fld} (v u i u' i' : Nat) (h : f.reg ≠ g.reg) : (s.wr f v u i).rd g u' i' = s.rd g u' i' :=
  rd_wr_ne s f g v u i u' i' fun hk => h (congrArg FKey.reg hk)

theorem rd_keepQueue (s : State) (q : Nat) (v : QueueSt) {f : Fld} (u i : Nat) (h : .SCH_POOL ≠ f.reg) :
    (s.keepQueue q v).rd f u i = s.rd f u i := by
  unfold State.keepQueue
  split
  · exact rd_wr_of_reg_ne _ _ _ _ _ _ h
  · rfl

theorem rd_resendEffects (s : State) (q : Nat) {f : Fld} (u i : Nat) (hp : .SCH_POOL ≠ f.reg) (hq : .QUE_FRAMES_LOST ≠ f.reg) :
    (s.resendEffects q).rd f u i = s.rd f u i := by
  unfold State.resendEffects
  split
  · rfl
  · rw [bump_eq, rd_wr_of_reg_ne _ _ _ _ _ _ hq, rd_keepQueue _ _ _ _ _ hp]
    rfl

theorem rd_of_not_stored {s : State} {f : Fld} {u i : Nat} (h : s.regs.find ⟨f.reg, f.lo, u, i⟩ = none) :
    s.rd f u i = f.resetAt u i := by
  simp only [State.rd, Tab.findD, h, Option.getD_none]

/-- A field of none of the registers that a warm reset itself writes reads, after it, as its table says, unless it is kept. -/
theorem rd_warmReset (s : State) (five : Bool) (lost : Nat) (ph : BootPhase) {f : Fld} {u i : Nat}
    (hk : keepsWarm ⟨f.reg, f.lo, u, i⟩ = false)
    (hw : f.reg ∉ [RegName.GLB_PWR_RESET, .SCH_POOL, .QUE_FRAMES_LOST, .HBM_STATE]) :
    (s.warmReset five lost ph).rd f u i = f.resetAt u i := by
  simp only [List.mem_cons, List.not_mem_nil, or_false, not_or] at hw
  obtain ⟨hpwr, hpool, hlost, hhbm⟩ := hw
  unfold State.warmReset
  extract_lets
  rw [tick_eq, rd_wr_of_reg_ne _ _ _ _ _ _ (Ne.symm hpwr), rd_wr_of_reg_ne _ _ _ _ _ _ (Ne.symm hpwr)]
  refine List.foldlRecOn (motive := fun t : State => t.rd f u i = _) _ _ ?_ fun t ht q _ => ?_
  · refine List.foldlRecOn (motive := fun t : State => t.rd f u i = _) _ _ ?_ fun t ht k _ => ?_
    · exact rd_of_not_stored (find_filter_of_dropped keepsWarm hk _)
    · rw [rd_wr_of_reg_ne _ _ _ _ _ _ (Ne.symm hhbm), ht]
  · rw [rd_resendEffects _ _ _ _ (Ne.symm hpool) (Ne.symm hlost), ht]

/-- Settles O7: a write that reaches the register meets the lock, and neither reset keeps the bit. -/
theorem lockBitHolds : Obligations.LockBitHolds := by
  unfold Obligations.LockBitHolds
  refine ⟨fun addr size data s u i h hr => ?_, fun s => ⟨_, rfl, rfl⟩, fun lost s hs => ?_⟩
  · obtain ⟨t, ht, hregs⟩ := writeBar0_secCtrl_of_lock size data h hr
    exact ⟨t, ht, (rd_congr hregs _ _ _).trans h⟩
  · refine ⟨s.warmReset false lost.toNat .warm, ?_, rd_warmReset s _ _ _ (by decide) (by decide)⟩
    change execWarmReset true lost s = _
    simp only [execWarmReset, hs, ne_eq, not_true_eq_false, if_false, if_true]

/-- Settles O8: each register is read out of the state after reset. -/
theorem resetRegisterValues : Obligations.ResetRegisterValues := by
  unfold Obligations.ResetRegisterValues
  decide +kernel

/-! ### A write that changes more than its fields -/

/-- A package that is ready: its link is up and its boot has ended. -/
def readyPackage : State :=
  ((State.reset).wr R.HST_PORT.STATE_A 3).wr R.MGT_STATUS.STAGE 7

/-- Refutes O6: a write of TIM_SYNCE that changes the source of a recovered clock also holds the clock low for a time (R418), which is
no register field: in a ready package, 1 written to QUAD of TIM_SYNCE_0 enters the time of the change in `tim.synceAt`. -/
theorem not_registerWriteSetsFields : ¬ Obligations.RegisterWriteSetsFields := by
  unfold Obligations.RegisterWriteSetsFields
  rintro ⟨h, -, -⟩
  have noCommand : ∀ w, readyPackage.command .TIM_SYNCE 0 (readyPackage.shownIx .TIM_SYNCE 0) w = none := fun _ => rfl
  obtain ⟨t, ht, -, hframe, -⟩ := h 0x200058 8 1 readyPackage .TIM_SYNCE 0 0 (2 ^ 64 - 1) (by decide +kernel) (by decide +kernel)
    (by decide +kernel) noCommand (by decide)
  have hrun : exec (.registerWrite .bar0 0x200058 8 1) readyPackage = .next (readyPackage.writeFields .TIM_SYNCE 0 0 1 (2 ^ 64 - 1)) := by
    rfl
  have htim : (readyPackage.writeFields .TIM_SYNCE 0 0 1 (2 ^ 64 - 1)).tim = readyPackage.tim := by
    rw [hrun] at ht
    injection ht with ht
    rw [ht, hframe]
  exact absurd (congrArg (fun x => x.synceAt.length) htim) (by decide +kernel)

end Machine
end Sys2Proof
end

section
/-!
PROOF that no command stops the block (O2).
-/
namespace Sys2Proof
namespace Machine

/-! ### Every command answers a next state

The meanings branch on checks of the state and on look-ups in its tables, and end in a next state on every branch. -/

/-- An outcome that is a next state. -/
def Answers (o : Out) : Prop := ∃ t, o = .next t

theorem answers_next (t : State) : Answers (.next t) := ⟨t, rfl⟩

theorem answers_ite {c : Prop} [Decidable c] {a b : Out} (ha : Answers a) (hb : Answers b) : Answers (if c then a else b) := by
  split
  · exact ha
  · exact hb

/-- A check that leaves a command without its effect. -/
theorem answers_guard {c : Prop} [Decidable c] {t : State} {b : Out} (hb : Answers b) : Answers (if c then .next t else b) :=
  answers_ite (answers_next t) hb

/-! #### The operations that several commands share -/

theorem answers_vecRun (c : VCtl) (src : List VOpnd) (s : State) (run : State → State) : Answers (vecRun c src s run) := by
  simp only [vecRun]
  split
  iterate 2
    · split <;> exact answers_next _
  · exact answers_next _

theorem answers_vecOp (c : VCtl) (src : List VOpnd) (s : State) (run : State → State) : Answers (vecOp c src s run) :=
  answers_guard (answers_vecRun c src s run)

theorem answers_sigOp (e : SigEngine) (ecc : Ecc) (item : Option ItemRef) (s : State) (run : State → State) :
    Answers (sigOp e ecc item s run) := by
  unfold sigOp
  refine answers_guard ?_
  split <;> exact answers_next _

theorem answers_mulOp (e : SigEngine) (a b : SigOpnd) (ecc : Ecc) (item : Option ItemRef) (f : Int → Int → Int) (s : State) :
    Answers (mulOp e a b ecc item f s) := answers_sigOp ..

theorem answers_regOp (e : SigEngine) (d : Fin 16) (ecc : Ecc) (item : Option ItemRef) (f : State → Nat) (s : State) :
    Answers (regOp e d ecc item f s) := answers_sigOp ..

theorem answers_movement (op site : Nat) (ecc : Ecc) (s : State) (f : State → MovDesc → Desc → List Nat → State × MovDesc) :
    Answers (movement op site ecc s f) := by
  unfold movement
  split
  · exact answers_next _
  refine answers_guard ?_
  split <;> exact answers_next _

theorem answers_loadEvent {s : State} {f : LoadSt → Out} (hf : ∀ l, Answers (f l)) : Answers (s.loadEvent f) := by
  unfold State.loadEvent
  split
  · exact answers_next _
  split
  · exact answers_next _
  · exact hf _

theorem answers_receiveResponse (t : PktType) (i : InPkt) (s : State) (act : State → OutReq → Packet → State) :
    Answers (receiveResponse t i s act) := by
  unfold receiveResponse
  refine answers_guard (answers_guard ?_)
  split <;> exact answers_next _

theorem answers_repeat (e : SigEngine) (n : Nat) (ecc : Ecc) (item : Option ItemRef) (s : State) :
    Answers (execRepeat e n ecc item s) := answers_sigOp ..

theorem answers_recall (glade : Fin 2048) (shape : Fin 1024) (s : State) : Answers (execRecall glade shape s) := by
  simp only [execRecall]
  split
  · exact answers_guard (answers_next _)
  · exact answers_next _

/-! #### Commands that look up one thing in another -/

theorem answers_flitArrive (a : Arrival) (ecc : EntryEcc) (s : State) : Answers (execFlitArrive a ecc s) := by
  unfold execFlitArrive
  cases a with
  | port p =>
    simp only []
    split
    · split
      · exact answers_next _
      · exact answers_guard (answers_next _)
    · exact answers_next _
  | coreStore k e b | mover k e b =>
    refine answers_guard ?_
    split
    · exact answers_next _
    · exact answers_guard (answers_next _)

theorem answers_hbmRequestIssue (site : Site) (ecc : EntryEcc) (s : State) : Answers (execHbmRequestIssue site ecc s) := by
  simp only [execHbmRequestIssue]
  refine answers_guard ?_
  split
  · exact answers_next _
  refine answers_guard ?_
  split
  · exact answers_next _
  split <;> simp only [apply_ite Answers, answers_next, ite_self]

theorem answers_itemRelease (q : Nat) (s : State) : Answers (execItemRelease q s) := by
  simp only [execItemRelease]
  split
  · exact answers_next _
  refine answers_guard ?_
  split
  · exact answers_next _
  split
  · split
    · exact answers_next _
    split
    · exact answers_next _
    · exact answers_guard (answers_next _)
  · exact answers_next _

theorem answers_pendingEntryEnd (owner : Fin 2048) (shape : Fin 1024) (j id : Nat) (data : List Byte) (failed : Bool) (s : State) :
    Answers (execPendingEntryEnd owner shape j id data failed s) := by
  simp only [execPendingEntryEnd]
  iterate 3
    split
    · exact answers_next _
  split <;> exact answers_next _

theorem answers_uplinkCutoff (cell : Fin 512) (s : State) : Answers (execUplinkCutoff cell s) := by
  simp only [execUplinkCutoff]
  iterate 3
    split
    · exact answers_next _
  exact answers_guard (answers_next _)

theorem answers_packetSend (q : Quad) (n : Fin 4096) (req rsp ctl : Fin 2049) (s : State) :
    Answers (execPacketSend q n req rsp ctl s) := by
  simp only [execPacketSend]
  split
  · exact answers_next _
  refine answers_guard ?_
  iterate 2
    split
    · exact answers_next _
  exact answers_guard (answers_next _)

theorem answers_frameReceive (q : Quad) (x : RxFrame) (s : State) : Answers (execFrameReceive q x s) := by
  simp only [execFrameReceive]
  refine answers_guard (answers_guard (answers_guard (answers_guard (answers_guard (answers_guard (answers_guard ?_))))))
  split
  · exact answers_next _
  refine answers_guard (answers_guard ?_)
  split
  · exact answers_guard (answers_guard (answers_guard (answers_guard (answers_next _))))
  · exact answers_next _

theorem answers_mctpMessage (m : MctpMsg) (s : State) : Answers (execMctpMessage m s) := by
  unfold execMctpMessage
  refine answers_guard ?_
  cases m with
  | pldm t sensor => simp only []; split <;> exact answers_next _
  | secured n r => exact answers_guard (answers_next _)
  | control op | spdm r | other n => exact answers_next _

/-- Every command but a host write, whose effect may be another command. -/
theorem answers_exec (c : Instr) (hc : ∀ sp addr size data, c ≠ .registerWrite sp addr size data) (s : State) :
    Answers (exec c s) := by
  cases c with
  | registerWrite sp addr size data => exact absurd rfl (hc sp addr size data)
  -- no branch
  | reservationWindow | creditReturn | create | mapExtent | unmapExtent | budget | reset | remove | effectEmit | gateInterval | holdover
    | ppsEdge | synceSquelch | probeInterval | mapImport | mapExport | unmap | snoop | doeAbort | fwStage | fwCommit | fwFloor | keySet
    | keyClear | keyFloor | anchorSet | debugUnlock | idcode | bypass | samplePreload | tapReset | powerOnReset | thermtrip =>
    exact answers_next _
  -- checks only
  | ziuraLinkRetry | ziuraPortDown | ziuraReroute | portEnWrite | descriptorComplete | abort | cancel | pendingClear | vfFlr |
    mirrorRebuildEnd | schedulerDecision | schCtrlWrite | schLendCtrlWrite | queueSample | fecUseWindow | quadDown | snap |
    refClkRestore | ppsLoss | tollHandover | portSecured | reroute | deadTarget | mergeApply | coreHang | heartbeat | ceLimitReached |
    probationEnd | switch | portSwitch | atsInvalidate | ideFail | linkReset | pfFlr | flashReaderTakeover | identityEnd | nonceRead |
    begin | entdaa | setdasa | rstdaa | getstatus | setEndpointId | extest | clamp | highz | porRelease | warmResetRelease |
    railOutOfRange | hbmLost | thermalSample | cxlLinkL0 =>
    exact answers_guard (answers_next _)
  | ziuraFlitArrive | ziuVc1ReserveWrite | hbmReserveWrite | hbmLcCtrlWrite | imgArgWrite | start | queueMap | radQModeWrite | set |
    step | txRingProdWrite | pop | tollDisarm | spdm | deadClear | send | atsTranslation | selfTestEnd | electionTimeout |
    railInRange =>
    exact answers_guard (answers_guard (answers_next _))
  | arm | worPortEnWrite | pufEnd | warmReset =>
    exact answers_guard (answers_guard (answers_guard (answers_next _)))
  | tollArm => exact answers_guard (answers_guard (answers_guard (answers_guard (answers_next _))))
  | ziuraTrainingEnd => exact answers_ite (answers_guard (answers_guard (answers_next _))) (answers_next _)
  | firmwareEnd => exact answers_guard (answers_guard (answers_ite (answers_guard (answers_next _)) (answers_next _)))
  | quadTrainingEnd =>
    exact answers_guard (answers_ite (answers_ite (answers_guard (answers_next _)) (answers_next _)) (answers_guard (answers_next _)))
  -- a shared operation
  | vecAdd | vecSub | vecMul | vecMin | vecMax | vecAbs | vecNeg | vecFormatConversion | vecFma | vecCompare | vecSelect | softmax |
    layerNormalisation | reduceMax | reduceMin | argmax | argmin | exp2 | log2 | reciprocal | reciprocalSquareRoot | intervalFunction =>
    simp only [exec]; exact answers_vecOp ..
  | reduceSum c a n piece =>
    cases piece <;> exact answers_vecOp ..
  | combiningNodeArrive =>
    simp only [exec, execCombiningNodeArrive]
    refine answers_guard ?_
    split
    · exact answers_next _
    · exact answers_vecRun ..
  | mac | msu | macz | msuz =>
    simp only [exec]; exact answers_mulOp ..
  | sigAdd | sigSub | sigArithmeticShift | sigLogicalShift | sigAnd | sigOr | sigXor =>
    simp only [exec]; exact answers_regOp ..
  | stacc | move | setag | in_ | out | br | brz | brnz | waitbeat =>
    simp only [exec]; exact answers_sigOp ..
  | copy | feed | load | gather | scatter | zero =>
    simp only [exec]; exact answers_movement ..
  | read | write | atomic | inv | nack | probe | probeAck =>
    exact answers_guard (answers_next _)
  | readRsp | writeAck | invAck | atomicRsp =>
    simp only [exec]; exact answers_receiveResponse ..
  | distributeEnd | drainEnd | drainLimitExpire =>
    exact answers_loadEvent fun _ => answers_guard (answers_next _)
  | fetchEnd | switchWindowEnd | gladeActivate =>
    simp only [exec, execFetchEnd, execSwitchWindowEnd, execGladeActivate]
    refine answers_loadEvent fun _ => ?_
    split <;> simp only [apply_ite Answers, answers_next, ite_self]
  | imageHeaderArrive | verifyEnd =>
    simp only [exec, execImageHeaderArrive, execVerifyEnd]
    refine answers_loadEvent fun _ => answers_guard ?_
    split <;> simp only [apply_ite Answers, answers_next, ite_self]
  | admitEnd =>
    simp only [exec, execAdmitEnd]
    refine answers_loadEvent fun _ => ?_
    split
    · split <;> exact answers_next _
    · exact answers_next _
  -- a look-up, and then checks only
  | tensorStep | passRelease | fieldStopped | decodeDone | encodeDone | flitSend | lineFill | barrierRelease | moversIdle | moversBusy |
    resetDrainEnd | squash | acceptAttempt | commit | effectAck | messageReceive | messageReoffer | sweep | quantumExpiry |
    contextBlocked | contextUrgent | saveDone | restoreDone | returnDone | radioItemOffer | radioItemDiscard | frameSent |
    txDrop | tollEdge | keyUpdate | replayEntryFree | errorDetect | recoveryStart | standbyRelease | linkTimeout | irqHoldoffEnd |
    bringUpEnd | append | end_ | pllLockLoss | flashWriteEnd =>
    simp only [exec, execTensorStep, execPassRelease, execFieldStopped, execDecodeDone, execEncodeDone, execFlitSend, execLineFill,
      execBarrierRelease, execMoversIdle, execMoversBusy, execResetDrainEnd, execSquash, execAcceptAttempt, execCommit, execEffectAck,
      execMessageReceive, execMessageReoffer, execSweep, execQuantumExpiry, execContextBlocked, execContextUrgent, execSaveDone,
      execRestoreDone, execReturnDone, execRadioItemOffer, execRadioItemDiscard, execFrameSent, execTxDrop, execTollEdge,
      execKeyUpdate, execReplayEntryFree, execErrorDetect, execRecoveryStart, execStandbyRelease, execLinkTimeout, execIrqHoldoffEnd,
      execBringUpEnd, execAppend, execEnd, execPllLockLoss, execFlashWriteEnd]
    split <;> simp only [apply_ite Answers, answers_next, ite_self]
  -- checks, then a look-up, and then checks only
  | decodeStart | encodeStart | descriptorPost | lineCacheRequest | scrubLine | vfDisable | vfUnboundAccess | queueUnmap | frameTransmit
    | hostReadData | doeObject | cellMove =>
    simp only [exec, execDecodeStart, execEncodeStart, execDescriptorPost, execLineCacheRequest, execScrubLine, execVfDisable,
      execVfUnboundAccess, execQueueUnmap, execFrameTransmit, execHostReadData, execDoeObject, execCellMove]
    refine answers_guard ?_
    split <;> simp only [apply_ite Answers, answers_next, ite_self]
  | manifestEnd =>
    simp only [exec, execManifestEnd]
    refine answers_guard (answers_guard ?_)
    split <;> simp only [apply_ite Answers, answers_next, ite_self]
  | electionRound =>
    simp only [exec, execElectionRound]
    refine answers_guard (answers_guard (answers_guard ?_))
    split <;> exact answers_next _
  -- a look-up of what another found
  | hbmResponse | sentinelSample | sentinelCheckStart | sentinelCheckDone | sentinelArbiterDone | extentZeroDone | submissionEntryRead |
    acceptanceRecordAck | itemFinish | effectLogWrite | drumbeat | tollPulseEnd =>
    simp only [exec, execHbmResponse, execSentinelSample, execSentinelCheckStart, execSentinelCheckDone, execSentinelArbiterDone,
      execExtentZeroDone, execSubmissionEntryRead, execAcceptanceRecordAck, execItemFinish, execEffectLogWrite, execDrumbeat,
      execTollPulseEnd]
    split
    · exact answers_next _
    · split <;> simp only [apply_ite Answers, answers_next, ite_self]
  | descriptorStart | sentinelTimeout | thermalContainment =>
    simp only [exec, execDescriptorStart, execSentinelTimeout, execThermalContainment]
    split
    · exact answers_next _
    refine answers_guard ?_
    split <;> simp only [apply_ite Answers, answers_next, ite_self]
  | hbmRead =>
    simp only [exec, execHbmRead]
    split
    · exact answers_next _
    refine answers_guard (answers_guard (answers_guard ?_))
    split <;> exact answers_next _
  | moveCancel | globalObservation =>
    simp only [exec, execMoveCancel, execGlobalObservation]
    refine answers_guard ?_
    split
    · exact answers_next _
    · split <;> simp only [apply_ite Answers, answers_next, ite_self]
  | fecDescriptor | fecResultEmit | hbmWrite =>
    simp only [exec, execFecDescriptor, execFecResultEmit, execHbmWrite]
    split
    · split <;> simp only [apply_ite Answers, answers_next, ite_self]
    · exact answers_next _
  | doorbell =>
    simp only [exec, execDoorbell]
    split
    · refine answers_guard ?_
      split <;> exact answers_next _
    · exact answers_guard (answers_next _)
  | lendStart =>
    simp only [exec, execLendStart]
    split
    · refine answers_ite ?_ (answers_next _)
      split <;> exact answers_next _
    · exact answers_next _
  | flitForward =>
    simp only [exec, execFlitForward]
    iterate 2
      split
      · exact answers_next _
    split <;> exact answers_next _
  | recoveryEnd =>
    simp only [exec, execRecoveryEnd]
    split
    · exact answers_next _
    split
    · exact answers_guard (answers_guard (answers_next _))
    · split <;> exact answers_next _
  | flitArrive => exact answers_flitArrive ..
  | hbmRequestIssue => exact answers_hbmRequestIssue ..
  | itemRelease => exact answers_itemRelease ..
  | pendingEntryEnd => exact answers_pendingEntryEnd ..
  | uplinkCutoff => exact answers_uplinkCutoff ..
  | packetSend => exact answers_packetSend ..
  | frameReceive => exact answers_frameReceive ..
  | mctpMessage => exact answers_mctpMessage ..
  -- REPEAT and RECALL, whose names a case cannot spell, being words of Lean
  | _ => simp only [exec, answers_repeat, answers_recall]

/-! #### Host writes -/

theorem answers_mailbox (s : State) (op : Nat) : Answers (s.mailbox op) := by
  unfold State.mailbox
  split <;> exact answers_next _

/-- The command that a write of a register is, if it has one, is a command of the table or does nothing but end. -/
theorem answers_of_command {s : State} {r : RegName} {u i : Nat} {w : Word} {o : Out} (h : s.command r u i w = some o) : Answers o := by
  have run (c : Instr) (hc : ∀ sp addr size data, c ≠ .registerWrite sp addr size data) : Answers (exec c s) := answers_exec c hc s
  simp only [State.command] at h
  split at h <;> cases h
  · exact run (.portEnWrite (Fin.ofNat 8 u) w) nofun
  · exact run (.ziuVc1ReserveWrite (Fin.ofNat 8 u) w) nofun
  · exact run (.hbmReserveWrite (Fin.ofNat 16 u) w) nofun
  · exact run (.hbmLcCtrlWrite (Fin.ofNat 8 u) w) nofun
  · exact run (.imgArgWrite .src w) nofun
  · exact run (.imgArgWrite .len w) nofun
  · exact run (.imgArgWrite .target w) nofun
  · exact run (.imgArgWrite .actTime w) nofun
  · exact run (.imgArgWrite .drain w) nofun
  · split
    · exact run .start nofun
    · exact run .abort nofun
    · exact answers_next _
  · split
    · exact run .arm nofun
    · exact run .cancel nofun
    · exact answers_next _
  · exact answers_ite (run .pendingClear nofun) (answers_next _)
  · split
    · exact run (.create _) nofun
    · exact run (.mapExtent _) nofun
    · exact run (.unmapExtent _) nofun
    · exact run (.budget _) nofun
    · exact run (.reset _) nofun
    · exact run (.remove _) nofun
    · exact answers_next _
  · split
    · exact run (.queueMap _ _) nofun
    · exact run (.queueUnmap _ _) nofun
    · exact answers_next _
  · exact run (.schCtrlWrite w) nofun
  · exact run (.schLendCtrlWrite w) nofun
  · split
    · exact run .cellMove nofun
    · exact run .moveCancel nofun
    · exact answers_next _
  · exact run (.radQModeWrite (Fin.ofNat 16 u) w) nofun
  · exact answers_ite (run .snap nofun) (answers_next _)
  · split
    · exact run .set nofun
    · exact run .step nofun
    · exact answers_next _
  · exact answers_ite (run (.tollArm (Fin.ofNat 8 i) w) nofun) (run (.tollDisarm (Fin.ofNat 8 i) w) nofun)
  · exact answers_ite (run (.pop (Fin.ofNat 16 i)) nofun) (answers_next _)
  · exact answers_next _
  · exact run (.worPortEnWrite (Fin.ofNat 16 u) w) nofun
  · exact answers_ite (run .deadClear nofun) (answers_next _)
  · split
    · exact run (.mapImport _ _) nofun
    · exact run (.mapExport _ _) nofun
    · exact run (.unmap _ _ _) nofun
    · exact answers_next _
  · exact answers_ite (run .send nofun) (answers_next _)
  · exact answers_ite (run .switch nofun) (answers_next _)
  · exact answers_mailbox ..
  · split
    · exact run (.begin _) nofun
    · exact run (.append _) nofun
    · exact answers_next _

theorem answers_writeReg (s : State) (r : RegName) (u i data mask : Nat) : Answers (s.writeReg r u i data mask) := by
  simp only [State.writeReg]
  refine answers_guard ?_
  split
  next h => exact answers_of_command h
  · exact answers_next _

theorem answers_writeBar0 (s : State) (addr size : Nat) (data : Word) : Answers (s.writeBar0 addr size data) := by
  unfold State.writeBar0
  refine answers_guard (answers_guard ?_)
  split
  · exact answers_next _
  refine answers_guard ?_
  split
  · exact answers_next _
  · exact answers_ite (answers_writeReg ..) (answers_next _)

theorem answers_writeBar2 (s : State) (vf : Fin 1024) (addr size : Nat) (data : Word) : Answers (s.writeBar2 vf addr size data) := by
  unfold State.writeBar2
  refine answers_guard ?_
  split
  · exact answers_next _
  refine answers_guard ?_
  split
  · exact answers_next _
  refine answers_ite (answers_exec (.doorbell (.vf vf) (BitVec.ofNat 64 _)) nofun s) (answers_guard ?_)
  split <;> exact answers_next _

theorem answers_writeConfigWord (s : State) (off v : Nat) : Answers (s.writeConfigWord off v) := by
  have pfFlr : Answers (execPfFlr s) := answers_exec .pfFlr nofun s
  have vfDisable (n : Option (Fin 1024)) (t : State) : Answers (execVfDisable n t) := answers_exec (.vfDisable n) nofun t
  simp only [State.writeConfigWord, apply_ite Answers, answers_next, pfFlr, vfDisable, ite_self]

theorem answers_writeConfig (s : State) (fn : Fin 1024) (addr size : Nat) (data : Word) :
    Answers (s.writeConfig fn addr size data) := by
  unfold State.writeConfig
  exact answers_guard (answers_ite (answers_writeConfigWord ..) (answers_ite (answers_exec (.vfFlr _) nofun s) (answers_next _)))

/-- Settles O2: each branch of each command ends in a next state; a host write ends at once, writes fields, or is another command. -/
theorem noCommandStops : Obligations.NoCommandStops := by
  unfold Obligations.NoCommandStops
  intro c s
  by_cases hc : ∃ sp addr size data, c = .registerWrite sp addr size data
  · obtain ⟨sp, addr, size, data, rfl⟩ := hc
    cases sp with
    | bar0 => exact answers_writeBar0 s addr size data
    | bar2 vf => exact answers_writeBar2 s vf addr size data
    | config fn => exact answers_writeConfig s fn addr size data
  · exact answers_exec c (fun sp addr size data h => hc ⟨sp, addr, size, data, h⟩) s

end Machine
end Sys2Proof
end

section
/-!
PROOF of the statement of chapter 2 about a field that steps, releases its passes and stops (O11).
-/
namespace Sys2Proof

/-- The entry position of a position, its sequence and its steps. -/
def PosSt.key (p : PosSt) : Nat × Nat × Nat := (p.e, p.seq, p.age)

/-- The positions of a field after a step in which none enters: each one cell on, those past the last cell gone (R48, R57). -/
def FieldSt.moved (f : FieldSt) : List (Nat × Nat × Nat) :=
  (f.inArray.filter fun p => p.age + 2 < f.rows + f.cols).map fun p => (p.e, p.seq, p.age + 1)

/-- A pass on `bank` is held at the west edge: it changes banks and its load is not complete, or a pass that was turned away is still
owed the bank (R68, R576). -/
def FieldSt.Held (f : FieldSt) (bank : Bool) : Prop :=
  (f.isSwap bank = true ∧ f.loadDone (f.swaps + 1) = false) ∨ ∃ e ∈ f.owed, e.2 = bank

namespace Machine

/-! ### Errors of level 0 leave the fields, and TNS_ERR but for the flag that is set -/

theorem detect_program_fields (s : State) {i : ErrInfo} (h : i.cls = .program) : (s.detect i).1.fields = s.fields := by
  rw [detect_frame s i (.inr (.inr (by rw [h]; rfl)))]

theorem failPosItems_frame (s : State) (f : FieldSt) (it : Option ItemRef) (q : Nat) :
    s.failPosItems f it q = { s with failed := (s.failPosItems f it q).failed } := by
  unfold State.failPosItems
  refine List.foldlRecOn (motive := fun t : State => t = { s with failed := t.failed }) _ _ rfl fun t ht k _ => ?_
  rw [failItem_frame, ht]

@[simp] theorem failPosItems_fields (s : State) (f : FieldSt) (it : Option ItemRef) (q : Nat) :
    (s.failPosItems f it q).fields = s.fields := by
  rw [failPosItems_frame]

@[simp] theorem failPosItems_regs (s : State) (f : FieldSt) (it : Option ItemRef) (q : Nat) :
    (s.failPosItems f it q).regs = s.regs := by
  rw [failPosItems_frame]

theorem failPos_program_fields (s : State) (f : FieldSt) {i : ErrInfo} (h : i.cls = .program) : (s.failPos f i).fields = s.fields :=
  (failPosItems_fields ..).trans (detect_program_fields s h)

theorem servedStatus_fields (s : State) (glade : Bool) (o k : Nat) (st : TagStatus) :
    (s.servedStatus glade o k st).1.fields = s.fields := by
  unfold State.servedStatus
  split
  · exact detect_program_fields _ rfl
  · rfl

theorem rd_event_of_reg_ne (s : State) {f g : Fld} (en : Fld) (v u i : Nat) (h : f.reg ≠ g.reg) :
    (s.event f en v).rd g u i = s.rd g u i := by
  have hset : (s.set1 f).rd g u i = s.rd g u i := rd_wr_of_reg_ne s 1 0 0 u i h
  unfold State.event
  split
  · exact hset
  · split <;> exact hset

/-- The registers that writing a record writes (R469, R519). -/
def recordRegs : List RegName := [.ERR_STATUS, .ERR_RING_LOST, .ERR_COUNTS_A, .ERR_COUNTS_B, .HST_EVENTS]

theorem rd_writeRecord_of_notMem (s : State) (die : Nat) (r : ErrRecord) {g : Fld} (u i : Nat) (h : g.reg ∉ recordRegs) :
    (s.writeRecord die r).rd g u i = s.rd g u i := by
  simp only [recordRegs, List.mem_cons, List.not_mem_nil, or_false, not_or] at h
  obtain ⟨hstatus, hlost, ha, hb, hev⟩ := h
  unfold State.writeRecord State.eventError
  extract_lets slot lost e s1 s2 s3 cnt s4 s5
  have h2 : s2.rd g u i = s.rd g u i := rd_wr_of_reg_ne s1 _ 0 0 u i (Ne.symm hstatus)
  have h3 : s3.rd g u i = s2.rd g u i := by
    unfold s3; split
    · exact rd_wr_of_reg_ne s2 _ 0 0 u i (Ne.symm hlost)
    · rfl
  have hcnt : cnt.reg ≠ g.reg := by
    unfold cnt; split
    iterate 4 exact Ne.symm ha
    iterate 3 exact Ne.symm hb
  have h4 : s4.rd g u i = s3.rd g u i := rd_wr_of_reg_ne s3 _ 0 0 u i hcnt
  have h5 : s5.rd g u i = s4.rd g u i := by
    unfold s5; split
    · exact rd_wr_of_reg_ne s4 _ 0 0 u i (Ne.symm hb)
    · rfl
  rw [rd_event_of_reg_ne _ _ _ _ _ (Ne.symm hev), h5, h4, h3, h2]

theorem rd_detect_program (s : State) {i : ErrInfo} (hi : i.cls = .program) {g : Fld} (u j : Nat) (h : g.reg ∉ recordRegs) :
    (s.detect i).1.rd g u j = s.rd g u j := by
  obtain ⟨r, e, -⟩ := detect_writes s i (.inr (.inr (by rw [hi]; rfl)))
  rw [e]
  exact rd_writeRecord_of_notMem s i.die r u j h

/-! ### A field in the table -/

@[simp] theorem setField_find (s : State) (a : Nat) (f : FieldSt) : (s.setField a f).fields.find a = some f := by
  simp [State.setField]

theorem setField_find_other {s t : State} {a b : Nat} (f : FieldSt) (hs : t.fields = s.fields) (h : b ≠ a) :
    (t.setField a f).fields.find b = s.fields.find b := by
  simp only [State.setField, hs]
  exact Tab.find_put_ne _ _ (Ne.symm h)

/-! ### What moves in a field carries its shape, its steps and its positions along -/

/-- Two states with a field that agree on the table of fields, and on the field's shape, count of steps and positions. -/
structure Carries (a b : State × FieldSt) : Prop where
  fields : b.1.fields = a.1.fields
  shape : b.2.shape = a.2.shape
  t : b.2.t = a.2.t
  started : b.2.started = a.2.started
  inArray : b.2.inArray = a.2.inArray

theorem Carries.refl (a : State × FieldSt) : Carries a a := ⟨rfl, rfl, rfl, rfl, rfl⟩

theorem Carries.trans {a b c : State × FieldSt} (h : Carries a b) (k : Carries b c) : Carries a c :=
  ⟨k.fields.trans h.fields, k.shape.trans h.shape, k.t.trans h.t, k.started.trans h.started, k.inArray.trans h.inArray⟩

theorem carries_endLoad (s : State) (f : FieldSt) (n : Nat) (l : ColLoad) : Carries (s, f) (s.endLoad f n l) := by
  unfold State.endLoad
  extract_lets bank free g spoilt clear open_
  have hclear {x : State} {y : FieldSt} (h : Carries (s, f) (x, y)) : Carries (s, f) (x, clear y) := by
    refine h.trans ?_
    unfold clear
    split
    · extract_lets z
      split <;> exact ⟨rfl, rfl, rfl, rfl, rfl⟩
    · exact .refl _
  have hopen : Carries (s, f) (open_ s g) := hclear ⟨rfl, rfl, rfl, rfl, rfl⟩
  split
  · exact hopen
  split
  · split
    · exact hopen
    · exact hclear ⟨rfl, rfl, rfl, rfl, rfl⟩
  · split
    next u q e => exact hclear ⟨(congrArg (State.fields ·.1) e).symm.trans (detect_program_fields _ rfl), rfl, rfl, rfl, rfl⟩

theorem carries_stepLoads (s : State) (f : FieldSt) : Carries (s, f) (s.stepLoads f) := by
  unfold State.stepLoads
  refine List.foldlRecOn (motive := Carries (s, f)) _ _ (.refl _) fun st ht n _ => ht.trans ?_
  obtain ⟨t, g⟩ := st
  dsimp only
  split
  · exact .refl _
  · split
    · exact .refl _
    split
    · exact carries_endLoad ..
    · exact ⟨rfl, rfl, rfl, rfl, rfl⟩

theorem carries_stepPosition (s : State) (f : FieldSt) (p : PosSt) :
    Carries (s, f) ((s.stepPosition f p).1, (s.stepPosition f p).2.1) ∧ PosSt.key (s.stepPosition f p).2.2 = PosSt.key p := by
  unfold State.stepPosition
  refine List.foldlRecOn (motive := fun st : State × FieldSt × PosSt => Carries (s, f) (st.1, st.2.1) ∧ PosSt.key st.2.2 = PosSt.key p)
    _ _ ⟨.refl _, rfl⟩ fun st ht n _ => ⟨ht.1.trans ?_, .trans ?_ ht.2⟩
  all_goals obtain ⟨t, g, q⟩ := st
  all_goals dsimp only
  · split
    · refine ⟨?_, rfl, rfl, rfl, rfl⟩
      simp only [apply_ite State.fields, tick_fields, ite_self]
      split
      · exact failPos_program_fields _ _ rfl
      · rfl
    · exact .refl _
  · split <;> rfl

theorem advanceRow_west (f : FieldSt) (b : Nat) : f.advanceRow b = { f with west := (f.advanceRow b).west } := by
  unfold FieldSt.advanceRow
  split <;> rfl

theorem carries_advanceRows (s : State) (f : FieldSt) (l : List Nat) : Carries (s, f) (s, l.foldl (fun f b => f.advanceRow b) f) := by
  refine List.foldlRecOn (motive := fun g : FieldSt => Carries (s, f) (s, g)) _ _ (.refl _) fun g hg b _ => hg.trans ?_
  rw [advanceRow_west]
  exact ⟨rfl, rfl, rfl, rfl, rfl⟩

/-- The heads of the runs of a field's block rows begin with that of block row 0. -/
theorem west_heads {f : FieldSt} {g : FeedSeg} (hh : 0 < f.h) (hg : (f.west.findD 0 []).head? = some g) :
    ∃ r, (List.range f.h).filterMap (fun b => (f.west.findD b []).head?) = g :: r := by
  obtain ⟨n, hn⟩ := Nat.exists_eq_succ_of_ne_zero (Nat.ne_of_gt hh)
  rw [hn, List.range_succ_eq_map, List.filterMap_cons, hg]
  exact ⟨_, rfl⟩

/-- A position that enters takes the number of its step and the sequence of the run at block row 0, and comes after the others. -/
structure Enters (s : State) (f : FieldSt) (g : FeedSeg) (b : State × FieldSt) : Prop where
  fields : b.1.fields = s.fields
  shape : b.2.shape = f.shape
  t : b.2.t = f.t + 1
  started : b.2.started = true
  inArray : ∃ p : PosSt, p.key = (f.t, g.seq, 0) ∧ b.2.inArray = f.inArray ++ [p]

theorem releasePosition_enters (s : State) {f : FieldSt} {g : FeedSeg} (hh : 0 < f.h) (hg : (f.west.findD 0 []).head? = some g) :
    Enters s f g (s.releasePosition f) := by
  obtain ⟨r, hr⟩ := west_heads hh hg
  unfold State.releasePosition
  extract_lets segs n els exps scales noExp joined status fed
  have hs : segs = g :: r := hr
  clear_value segs
  subst hs
  dsimp -zeta only
  extract_lets last p0 s1 p s2 s3 info s4 g1
  have h1 : s1.fields = s.fields := by
    unfold s1
    split
    · exact (failPosItems_fields ..).trans (servedStatus_fields ..)
    · exact servedStatus_fields ..
  have h2 : s2.fields = s1.fields := by
    unfold s2
    split
    · exact failPosItems_fields ..
    · rfl
  have h3 : s3.fields = s2.fields := by
    unfold s3
    split
    · exact failPosItems_fields ..
    · rfl
  have h4 : s4.fields = s3.fields := by
    unfold s4
    split
    · exact failPos_program_fields _ _ rfl
    · rfl
  have hfields : s4.fields = s.fields := h4.trans (h3.trans (h2.trans h1))
  have hfed : Carries (s, f) (s, fed) := carries_advanceRows s f (List.range f.h)
  have ht : g1.t = f.t + 1 := congrArg (· + 1) hfed.t
  have hin : g1.inArray = f.inArray ++ [p] := congrArg (· ++ [p]) hfed.inArray
  split <;> exact ⟨hfields, hfed.shape, ht, rfl, p, rfl, hin⟩

/-! ### The step that fires -/

/-- What a step lets enter before the array moves (R49, R57, R69). -/
def State.entered (s : State) (f : FieldSt) : State × FieldSt :=
  if f.passOpen then s.releasePosition f else (s, if f.hold && f.started && !f.stopping then { f with t := f.t + 1 } else f)

/-- The positions of a list step one after the other. -/
theorem carries_positions {step : State × FieldSt × List PosSt → PosSt → State × FieldSt × List PosSt} {l : List PosSt}
    {st r : State × FieldSt × List PosSt} (hr : l.foldl step st = r)
    (hstep : ∀ st p, Carries (st.1, st.2.1) ((step st p).1, (step st p).2.1) ∧
      (step st p).2.2.map PosSt.key = st.2.2.map PosSt.key ++ [p.key]) :
    Carries (st.1, st.2.1) (r.1, r.2.1) ∧ r.2.2.map PosSt.key = st.2.2.map PosSt.key ++ l.map PosSt.key := by
  subst hr
  induction l generalizing st with
  | nil => exact ⟨.refl _, (List.append_nil _).symm⟩
  | cons p l ih =>
    obtain ⟨hc, hk⟩ := hstep st p
    obtain ⟨hcs, hks⟩ := @ih (step st p)
    refine ⟨hc.trans hcs, hks.trans ?_⟩
    rw [hk, List.append_assoc]
    rfl

/-- One cell on, and past the last cell gone, rest on the keys of the positions alone. -/
theorem moved_map_key (n : Nat) (l : List PosSt) :
    ((l.map fun p => { p with age := p.age + 1 }).filter fun p => p.age + 1 < n).map PosSt.key =
      ((l.map PosSt.key).filter fun k => k.2.2 + 2 < n).map fun k => (k.1, k.2.1, k.2.2 + 1) := by
  simp only [List.filter_map, List.map_map]
  rfl

theorem size_congr {f g : FieldSt} (h : g.shape = f.shape) : g.rows + g.cols = f.rows + f.cols := by
  simp only [FieldSt.rows, FieldSt.cols, FieldSt.h, FieldSt.w, h]

theorem moved_eq (f : FieldSt) :
    f.moved = ((f.inArray.map PosSt.key).filter fun k => k.2.2 + 2 < f.rows + f.cols).map fun k => (k.1, k.2.1, k.2.2 + 1) := by
  simp only [FieldSt.moved, List.filter_map, List.map_map]
  rfl

/-- The array of a field has moved by one cell, and no other field of the table has changed. -/
structure Moves (a b : State × FieldSt) : Prop where
  fields : b.1.fields = a.1.fields
  t : b.2.t = a.2.t
  started : b.2.started = a.2.started
  inArray : b.2.inArray.map PosSt.key = a.2.moved

theorem fireStep_moves (s : State) (f : FieldSt) : Moves (s.entered f) (s.fireStep f) := by
  unfold State.fireStep
  extract_lets bubble
  split
  next s1 f1 h1 =>
  have h1 : s.entered f = (s1, f1) := h1
  rw [h1]
  split
  next s2 f2 ps h2 =>
  obtain ⟨hc, hk⟩ := carries_positions h2 fun st p => by
    obtain ⟨t, g, qs⟩ := st
    obtain ⟨hc, hk⟩ := carries_stepPosition t g p
    exact ⟨hc, List.map_append.trans (congrArg (fun k => qs.map PosSt.key ++ [k]) hk)⟩
  split
  next s3 f3 h3 =>
  have hl : Carries (s2, { f2 with inArray := ps }) (s3, f3) := h3 ▸ carries_stepLoads s2 { f2 with inArray := ps }
  have hsize : f3.rows + f3.cols = f1.rows + f1.cols := size_congr (hl.shape.trans hc.shape)
  have hin : f3.inArray.map PosSt.key = f1.inArray.map PosSt.key := (congrArg (List.map PosSt.key) hl.inArray).trans hk
  refine ⟨hl.fields.trans hc.fields, hl.t.trans hc.t, hl.started.trans hc.started, (moved_map_key (f3.rows + f3.cols) f3.inArray).trans ?_⟩
  rw [hsize, hin, moved_eq]

theorem entered_of_drained (s : State) (f : FieldSt) (hp : f.passOpen = false) (hb : f.hold = false ∨ f.stopping = true) :
    s.entered f = (s, f) := by
  rcases hb with hb | hb <;> simp [State.entered, hp, hb]

theorem entered_of_open {s : State} {f : FieldSt} (hp : f.passOpen = true) : s.entered f = s.releasePosition f := by
  simp [State.entered, hp]

/-- The positions that have entered move with the others: the last of them to row 1, which is not past the last cell. -/
theorem moved_of_enters {s : State} {f : FieldSt} {g : FeedSeg} {b : State × FieldSt} (hh : 0 < f.h) (h : Enters s f g b) :
    b.2.moved = f.moved ++ [(f.t, g.seq, 1)] := by
  obtain ⟨p, hp, hin⟩ := h.inArray
  have hrows : 2 < f.rows + f.cols := by unfold FieldSt.rows; omega
  rw [moved_eq, moved_eq, hin, size_congr h.shape, List.map_append, List.filter_append, List.map_append, List.map_singleton, hp]
  simp [hrows]

/-! ### The pass at the west edge -/

/-- Once nothing more of a pass changes, the search for passes that are turned away ends. -/
theorem openPasses_of_settled {s t : State} {f g : FieldSt} (h : s.openPass f = (t, g)) (hfix : t.openPass g = (t, g)) (n : Nat) :
    State.openPasses (n + 1) s f = (t, g) := by
  induction n generalizing s f with
  | zero => simp only [State.openPasses, h, ite_self]
  | succ n ih =>
    rw [State.openPasses, h, ih hfix]
    exact ite_self _

theorem openPass_of_open {s : State} {f : FieldSt} (h : f.passOpen = true ∨ f.stopping = true ∨ f.stopped = true) :
    s.openPass f = (s, f) := if_pos h

theorem discardPass_frame (s : State) (f : FieldSt) (q : Nat) :
    (s.discardPass f q).1 = { s with failed := (s.discardPass f q).1.failed } := by
  unfold State.discardPass
  refine List.foldlRecOn (motive := fun st : State × FieldSt => st.1 = { s with failed := st.1.failed }) _ _ rfl fun st hst b _ => ?_
  obtain ⟨t, g⟩ := st
  refine List.foldlRecOn (motive := fun u : State => u = { s with failed := u.failed }) _ _ hst fun u hu it _ => ?_
  rw [failPosItems_frame, hu]

theorem flag_discardPass (s : State) (f : FieldSt) (q : Nat) (e : Fld) (u i : Nat) : (s.discardPass f q).1.flag e u i = s.flag e u i := by
  rw [discardPass_frame]
  rfl

/-- The record of a pass that is turned away, and its failed items, leave TNS_ERR as it is. -/
theorem flag_turnedAway (s : State) {i : ErrInfo} (hi : i.cls = .program) (f g : FieldSt) (it : Option ItemRef) (q u : Nat) :
    (((s.detect i).1.failPosItems f it q).discardPass g q).1.flag R.TNS_ERR.GRANULE_ALIGN u = s.flag R.TNS_ERR.GRANULE_ALIGN u := by
  rw [flag_discardPass, flag_eq, flag_eq, rd_congr (failPosItems_regs ..), rd_detect_program s hi u 0 (by decide)]

theorem flag_set1_granuleAlign (s : State) (k : Nat) :
    (s.set1 R.TNS_ERR.GRANULE_ALIGN k).flag R.TNS_ERR.GRANULE_ALIGN k = true := by
  rw [flag_eq, set1_eq, rd_wr_self]
  rfl

/-- A set flag stays set when it, or the flag of another site, is set. -/
theorem flag_set1_of_flag {s : State} {u : Nat} (k : Nat) (h : s.flag R.TNS_ERR.GRANULE_ALIGN u = true) :
    (s.set1 R.TNS_ERR.GRANULE_ALIGN k).flag R.TNS_ERR.GRANULE_ALIGN u = true := by
  by_cases hk : k = u
  · exact hk ▸ flag_set1_granuleAlign s k
  · rw [flag_eq, set1_eq, rd_wr_ne _ _ _ _ _ _ _ _ fun e => hk (congrArg FKey.unit e)]
    exact h

theorem openPass_keeps_granuleAlign {s : State} {u : Nat} (f : FieldSt) (h : s.flag R.TNS_ERR.GRANULE_ALIGN u = true) :
    (s.openPass f).1.flag R.TNS_ERR.GRANULE_ALIGN u = true := by
  unfold State.openPass
  split
  · exact h
  split
  · exact h
  split
  · rwa [flag_discardPass]
  split
  · exact h
  dsimp only
  split
  · exact (flag_turnedAway _ rfl ..).trans (flag_set1_of_flag f.anchorSite h)
  · split <;> exact h

theorem openPasses_keeps_granuleAlign {s : State} {u : Nat} (n : Nat) (f : FieldSt) (h : s.flag R.TNS_ERR.GRANULE_ALIGN u = true) :
    (State.openPasses n s f).1.flag R.TNS_ERR.GRANULE_ALIGN u = true := by
  induction n generalizing s f with
  | zero => exact h
  | succ n ih =>
    have hk := openPass_keeps_granuleAlign f h
    unfold State.openPasses
    extract_lets r
    split
    · exact hk
    · exact ih _ hk

theorem not_held_iff {f : FieldSt} {bank : Bool} :
    ¬ f.Held bank ↔ (f.isSwap bank = false ∨ f.loadDone (f.swaps + 1) = true) ∧ ∀ e ∈ f.owed, e.2 ≠ bank := by
  rw [FieldSt.Held, not_or, Decidable.not_and_iff_not_or_not, Bool.not_eq_true, Bool.not_eq_false]
  simp only [not_exists, not_and, ne_eq]

theorem openPasses_sets_granuleAlign {s : State} {u : Nat} (n : Nat) (f : FieldSt)
    (h : (s.openPass f).1.flag R.TNS_ERR.GRANULE_ALIGN u = true) :
    (State.openPasses (n + 1) s f).1.flag R.TNS_ERR.GRANULE_ALIGN u = true := by
  unfold State.openPasses
  extract_lets r
  split
  · exact h
  · exact openPasses_keeps_granuleAlign n r.2 h

/-- The pass of the run `g` begins at the west edge (R61, R62). -/
structure Begins (s : State) (f : FieldSt) (g : FeedSeg) (b : State × FieldSt) : Prop where
  state : ∃ n, b.1 = { s with det := { s.det with passes := n } }
  passOpen : b.2.passOpen = true
  hold : b.2.hold = false
  bank : b.2.bank = g.bank
  granule : b.2.granule = g.granule
  passes : b.2.passes = f.passes + 1
  swaps : b.2.swaps = f.swaps + if f.isSwap g.bank then 1 else 0
  prevBank : b.2.prevBank = some g.bank

/-- A pass adds a swap where it changes banks, and its bank is the one that the next pass is compared with (R61, R62). -/
theorem countPass_swaps (f : FieldSt) (bank : Bool) :
    (f.countPass bank).swaps = f.swaps + (if f.isSwap bank then 1 else 0) ∧ (f.countPass bank).prevBank = some bank := by
  unfold FieldSt.countPass
  extract_lets f1 f2 owed
  have h2 : f2.swaps = f.swaps := by
    unfold f2
    split <;> rfl
  by_cases h : f.isSwap bank = true
  · have h1 : f1.isSwap bank = true := h
    rw [if_pos h1, if_pos h]
    exact ⟨congrArg (· + 1) h2, rfl⟩
  · have h1 : ¬ f1.isSwap bank = true := h
    rw [if_neg h1, if_neg h]
    exact ⟨rfl, rfl⟩

theorem not_unfed {s : State} {f : FieldSt} (hfed : s.borrowAt f.anchorSite = false ∨ f.passFed = true) :
    ¬ (s.borrowAt f.anchorSite = true ∧ (!f.passFed) = true) := by
  rcases hfed with h | h <;> simp [h]

section
variable {s : State} {f : FieldSt} {g : FeedSeg} (hstop : f.stopped = false) (hs : f.stopping = false) (hp : f.passOpen = false)
include hstop hs hp

theorem not_open_or_stops : ¬ (f.passOpen = true ∨ f.stopping = true ∨ f.stopped = true) := by
  simp [hstop, hs, hp]

/-- A pass of a borrow context waits for its FEED descriptors (R368). -/
theorem openPass_of_unfed (hb : s.borrowAt f.anchorSite = true) (hf : f.passFed = false) : s.openPass f = (s, { f with hold := false }) := by
  rw [State.openPass, if_neg (not_open_or_stops hstop hs hp), if_pos ⟨hb, by rw [hf]; rfl⟩]

theorem openPasses_of_unfed (hb : s.borrowAt f.anchorSite = true) (hf : f.passFed = false) (n : Nat) :
    State.openPasses (n + 1) s f = (s, { f with hold := false }) :=
  openPasses_of_settled (openPass_of_unfed hstop hs hp hb hf) (openPass_of_unfed hstop hs hp hb hf) n

/-- A field whose west edge is bare is not held. -/
theorem openPass_of_bare (hd : f.discard = []) (hw : (f.west.findD 0 []).head? = none) : s.openPass f = (s, { f with hold := false }) := by
  rw [State.openPass, if_neg (not_open_or_stops hstop hs hp)]
  split
  · rfl
  · simp [hd, hw]

variable (hfed : s.borrowAt f.anchorSite = false ∨ f.passFed = true) (hd : f.discard = []) (hw : (f.west.findD 0 []).head? = some g)
include hfed hd hw

/-- A pass that is not aligned, or whose record is not valid, is turned away (R76, R84). -/
theorem openPass_sets_granuleAlign (hr : g.granule % f.h ≠ 0 ∨ s.flag R.TNS_PASSREC.VALID f.anchorSite f.rec_ = false) :
    (s.openPass f).1.flag R.TNS_ERR.GRANULE_ALIGN f.anchorSite = true := by
  rw [State.openPass, if_neg (not_open_or_stops hstop hs hp), if_neg (not_unfed hfed), if_neg (by simp [hd]), hw]
  dsimp only
  rw [if_pos (hr.imp_right fun h => by rw [h]; rfl)]
  exact (flag_turnedAway _ rfl ..).trans (flag_set1_granuleAlign s f.anchorSite)

variable (hal : g.granule % f.h = 0) (hv : s.flag R.TNS_PASSREC.VALID f.anchorSite f.rec_ = true)
include hal hv

theorem openPass_of_held (hh : f.Held g.bank) : s.openPass f = (s, { f with hold := true }) := by
  rw [State.openPass, if_neg (not_open_or_stops hstop hs hp), if_neg (not_unfed hfed), if_neg (by simp [hd]), hw]
  dsimp only
  rw [if_neg (by simp [hal, hv]), if_pos (by simpa [FieldSt.Held] using hh)]

theorem openPasses_of_held (hh : f.Held g.bank) (n : Nat) :
    State.openPasses (n + 1) s f = (s, { f with hold := true }) :=
  openPasses_of_settled (openPass_of_held hstop hs hp hfed hd hw hal hv hh) (openPass_of_held hstop hs hp hfed hd hw hal hv hh) n

theorem openPass_begins (hh : ¬ f.Held g.bank) : Begins s f g (s.openPass f) := by
  rw [State.openPass, if_neg (not_open_or_stops hstop hs hp), if_neg (not_unfed hfed), if_neg (by simp [hd]), hw]
  dsimp only
  rw [if_neg (by simp [hal, hv]), if_neg (by simpa [FieldSt.Held] using hh)]
  obtain ⟨hsw, hpr⟩ := countPass_swaps f g.bank
  exact ⟨⟨_, rfl⟩, rfl, rfl, rfl, rfl, rfl, hsw, hpr⟩

end

/-- A field whose west edge is bare takes no pass; a hold ends, but for a stopping field, which stays as it is. -/
theorem openPasses_of_bare (s : State) {f : FieldSt} (hstop : f.stopped = false) (hp : f.passOpen = false) (hd : f.discard = [])
    (hw : (f.west.findD 0 []).head? = none) (n : Nat) :
    ∃ b, (b = false ∨ f.stopping = true) ∧ State.openPasses (n + 1) s f = (s, { f with hold := b }) := by
  by_cases hs : f.stopping = true
  · have h : s.openPass f = (s, f) := openPass_of_open (.inr (.inl hs))
    exact ⟨f.hold, .inr hs, openPasses_of_settled h h n⟩
  · have hs : f.stopping = false := by simpa using hs
    exact ⟨false, .inl rfl, openPasses_of_settled (openPass_of_bare hstop hs hp hd hw) (openPass_of_bare hstop hs hp hd hw) n⟩

/-! ### The three commands -/

theorem exec_tensorStep {a : Site} {s t : State} {f g : FieldSt} (hf : s.fields.find a.val = some f) (hstop : f.stopped = false)
    (ho : State.openPasses ((f.west.findD 0 []).length + 1) s f = (t, g)) :
    exec (.tensorStep a none) s =
      .next (if (g.passOpen && !g.positionReady) || !g.outRoom then t.setField a g else (t.fireStep g).1.setField a (t.fireStep g).2) := by
  have hnot : ¬ f.stopped = true := by simp [hstop]
  show execTensorStep a none s = _
  rw [execTensorStep, hf]
  dsimp only
  rw [if_neg hnot, ho]
  dsimp only
  split <;> rfl

theorem exec_tensorStep_fires {a : Site} {s t : State} {f g : FieldSt} (hf : s.fields.find a.val = some f) (hstop : f.stopped = false)
    (ho : State.openPasses ((f.west.findD 0 []).length + 1) s f = (t, g)) (hpos : g.passOpen = false ∨ g.positionReady = true)
    (hroom : g.outRoom = true) :
    exec (.tensorStep a none) s = .next ((t.fireStep g).1.setField a (t.fireStep g).2) := by
  rw [exec_tensorStep hf hstop ho, if_neg]
  rcases hpos with h | h <;> simp [h, hroom]

theorem exec_passRelease {a : Site} {s t : State} {f g : FieldSt} (hf : s.fields.find a.val = some f)
    (ho : State.openPasses ((f.west.findD 0 []).length + 1) s f = (t, g)) :
    exec (.passRelease a) s = .next (t.setField a g) := by
  show execPassRelease a s = _
  rw [execPassRelease, hf]
  dsimp only
  rw [ho]

theorem exec_fieldStopped {a : Site} {s : State} {f : FieldSt} (hf : s.fields.find a.val = some f) (hs : f.stopping = true)
    (hp : f.passOpen = false) (hin : f.inArray = []) (ht : ∀ e ∈ f.taken, e.2 = 0) :
    exec (.fieldStopped a) s = .next (s.setField a { f with stopping := false, stopped := true }) := by
  show execFieldStopped a s = _
  rw [execFieldStopped, hf]
  dsimp only
  rw [if_pos ⟨hs, by simp [hp], by simp [hin], by simpa using ht⟩]

/-! ### O11 -/

/-- Settles O11: a step that fires moves the array by one cell after what enters, and errors of level 0 leave the table of fields; the
pass at the west edge waits, is held, is turned away or begins, by its checks in their order. -/
theorem fieldsStepAndStop : Obligations.FieldsStepAndStop := by
  unfold Obligations.FieldsStepAndStop
  intro key moved
  refine ⟨?step, ?enter, ?stall, ?release, ?stop⟩
  case step =>
    intro a s f hf hstop hp hd hw hroom
    obtain ⟨b, hb, ho⟩ := openPasses_of_bare s hstop hp hd (by rw [hw]; rfl) (f.west.findD 0 []).length
    have hm := fireStep_moves s { f with hold := b }
    rw [entered_of_drained s { f with hold := b } hp hb] at hm
    exact ⟨_, _, exec_tensorStep_fires hf hstop ho (.inl hp) hroom, setField_find .., hm.t, hm.inArray,
      fun c hc => setField_find_other _ hm.fields hc⟩
  case enter =>
    intro a s f g hf hstop hp hh hg hpos hroom
    have h : s.openPass f = (s, f) := openPass_of_open (.inl hp)
    have he := releasePosition_enters s hh hg
    have hm := fireStep_moves s f
    rw [entered_of_open hp] at hm
    exact ⟨_, _, exec_tensorStep_fires hf hstop (openPasses_of_settled h h _) (.inr hpos) hroom, setField_find .., hm.t.trans he.t,
      hm.started.trans he.started, hm.inArray.trans (moved_of_enters hh he), fun c hc => setField_find_other _ (hm.fields.trans he.fields) hc⟩
  case stall =>
    intro a s f hf hstop hp hno
    have h : s.openPass f = (s, f) := openPass_of_open (.inl hp)
    refine ⟨_, exec_tensorStep hf hstop (openPasses_of_settled h h _), ?_⟩
    rw [if_pos (by rcases hno with h | h <;> simp [h, hp])]
    refine ⟨rfl, fun c => ?_⟩
    by_cases hc : c = a.val
    · rw [hc, setField_find, hf]
    · exact setField_find_other f rfl hc
  case release =>
    intro a s f g hf hstop hs hp hd hg
    refine ⟨fun hb hfed => ?_, fun hfed => ⟨fun ⟨hal, hv⟩ => ?_, fun hr => ?_⟩⟩
    · have ho := openPasses_of_unfed hstop hs hp hb hfed (f.west.findD 0 []).length
      exact ⟨_, exec_passRelease hf ho, rfl, setField_find .., fun c hc => setField_find_other _ rfl hc⟩
    · by_cases hh : f.Held g.bank
      · have ho := openPasses_of_held hstop hs hp hfed hd hg hal hv hh (f.west.findD 0 []).length
        refine ⟨_, _, exec_passRelease hf ho, setField_find .., rfl, fun c hc => setField_find_other _ rfl hc, fun _ => rfl, ?_⟩
        exact fun hn => absurd hh (not_held_iff.mpr hn)
      · rcases ho : s.openPass f with ⟨t, f'⟩
        have hb : Begins s f g (t, f') := ho ▸ openPass_begins hstop hs hp hfed hd hg hal hv hh
        obtain ⟨n, rfl⟩ := hb.state
        refine ⟨_, f', exec_passRelease hf (openPasses_of_settled ho (openPass_of_open (.inl hb.passOpen)) _), setField_find .., rfl,
          fun c hc => setField_find_other _ rfl hc, fun h => absurd h hh, ?_⟩
        exact fun _ => ⟨hb.passOpen, hb.hold, hb.bank, hb.granule, hb.passes, hb.swaps, hb.prevBank⟩
    · have hset := openPass_sets_granuleAlign hstop hs hp hfed hd hg hr
      exact ⟨_, exec_passRelease hf rfl, openPasses_sets_granuleAlign (f.west.findD 0 []).length f hset⟩
  case stop =>
    intro a s f hf hs hp hin ht
    exact ⟨_, exec_fieldStopped hf hs hp hin ht, rfl, setField_find .., fun c hc => setField_find_other _ rfl hc⟩

end Machine
end Sys2Proof
end

section
/-!
PROOFS of the statements of chapter 3 about a lane and a tree addition (O12, O13).
-/
namespace Sys2Proof

/-! ### The product lane of an INT8 granule (R88, R91, R95) -/

theorem int8_decode (b : BitVec 8) : OpFormat.int8.decode b.toNat = .fin (decide (b.toInt < 0)) b.toInt.natAbs 0 := by
  have hb := b.isLt
  have hi := b.toInt_eq_toNat_cond
  by_cases h : b.toNat < 128
  · have e : b.toInt = b.toNat := by rw [hi]; omega
    have hn : ¬ (b.toNat : Int) < 0 := by omega
    simp only [OpFormat.decode, OpFormat.decode.signedVal, Nat.mod_eq_of_lt hb, e, hn, decide_false]
    exact if_pos h
  · have e : b.toInt = b.toNat - 256 := by rw [hi]; omega
    have hn : (b.toNat : Int) - 256 < 0 := by omega
    simp only [OpFormat.decode, OpFormat.decode.signedVal, Nat.mod_eq_of_lt hb, e, hn, decide_true]
    rw [if_neg (by omega)]
    congr 1
    omega

/-- Signs and magnitudes multiply to the signed product. -/
theorem signed_natAbs_mul (a b : Int) :
    (if decide (a < 0) != decide (b < 0) then -((a.natAbs * b.natAbs : Nat) : Int) else ((a.natAbs * b.natAbs : Nat) : Int)) = a * b := by
  have neg {c : Int} (h : c < 0) : (c.natAbs : Int) = -c := Int.ofNat_natAbs_of_nonpos (Int.le_of_lt h)
  have pos {c : Int} (h : ¬ c < 0) : (c.natAbs : Int) = c := Int.natAbs_of_nonneg (Int.not_lt.mp h)
  rw [Int.natCast_mul]
  by_cases ha : a < 0 <;> by_cases hb : b < 0
  · rw [decide_eq_true ha, decide_eq_true hb, neg ha, neg hb, Int.neg_mul_neg]
    rfl
  · rw [decide_eq_true ha, decide_eq_false hb, neg ha, pos hb, Int.neg_mul, Int.neg_neg]
    rfl
  · rw [decide_eq_false ha, decide_eq_true hb, pos ha, neg hb, Int.mul_neg, Int.neg_neg]
    rfl
  · rw [decide_eq_false ha, decide_eq_false hb, pos ha, pos hb]
    rfl

theorem cellProduct_int8 (x y : BitVec 8) :
    cellProduct (OpFormat.int8.cellEl 0 x.toNat) (OpFormat.int8.cellEl 0 y.toNat) = (x.toInt * y.toInt, 0, {}) := by
  simp only [OpFormat.cellEl, int8_decode, cellProduct, specialFlags, Flags.any]
  rw [← signed_natAbs_mul]
  rfl

theorem wrap72_of_fits {v : Int} (h : v.natAbs < 2 ^ 71) : wrap72 v = v := by
  unfold wrap72
  omega

/-- One row of an INT8 granule adds its product to the lane (R91). -/
theorem laneProduct_int8 (z : Int) (x y : BitVec 8) :
    laneProduct .int8 0 0 0 0 { s1 := z } x.toNat y.toNat = { s1 := wrap72 (z + x.toInt * y.toInt) } := by
  unfold laneProduct Lane.add
  rw [cellProduct_int8]
  show Lane.mk 0 (wrap72 (z + x.toInt * y.toInt * 1)) false {} = _
  rw [Int.mul_one]

theorem natAbs_int8_mul_le (x y : BitVec 8) : (x.toInt * y.toInt).natAbs ≤ 2 ^ 14 := by
  have bound (b : BitVec 8) : b.toInt.natAbs ≤ 2 ^ 7 := by
    have hl : -2 ^ 7 ≤ b.toInt := b.le_toInt
    have hu : b.toInt < 2 ^ 7 := b.toInt_lt
    omega
  calc (x.toInt * y.toInt).natAbs = x.toInt.natAbs * y.toInt.natAbs := Int.natAbs_mul ..
    _ ≤ 2 ^ 7 * 2 ^ 7 := Nat.mul_le_mul (bound x) (bound y)

/-- While the bound of R95 leaves room for one largest product in each row to come, the rows add up to their exact sum. -/
theorem foldl_laneProduct_int8 (xs : List (BitVec 8 × BitVec 8)) (z : Int) (h : z.natAbs + 2 ^ 14 * xs.length ≤ 2 ^ 20) :
    xs.foldl (fun ln x => laneProduct .int8 0 0 0 0 ln x.1.toNat x.2.toNat) { s1 := z } =
      { s1 := z + (xs.map fun x => x.1.toInt * x.2.toInt).sum } := by
  induction xs generalizing z with
  | nil => rw [List.map_nil, List.sum_nil, Int.add_zero, List.foldl_nil]
  | cons x xs ih =>
    have hx := natAbs_int8_mul_le x.1 x.2
    have hadd := Int.natAbs_add_le z (x.1.toInt * x.2.toInt)
    rw [List.length_cons] at h
    rw [List.foldl_cons, laneProduct_int8, wrap72_of_fits (by omega), ih _ (by omega), List.map_cons, List.sum_cons, Int.add_assoc]

/-- Settles O12, by induction on the rows: each product is at most 2^14, so that 64 of them stay far within the lane. -/
theorem int8LaneIsExact : Obligations.Int8LaneIsExact := by
  unfold Obligations.Int8LaneIsExact
  intro xs hxs ln
  have hln := foldl_laneProduct_int8 xs 0 (by rw [Int.natAbs_zero]; omega)
  rw [Int.zero_add] at hln
  rw [show ln = _ from hln]
  exact ⟨rfl, rfl, rfl, fun _ _ => rfl⟩

/-! ### Adding tree nodes (R102) -/

/-- Refutes O13: 3 and -3 at a last place of 2^1 cancel to a node that counts as zero but keeps its exponent. Of two operands that count as
zero an addition gives the right one (R102), so that the zero node on its right does not leave it unchanged. -/
theorem not_exactTreeAddition : ¬ Obligations.ExactTreeAddition := by
  unfold Obligations.ExactTreeAddition
  rintro ⟨hzero, -⟩
  have hcancel : nodeAdd true { n := 3, x := 1 } { n := -3, x := 1 } = { x := 1 } := by decide
  have hright : nodeAdd true { x := 1 } {} = {} := by decide
  have hsame := (hzero (nodeAdd true { n := 3, x := 1 } { n := -3, x := 1 })).2
  rw [hcancel, hright] at hsame
  exact absurd hsame (by decide)

end Sys2Proof
end

section
/-!
PROOF that the codes of the floating formats and their values agree (O14).
-/
namespace Sys2Proof

/-- A format laid out as IEEE 754 lays one out, with a fraction of at least one bit. -/
structure FFmt.Laid (f : FFmt) : Prop where
  kind : f.kind = .ieee
  prec : 2 ≤ f.p
  wide : 2 ≤ f.w

/-- A finite value that a format holds: a subnormal at the least last place, or a full significand at one the largest finite value
allows. -/
structure FFmt.Holds (f : FFmt) (m : Nat) (q : Int) : Prop where
  fits : m < 2 ^ f.p
  least : f.emin ≤ q
  most : q ≤ f.maxFinite.2
  full : 2 ^ (f.p - 1) ≤ m ∨ q = f.emin

namespace FFmt

variable {f : FFmt}

/-! ### A value of the format is rounded to itself -/

theorem roundMag_of_holds (mode : RoundMode) (neg : Bool) (u : Nat) {m : Nat} {q : Int} (hp : 2 ≤ f.p) (h : f.Holds m q) (hm : m ≠ 0) :
    roundMag f.p f.emin mode neg u m q = (m, q) := by
  have hlog : Nat.log2 m < f.p := (Nat.log2_lt hm).mpr h.fits
  have hq : max (q + (Nat.log2 m : Int) - (f.p - 1 : Nat)) f.emin = q := by
    have hleast := h.least
    rcases h.full with hfull | rfl
    · have : f.p - 1 ≤ Nat.log2 m := (Nat.le_log2 hm).mpr hfull
      omega
    · omega
  unfold roundMag
  rw [if_neg hm]
  simp only [hq, Int.le_refl, if_true, Int.sub_self, Int.toNat_zero, Nat.pow_zero, Nat.mul_one]

theorem not_magExceeds_of_holds {m : Nat} {q : Int} (hk : f.kind = .ieee) (h : f.Holds m q) :
    magExceeds m q f.maxFinite.1 f.maxFinite.2 = false := by
  have hfst : f.maxFinite.1 = 2 ^ f.p - 1 := by simp only [maxFinite, hk]
  have hm := h.fits
  have hmost := h.most
  simp only [magExceeds, decide_eq_false_iff_not, Nat.not_lt, Int.min_eq_left hmost, Int.sub_self, Int.toNat_zero, Nat.pow_zero, Nat.mul_one]
  calc m ≤ f.maxFinite.1 := by omega
    _ ≤ f.maxFinite.1 * 2 ^ (f.maxFinite.2 - q).toNat := Nat.le_mul_of_pos_right _ (Nat.two_pow_pos _)

theorem toBits_of_holds (neg : Bool) {m : Nat} {q : Int} (hl : f.Laid) (h : f.Holds m q) :
    f.toBits (.fin neg m q) = f.encode neg m (if m = 0 then f.emin else q) := by
  by_cases hm : m = 0
  · subst hm; cases neg <;> simp [toBits, round]
  · have hne : ¬ (if neg then -(m : Int) else m) = 0 := by cases neg <;> simpa using hm
    have hneg : decide ((if neg then -(m : Int) else m) < 0) = neg := by cases neg <;> simp; omega
    have habs : (if neg then -(m : Int) else (m : Int)).natAbs = m := by cases neg <;> simp
    simp only [toBits, round, hne, hneg, habs, roundMag_of_holds .nearestEven neg 0 hl.prec h hm, hm, if_false,
      not_magExceeds_of_holds hl.kind h, Bool.false_eq_true]

/-! ### The three parts of a code -/

/-- A code below 2^bits is its sign bit, its exponent field and its fraction. -/
theorem code_parts {b : Nat} (hl : f.Laid) (hb : b < 2 ^ f.bits) :
    (if decide (b / 2 ^ (f.bits - 1) % 2 = 1) then 2 ^ (f.bits - 1) else 0) + b / 2 ^ (f.p - 1) % 2 ^ f.w * 2 ^ (f.p - 1)
      + b % 2 ^ (f.p - 1) = b := by
  have hp := hl.prec
  have hbits : f.bits - 1 = (f.p - 1) + f.w := by simp only [bits]; omega
  have hsplit : b / 2 ^ (f.bits - 1) = b / 2 ^ (f.p - 1) / 2 ^ f.w := by rw [hbits, Nat.pow_add, Nat.div_div_eq_div_mul]
  have hsign : b / 2 ^ (f.bits - 1) < 2 := by
    apply Nat.div_lt_of_lt_mul
    rwa [Nat.two_pow_pred_mul_two (by simp only [bits]; omega)]
  have hsg : (if decide (b / 2 ^ (f.bits - 1) % 2 = 1) then 2 ^ (f.bits - 1) else 0) = b / 2 ^ (f.bits - 1) * 2 ^ f.w * 2 ^ (f.p - 1) := by
    rw [Nat.mul_assoc, ← Nat.pow_add, Nat.add_comm f.w, ← hbits]
    rcases Nat.le_one_iff_eq_zero_or_eq_one.mp (Nat.le_of_lt_succ hsign) with h | h
    · rw [h, Nat.zero_mul]
      rfl
    · rw [h, Nat.one_mul]
      rfl
  rw [hsg, ← Nat.add_mul, hsplit, Nat.mul_comm _ (2 ^ f.w), Nat.div_add_mod, Nat.mul_comm, Nat.div_add_mod]

/-- Each code but the NaNs is that of the value it stands for. -/
theorem toBits_decode {b : Nat} (hl : f.Laid) (hb : b < 2 ^ f.bits) (hn : f.decode b ≠ .nan) : f.toBits (f.decode b) = b := by
  have hparts := code_parts hl hb
  have hmax : f.maxFinite.2 = f.emin + (2 ^ f.w - 3 : Nat) := by simp only [maxFinite, hl.kind]
  have hw : 2 ^ 2 ≤ 2 ^ f.w := Nat.pow_le_pow_right Nat.two_pos hl.wide
  have hp : 2 ^ f.p = 2 ^ (f.p - 1) * 2 := (Nat.two_pow_pred_mul_two (Nat.lt_of_lt_of_le Nat.two_pos hl.prec)).symm
  have hmant : b % 2 ^ (f.p - 1) < 2 ^ (f.p - 1) := Nat.mod_lt _ (Nat.two_pow_pos _)
  have hex : b / 2 ^ (f.p - 1) % 2 ^ f.w < 2 ^ f.w := Nat.mod_lt _ (Nat.two_pow_pos _)
  simp only [decode, hl.kind, true_and, reduceCtorEq, false_and, if_false] at hn ⊢
  generalize b % 2 ^ (f.p - 1) = mant at *
  generalize b / 2 ^ (f.p - 1) % 2 ^ f.w = ex at *
  generalize decide (b / 2 ^ (f.bits - 1) % 2 = 1) = neg at *
  by_cases hinf : ex = 2 ^ f.w - 1
  case pos => -- an infinity or a NaN
    rw [if_pos hinf] at hn ⊢
    by_cases hz : mant = 0
    · subst hinf hz
      exact hparts
    · exact absurd (if_neg hz) hn
  case neg =>
    rw [if_neg hinf]
    by_cases hsub : ex = 0
    · -- a zero or a subnormal
      subst hsub
      rw [if_pos rfl, toBits_of_holds neg hl ⟨by omega, Int.le_refl _, by omega, .inr rfl⟩, encode, if_pos hmant]
      omega
    · -- a normal number
      rw [if_neg hsub, toBits_of_holds neg hl ⟨by omega, by omega, by omega, .inl (by omega)⟩, if_neg (by omega), encode,
        if_neg (by omega)]
      rw [show (f.emin + ((ex - 1 : Nat) : Int) - f.emin + 1).toNat = ex by omega, Nat.add_sub_cancel]
      exact hparts

end FFmt

/-- Settles O14: the value of a code lies in the format, so that no rounding changes it, and its sign, exponent and significand are the three
parts of the code. -/
theorem floatCodesRoundTrip : Obligations.FloatCodesRoundTrip := by
  unfold Obligations.FloatCodesRoundTrip
  intro f hf b hb
  have hl : f.Laid := by
    simp only [List.mem_cons, List.not_mem_nil, or_false] at hf
    rcases hf with rfl | rfl | rfl <;> exact ⟨rfl, by decide, by decide⟩
  exact ⟨FFmt.toBits_decode hl hb, fun h => by rw [h]; rfl⟩

end Sys2Proof
end

section
/-!
LEMMAS about what stands through the record and the containment of an error: the registers that it does not write, and a stopped engine.
-/
namespace Sys2Proof
namespace Machine

/-! ### What stands through a containment (R463 to R474)

An error that is contained changes the counts, the capacity and the states of units that leave service, and stops the engines of sites. -/

/-- The registers that recording and containing an error writes, without those of the engines that it stops. -/
def containRegs : List RegName :=
  recordRegs ++ [.ERR_GEN, .ERR_HEALTH, .GLB_CAPACITY, .GLB_CAP_GEN, .GLB_DIE_STATE, .CLU_STATE, .FEC_CTRL, .HBM_STATE, .HBM_LC_STATE,
    .HST_PORT, .WOR_STATUS, .WOR_P_STATE, .WOR_GEN, .RAD_Q_LINK, .TIM_TOLL_CTRL, .TIM_TOLL_STAT]

/-- A property of the registers that writes of the registers of a containment leave, and that the stop of a site leaves. -/
structure Stands (P : Tab FKey Nat → Prop) : Prop where
  put : ∀ (r : Tab FKey Nat) (k : FKey) (v : Nat), k.reg ∈ containRegs → P r → P (r.put k v)
  stop : ∀ (s : State) (k : Nat), P s.regs → P (s.stopSite k).regs

namespace Stands

variable {P : Tab FKey Nat → Prop} {s : State}

theorem wr (hP : Stands P) (h : P s.regs) (f : Fld) (v u i : Nat) (hf : f.reg ∈ containRegs := by decide) : P (s.wr f v u i).regs :=
  hP.put _ _ _ hf h

theorem ite {c : Prop} [Decidable c] {t : State} (hs : P s.regs) (ht : P t.regs) : P (if c then s else t).regs := by
  split
  · exact hs
  · exact ht

theorem foldl {α : Type} {step : State → α → State} (hstep : ∀ t x, P t.regs → P (step t x).regs) (l : List α) (h : P s.regs) :
    P (l.foldl step s).regs :=
  List.foldlRecOn (motive := fun t : State => P t.regs) l step h fun t ht x _ => hstep t x ht

/-! #### Records and counts -/

theorem event (hP : Stands P) (h : P s.regs) (f en : Fld) (v : Nat) (hf : f.reg ∈ containRegs := by decide) : P (s.event f en v).regs := by
  have hset : P (s.set1 f).regs := hP.wr h f 1 0 0 hf
  exact ite hset (ite (s := { s.set1 f with host := { (s.set1 f).host with sent := (s.set1 f).host.sent ++ [(0, v)] } }) hset hset)

theorem writeRecord (hP : Stands P) (h : P s.regs) (die : Nat) (r : ErrRecord) : P (s.writeRecord die r).regs := by
  unfold State.writeRecord State.eventError
  extract_lets slot lost e s1 s2 s3 f s4 s5
  have h2 : P s2.regs := hP.wr (s := s1) h _ _ _ _
  have h3 : P s3.regs := ite (hP.wr h2 _ _ _ _) h2
  have h4 : P s4.regs := hP.wr h3 _ _ _ _ (by unfold f; split <;> decide)
  have h5 : P s5.regs := ite (hP.wr h4 _ _ _ _) h4
  exact hP.event h5 _ _ _

theorem setSite (hP : Stands P) (h : P s.regs) (k : Nat) (r : SiteRec) : P (s.setSite k r).regs := by
  unfold State.setSite
  extract_lets e s'
  exact ite (s := s') h (hP.wr (s := s') h _ _ _ _)

theorem refreshHealth (hP : Stands P) (h : P s.regs) : P s.refreshHealth.regs := by
  unfold State.refreshHealth
  extract_lets _ _ _ t1 t2 t3 t4 same
  have h4 : P t4.regs := by
    iterate 7 refine hP.wr ?_ _ _ _ _
    exact h
  exact ite h4 (hP.wr h4 _ _ _ _)

theorem refreshCapacity (hP : Stands P) (h : P s.regs) (before : State) : P (s.refreshCapacity before).regs := by
  unfold State.refreshCapacity
  extract_lets t1 t2 t3 t4 t5 t6 same dies t7
  have h6 : P t6.regs := by
    iterate 6 refine hP.wr ?_ _ _ _ _
    exact h
  exact hP.refreshHealth (ite h6 (hP.wr h6 _ _ _ _))

/-! #### Units that leave service -/

theorem containSites (hP : Stands P) (h : P s.regs) (sites : List Nat) : P (s.containSites sites).regs := by
  refine foldl (s := s.killSites sites.contains) (fun t k ht => ?_) sites h
  have hstop := hP.stop t k ht
  dsimp only
  split
  iterate 3 exact hP.setSite hstop _ _
  exact hstop

theorem refreshDirty (hP : Stands P) (h : P s.regs) : P s.refreshDirty.regs :=
  foldl (fun _ _ ht => hP.wr ht _ _ _ _) _ h

theorem dropStackLines (hP : Stands P) (h : P s.regs) (k : Nat) : P (s.dropStackLines k).regs := by
  unfold State.dropStackLines
  extract_lets mine fill m t
  exact hP.refreshDirty (s := t) h

theorem dropCache (hP : Stands P) (h : P s.regs) (d : Nat) : P (s.dropCache d).regs := by
  unfold State.dropCache
  extract_lets m t
  exact hP.refreshDirty (s := t) h

theorem hostPortOut (hP : Stands P) (h : P s.regs) (p : Nat) : P (s.hostPortOut p).regs := by
  unfold State.hostPortOut
  extract_lets s1 s2
  have h1 : P s1.regs := hP.wr h _ _ _ _ (by split <;> decide)
  exact ite (t := { s2 with host := { s2.host with down := some (s2.host.down.getD s2.elapsed) } }) h1
    (hP.wr (hP.wr h1 _ _ _ _) _ _ _ _)

theorem newIncarnation (hP : Stands P) (h : P s.regs) : P s.newIncarnation.regs := hP.wr h _ _ _ _

theorem rerouteAll (hP : Stands P) (h : P s.regs) : P s.rerouteAll.regs := by
  unfold State.rerouteAll
  extract_lets up ds s1 w t
  have h1 : P t.regs := hP.wr h _ _ _ _
  exact ite h1 (hP.wr h1 _ _ _ _)

theorem worDown (hP : Stands P) (h : P s.regs) (q st : Nat) : P (s.worDown q st).regs := by
  unfold State.worDown
  extract_lets s1 w t
  exact hP.rerouteAll (s := t) (hP.wr h _ _ _ _)

theorem endPulses (hP : Stands P) (h : P s.regs) : P s.endPulses.regs := by
  refine foldl (fun t e ht => ?_) _ h
  dsimp only
  split
  · exact ht
  · split
    · exact ht
    · exact hP.wr (hP.wr ht _ _ _ _) _ _ _ _

end Stands

theorem passFence_regs (s : State) (n k : Nat) : (s.passFence n k).regs = s.regs := by
  unfold State.passFence
  split
  · rfl
  · dsimp only
    split <;> rfl

theorem squashOn_regs (s : State) (site stack : Nat → Bool) : (s.squashOn site stack).regs = s.regs := passFence_regs ..

namespace Stands

variable {P : Tab FKey Nat → Prop} {s : State}

/-- The units of a die leave service with it. -/
theorem dieUnits (hP : Stands P) (h : P s.regs) (k : Nat) :
    P ((((((s.wr R.CLU_STATE.IN_SERVICE 0 k).wr R.FEC_CTRL.IN_SERVICE 0 k).wr R.HBM_STATE.IN_SERVICE 0 k).wr R.RAD_Q_LINK.STATE 0 k).worDown
      k 0)).regs := by
  refine hP.worDown ?_ _ _
  iterate 4 refine hP.wr ?_ _ _ _ _
  exact h

theorem contain (hP : Stands P) (h : P s.regs) (u : RecUnit) (site : Option Nat) : P (s.contain u site).regs := by
  unfold State.contain
  extract_lets s1
  have h1 : P s1.regs := by unfold s1; rwa [squashOn_regs]
  clear_value s1
  have hout (e : ErrSt) : P ({ s1 with err := e } : State).regs := h1
  cases u with
  | row r =>
    cases site with
    | none => exact h1
    | some k =>
      have hstop := hP.stop s1 k h1
      exact hP.refreshHealth (ite (s := (s1.stopSite k).killSites fun a => a = k) hstop
        (hP.setSite (s := (s1.stopSite k).killSites fun a => a = k) hstop _ _))
  | package => exact h1
  | quadrant q =>
    exact hP.refreshCapacity (hP.containSites (hout _) _) _
  | cluster c =>
    exact hP.refreshCapacity (hP.wr (hP.wr (hP.wr (hP.containSites (hout _) _) _ _ _ _) _ _ _ _) _ _ _ _) _
  | stack k =>
    exact hP.refreshCapacity (hP.wr (hP.wr (hP.dropStackLines (hout _) _) _ _ _ _) _ _ _ _) _
  | fec c => exact hP.refreshCapacity (hP.wr (hP.wr (hout _) _ _ _ _) _ _ _ _) _
  | quad q =>
    exact hP.refreshCapacity (hP.wr (hP.worDown (hP.wr (hout _) _ _ _ _) _ _) _ _ _ _) _
  | die d =>
    refine hP.refreshCapacity (hP.wr ?_ _ _ _ _) _
    dsimp only
    have h2 := hP.containSites (hout { s1.err with out := .die d :: s1.err.out })
      ((List.range 144).map fun k => d * 144 + k)
    have hdie := hP.wr h2 (R.GLB_DIE_STATE.DIE d) 2 0 0 (show .GLB_DIE_STATE ∈ containRegs by decide)
    have hlc := hP.wr hdie R.HBM_LC_STATE.IN_SERVICE 0 d 0
    have h3 := hP.dropCache (hP.dropStackLines (hP.dropStackLines hlc (2 * d)) (2 * d + 1)) d
    have h4 := ite (c := d = 0) (hP.hostPortOut h3 0) (ite (c := d = 7) (hP.hostPortOut h3 1) h3)
    have h5 := foldl (fun _ k ht => hP.dieUnits ht k) [2 * d, 2 * d + 1] (hP.newIncarnation h4)
    exact ite (hP.endPulses h5) h5

theorem escalate (hP : Stands P) (h : P s.regs) (v : RecUnit) : P (s.escalate v).regs := by
  refine ite ?_ (hP.contain h _ _)
  unfold State.loseChief
  split <;> exact h

/-- Detecting an error records it, and contains the unit that it or an escalation names. -/
theorem detect (hP : Stands P) (h : P s.regs) (i : ErrInfo) : P (s.detect i).1.regs := by
  unfold State.detect
  extract_lets seq base
  have hq (e : ErrSt) : P ({ s with err := e } : State).regs := h
  split
  · split
    · exact hP.writeRecord (hP.escalate (hq _) _) _ _
    · split
      · exact hP.writeRecord (hP.contain (hq _) _ _) _ _
      · exact hP.writeRecord (hP.contain (hq _) _ _) _ _
  · exact hP.writeRecord h _ _

theorem failWith (hP : Stands P) (h : P s.regs) (i : ErrInfo) : P (s.failWith i).regs := by
  rw [failWith_frame]
  exact hP.detect h i

end Stands

/-! #### The flags of an engine -/

/-- The registers of the engines that the stop of a site writes. -/
def engineRegs : List RegName := [.VEC_STATE, .SIG_STATE, .STR_STATE]

theorem find_filter_of_kept {ν : Type} (p : FKey → Bool) {k : FKey} (hk : p k = true) (t : Tab FKey ν) :
    Tab.find (t.filter fun e => p e.1) k = t.find k := by
  induction t with
  | nil => rfl
  | cons e r ih =>
    obtain ⟨q, v⟩ := e
    by_cases hq : p q
    · simp only [List.filter_cons, hq, if_true, Tab.find, ih]
    · have hne : q ≠ k := fun h => hq (h ▸ hk)
      simpa [List.filter_cons, hq, Tab.find, hne] using ih

/-- The end of a site's stalls, the first thing in its stop, leaves every register but STR_STATE. -/
theorem rd_filter_strState (s : State) (k : Nat) {g : Fld} (u i : Nat) (h : g.reg ≠ .STR_STATE) :
    ({ s with regs := s.regs.filter fun e => !(e.1.reg = .STR_STATE && e.1.unit = k) } : State).rd g u i = s.rd g u i := by
  simp only [State.rd, Tab.findD]
  rw [find_filter_of_kept (fun q : FKey => !(q.reg = .STR_STATE && q.unit = k)) (by simp [h])]

theorem rd_stopSite_of_notMem (s : State) (k : Nat) {g : Fld} (u i : Nat) (h : g.reg ∉ engineRegs) :
    (s.stopSite k).rd g u i = s.rd g u i := by
  simp only [engineRegs, List.mem_cons, List.not_mem_nil, or_false, not_or] at h
  obtain ⟨hvec, hsig, hstr⟩ := h
  unfold State.stopSite
  extract_lets t1 t2 stop
  have hstop (t : State) (e : Nat) : (stop t e).rd g u i = t.rd g u i := by
    unfold stop
    rw [rd_wr_of_reg_ne _ _ _ _ _ _ (Ne.symm hsig), rd_wr_of_reg_ne _ _ _ _ _ _ (Ne.symm hsig)]
  rw [hstop, hstop]
  unfold t2
  rw [rd_wr_of_reg_ne _ _ _ _ _ _ (Ne.symm hvec), rd_wr_of_reg_ne _ _ _ _ _ _ (Ne.symm hvec), rd_filter_strState s k u i hstr]

/-- The stop of a site stops its vector engine and starts none. -/
theorem rd_stopSite_stopped (s : State) (k a : Nat) :
    (s.stopSite k).rd R.VEC_STATE.STOPPED a = if k = a then 1 else s.rd R.VEC_STATE.STOPPED a := by
  unfold State.stopSite
  extract_lets t1 t2 stop
  have hstop (t : State) (e : Nat) : (stop t e).rd R.VEC_STATE.STOPPED a = t.rd R.VEC_STATE.STOPPED a := by
    unfold stop
    rw [rd_wr_of_reg_ne _ _ _ _ _ _ (by decide), rd_wr_of_reg_ne _ _ _ _ _ _ (by decide)]
  rw [hstop, hstop]
  unfold t2
  rw [rd_wr_ne _ _ _ _ _ _ _ _ (by simp [R.VEC_STATE.BUSY, R.VEC_STATE.STOPPED])]
  split
  case isTrue h => rw [h, rd_wr_self]; rfl
  case isFalse h =>
    rw [rd_wr_ne _ _ _ _ _ _ _ _ (by simp [h])]
    exact rd_filter_strState s k a 0 (by decide)

/-- A field of a register that no containment writes. -/
theorem stands_rd {g : Fld} (hc : g.reg ∉ containRegs) (he : g.reg ∉ engineRegs) (u i c : Nat) :
    Stands fun r => r.findD ⟨g.reg, g.lo, u, i⟩ (g.resetAt u i) = c where
  put r k v hk h := by
    rw [Tab.findD_put_ne _ _ _ fun e => hc (by rw [e] at hk; exact hk), h]
  stop s k h := (rd_stopSite_of_notMem s k u i he).trans h

/-- A stopped vector engine. -/
theorem stands_stopped (a : Nat) :
    Stands fun r => r.findD ⟨R.VEC_STATE.STOPPED.reg, R.VEC_STATE.STOPPED.lo, a, 0⟩ (R.VEC_STATE.STOPPED.resetAt a 0) = 1 where
  put r k v hk h := by
    rw [Tab.findD_put_ne _ _ _ fun e => (by decide : RegName.VEC_STATE ∉ containRegs) (by rw [e] at hk; exact hk), h]
  stop s k h := by
    refine (rd_stopSite_stopped s k a).trans ?_
    split
    · rfl
    · exact h

theorem rd_failWith_of_notMem (s : State) (i : ErrInfo) {g : Fld} (u j : Nat) (hc : g.reg ∉ containRegs) (he : g.reg ∉ engineRegs) :
    (s.failWith i).rd g u j = s.rd g u j :=
  (stands_rd hc he u j (s.rd g u j)).failWith (s := s) rfl i

/-- An error of an item starts no vector engine. -/
theorem rd_failWith_stopped {s : State} (i : ErrInfo) {a : Nat} (h : s.rd R.VEC_STATE.STOPPED a = 1) :
    (s.failWith i).rd R.VEC_STATE.STOPPED a = 1 :=
  (stands_stopped a).failWith (s := s) h i

end Machine
end Sys2Proof
end

section
/-!
PROOF of the statement of chapters 3 and 4 about a combining stage that takes a node (O15).
-/
namespace Sys2Proof

/-- The node that the south edge of a field's column gives. -/
def FieldResult.waitNode (r : FieldResult) : WaitNode :=
  { reduction := 0, row := r.row, col := r.col, granule := r.tag.granule, level := r.level, node := r.node, tag := r.tag, item := r.item }

namespace Machine

/-! ### What a combining stage does with a node -/

/-- The split plan by which the stage of a site takes a node (R107, R127). -/
def State.planFor (s : State) (site : Nat) (v : WaitNode) : Option SplitPlan :=
  (s.combOf site).plans.find? fun p => p.stream = v.tag.stream && p.nodes.contains (v.granule, v.level)

/-- The node that a node of a plan becomes by the joins its arrival allows, whether that is the stage's root, and what still waits. -/
def State.joins (s : State) (site : Nat) (p : SplitPlan) (v : WaitNode) : WaitNode × Bool × List WaitNode :=
  combine ((OpFormat.ofCode (s.rd R.COR_NUMCFG.FORMAT site)).getD .int8).exact p (p.rootLevel + 1) { v with reduction := p.reduction }
    (s.combOf site).waiting

/-- A step of the combining stage of one site: registers may change, and no other stage does. -/
structure StageStep (site : Nat) (s t : State) : Prop where
  frame : t = { s with regs := t.regs, comb := t.comb }
  other : ∀ b, b ≠ site → t.combOf b = s.combOf b

theorem StageStep.trans {site : Nat} {s t u : State} (h : StageStep site s t) (k : StageStep site t u) : StageStep site s u where
  frame := by rw [k.frame, h.frame]
  other b hb := (k.other b hb).trans (h.other b hb)

theorem StageStep.fields {site : Nat} {s t : State} (h : StageStep site s t) : t.fields = s.fields := by rw [h.frame]

theorem combOf_congr {s t : State} (h : t.comb = s.comb) (k : Nat) : t.combOf k = s.combOf k := by simp only [State.combOf, h]

theorem stageStep_wr (s : State) (f : Fld) (v u i site : Nat) : StageStep site s (s.wr f v u i) := ⟨rfl, fun _ _ => rfl⟩

@[simp] theorem setComb_combOf (s : State) (k : Nat) (c : CombSt) : (s.setComb k c).combOf k = c := by
  rw [setComb_frame]; simp [State.combOf]

theorem stageStep_setComb (s : State) (k : Nat) (c : CombSt) : StageStep k s (s.setComb k c) where
  frame := setComb_frame s k c
  other b hb := by
    rw [setComb_frame]
    exact Tab.findD_put_ne _ _ _ (Ne.symm hb)

theorem rd_setComb_of_reg_ne (s : State) (k : Nat) (c : CombSt) {f : Fld} (u i : Nat) (h : .VEC_STATE ≠ f.reg) :
    (s.setComb k c).rd f u i = s.rd f u i := rd_wr_of_reg_ne _ _ _ _ _ _ h

/-! #### The conversion stage -/

/-- A root that departed from the canonical tree may count in ORDER (R267), which leaves every stage. -/
theorem convertOut_step (s : State) (site : Nat) (p : SplitPlan) (v : WaitNode) : StageStep site s (s.convertOut site p v) := by
  unfold State.convertOut
  extract_lets mode out u code c t
  have h : StageStep site s t := stageStep_setComb s site _
  split
  · exact h.trans (stageStep_wr ..)
  · exact h

/-- The conversion stage writes the root in the output format, after what it wrote before (R115 to R118). -/
theorem convertOut_combOf (s : State) (site : Nat) {p : SplitPlan} (v : WaitNode) (h : p.vector = none) :
    (s.convertOut site p v).combOf site = { s.combOf site with
      out := (s.combOf site).out ++ [(v.tag,
        convertRoot (OutFormat.ofCode (s.rd R.COR_NUMCFG.OUT_FMT site)) (RoundMode.ofCode (s.rd R.COR_NUMCFG.ROUND site))
          (s.flag R.COR_NUMCFG.SAT site) (ditherU (s.rd R.COR_SR_SEED.SEED site) p.tensor v.row v.col) v.node,
        v.row, v.col, (OutFormat.ofCode (s.rd R.COR_NUMCFG.OUT_FMT site)).width)] } := by
  unfold State.convertOut
  rw [h]
  extract_lets mode out u code c t
  have ht : t.combOf site = { c with out := c.out ++ [(v.tag, code.1, v.row, v.col, code.2)] } := setComb_combOf ..
  split <;> exact ht

/-! #### The root of a stage -/

theorem stageRoot_step (s : State) (site : Nat) (p : SplitPlan) (v : WaitNode) : StageStep site s (s.stageRoot site p v) := by
  unfold State.stageRoot
  extract_lets c tag v' slices order root roots t sum
  split
  · exact stageStep_setComb ..
  split
  · exact convertOut_step ..
  split
  · exact (stageStep_setComb ..).trans (convertOut_step ..)
  · exact stageStep_setComb ..

theorem stageRoot_converts (s : State) (site : Nat) {p : SplitPlan} (v : WaitNode) (hf : p.final = true) (hs : p.slice = none) :
    s.stageRoot site p v = s.convertOut site p
      { v with granule := p.rootGranule, level := p.rootLevel, tag := { v.tag with granule := p.rootGranule } } := by
  unfold State.stageRoot
  simp only [hf, hs, Bool.not_true, Bool.false_eq_true, if_false]

theorem stageStep_rootOrWait {s : State} {site : Nat} {p : SplitPlan} {v : WaitNode} {a b : CombSt} {done : Prop} [Decidable done] :
    StageStep site s (if done then (s.setComb site a).stageRoot site p v else s.setComb site b) := by
  split
  · exact (stageStep_setComb ..).trans (stageRoot_step ..)
  · exact stageStep_setComb ..

/-! #### A node that arrives -/

section
variable {s : State} {site : Nat} {v w : WaitNode} {p : SplitPlan}

/-- A node of no plan is an error of the image (R127). -/
theorem takeNode_unplanned (h : s.planFor site v = none) :
    ∃ i, i.cls = .program ∧ i.item = v.item ∧ s.takeNode site v = (s.set1 R.VEC_ERR.COMB_PLAN site).failWith i := by
  refine ⟨{ s.atSite .program 3 site 2 v.item with recUnit := none, owner := some v.tag.owner }, rfl, rfl, ?_⟩
  unfold State.takeNode
  extract_lets c
  rw [show c.plans.find? _ = none from h]
  rfl

theorem takeNode_joins (h : s.planFor site v = some p) (hu : p.unaligned = false) (ha : s.flag R.COR_NUMCFG.ARRIVAL site = false) :
    s.takeNode site v = if (s.joins site p v).2.1
      then (s.setComb site { s.combOf site with waiting := (s.joins site p v).2.2 }).stageRoot site p (s.joins site p v).1
      else s.setComb site { s.combOf site with waiting := (s.joins site p v).2.2 ++ [(s.joins site p v).1] } := by
  unfold State.takeNode
  extract_lets c
  rw [show c.plans.find? _ = some p from h]
  dsimp only
  rw [if_neg (by simp [hu, ha])]
  rfl

/-- In arrival order the first node of an element begins its sum (R108, R109). -/
theorem takeNode_begins (h : s.planFor site v = some p) (ha : p.unaligned = true ∨ s.flag R.COR_NUMCFG.ARRIVAL site = true)
    (hnew : ∀ x ∈ (s.combOf site).arrival, x.1.sameElement { v with reduction := p.reduction } = false) (hn : p.nodes.length ≠ 1) :
    s.takeNode site v =
      s.setComb site { s.combOf site with arrival := (s.combOf site).arrival ++ [({ v with reduction := p.reduction }, 1)] } := by
  have hfind : (s.combOf site).arrival.find? (fun x => x.1.sameElement { v with reduction := p.reduction }) = none :=
    List.find?_eq_none.mpr fun x hx => by simp [hnew x hx]
  have hrest : (s.combOf site).arrival.filter (fun x => !x.1.sameElement { v with reduction := p.reduction }) = (s.combOf site).arrival :=
    List.filter_eq_self.mpr fun x hx => by simp [hnew x hx]
  unfold State.takeNode
  extract_lets c
  rw [show c.plans.find? _ = some p from h]
  dsimp only
  rw [if_pos ha.symm, hfind, hrest]
  exact if_neg (Ne.symm hn)

/-- A stage that takes a node by a plan changes nothing but itself. -/
theorem takeNode_step (h : s.planFor site v = some p) : StageStep site s (s.takeNode site v) := by
  unfold State.takeNode
  extract_lets c
  rw [show c.plans.find? _ = some p from h]
  dsimp only
  split
  · exact stageStep_rootOrWait
  · exact stageStep_rootOrWait

/-- An item that an error names is marked as Failed (R465). -/
theorem failItem_failed_isSome (s : State) (it : ItemRef) (q : Nat) : ((s.failItem (some it) q).failed.find it).isSome := by
  simp only [State.failItem]
  split <;> simp

theorem failWith_program_comb (s : State) {i : ErrInfo} (h : i.cls = .program) : (s.failWith i).comb = s.comb := by
  rw [failWith_frame, detect_frame s i (.inr (.inr (by rw [h]; rfl)))]

theorem failWith_program_fields (s : State) {i : ErrInfo} (h : i.cls = .program) : (s.failWith i).fields = s.fields := by
  rw [failWith_frame]
  exact detect_program_fields s h

/-- Whatever its plan, a node that arrives changes no field and no other stage. -/
theorem takeNode_leaves (s : State) (site : Nat) (v : WaitNode) :
    (s.takeNode site v).fields = s.fields ∧ ∀ b, b ≠ site → (s.takeNode site v).combOf b = s.combOf b := by
  cases h : s.planFor site v with
  | some p => exact ⟨(takeNode_step h).fields, (takeNode_step h).other⟩
  | none =>
    obtain ⟨i, hi, -, e⟩ := takeNode_unplanned h
    rw [e]
    exact ⟨failWith_program_fields _ hi, fun b _ => combOf_congr (failWith_program_comb _ hi) b⟩

end

/-! #### The command -/

/-- Whether the stage of a site takes a node: it runs and its area has room (R126). -/
def State.hasRoom (s : State) (a : Nat) : Prop := s.combRuns a = true ∧ s.rd R.VEC_STATE.COMB_USED a < s.rd R.VEC_COMB_CFG.SIZE a

section
variable {s u : State} {a : Site} {src : NodeSrc} {v : WaitNode}

theorem exec_combiningNodeArrive_idle (ecc : Ecc)
    (h : s.combRuns a = false ∨ s.rd R.VEC_COMB_CFG.SIZE a ≤ s.rd R.VEC_STATE.COMB_USED a ∨ s.sourceNode a src = none) :
    exec (.combiningNodeArrive a src ecc) s = .next s := by
  show execCombiningNodeArrive a src ecc s = .next s
  unfold execCombiningNodeArrive
  split
  · rfl
  case isFalse hrun =>
    rw [not_or, Bool.not_eq_true', Bool.not_eq_false] at hrun
    rcases h with h | h | h
    · exact absurd h (by simp [hrun.1])
    · exact absurd h hrun.2
    · rw [h]

theorem exec_combiningNodeArrive (ecc : Ecc) (hr : s.hasRoom a) (hs : s.sourceNode a src = some (v, u)) :
    exec (.combiningNodeArrive a src ecc) s = vecRun { site := a, dst := { loc := .reg 0 }, ecc := ecc, item := v.item } [] s fun t =>
      ((t.sourceNode a src).elim u fun x => x.2).takeNode a v := by
  show execCombiningNodeArrive a src ecc s = _
  unfold execCombiningNodeArrive
  rw [if_neg (by simp [hr.1, hr.2]), hs]

theorem exec_combiningNodeArrive_clean (hr : s.hasRoom a) (hs : s.sourceNode a src = some (v, u)) :
    exec (.combiningNodeArrive a src .clean) s = .next (u.takeNode a v) := by
  rw [exec_combiningNodeArrive .clean hr hs]
  show Host.Outcome.next (((s.sourceNode a src).elim u fun x => x.2).takeNode a v) = _
  rw [hs]
  rfl

/-- A word that reads clean or corrected lets the stage take the node; a correction is counted (R141). -/
theorem exec_combiningNodeArrive_readable {ecc : Ecc} (he : ecc ≠ .uncorrectable) (hr : s.hasRoom a)
    (hs : s.sourceNode a src = some (v, u)) :
    ∃ t : State, t.comb = s.comb ∧ t.fields = s.fields ∧
      exec (.combiningNodeArrive a src ecc) s = .next (((t.sourceNode a src).elim u fun x => x.2).takeNode a v) := by
  rw [exec_combiningNodeArrive ecc hr hs]
  cases ecc with
  | clean => exact ⟨s, rfl, rfl, rfl⟩
  | corrected => exact ⟨(s.bump R.VEC_ECC_CORR.COUNT a).countCe a, rfl, rfl, rfl⟩
  | uncorrectable => exact absurd rfl he

/-- An uncorrectable word of the area sets its flag and stops the engine, and its error is contained (R141). -/
theorem exec_combiningNodeArrive_uncorrectable (hr : s.hasRoom a) (hs : s.sourceNode a src = some (v, u)) :
    ∃ i, exec (.combiningNodeArrive a src .uncorrectable) s =
      .next (((s.set1 R.VEC_ERR.ECC_UNCORR a).wr R.VEC_STATE.STOPPED 1 a).failWith i) :=
  ⟨_, exec_combiningNodeArrive .uncorrectable hr hs⟩

theorem sourceNode_stage {t : State} (a : Nat) {k : Site} {rest : List WaitNode} (h : (t.combOf k).forward = v :: rest) :
    t.sourceNode a (.stage k) = some (v, t.setComb k { t.combOf k with forward := rest }) := by
  simp only [State.sourceNode, h]

theorem sourceNode_field {t : State} (a : Nat) {b : Site} {col : Fin 512} {f : FieldSt} {r : FieldResult} {rest : List FieldResult}
    (hf : t.fields.find b.val = some f) (h : f.out.findD col.val [] = r :: rest) :
    t.sourceNode a (.field b col) = some (r.waitNode, t.setField b { f with out := f.out.put col.val rest }) := by
  simp only [State.sourceNode, hf, h, FieldResult.waitNode]

end

/-- Settles O15: a stage that takes a node by its plan changes itself alone, a node of no plan is an error of level 0, and no containment
clears the flag of an uncorrectable word or starts an engine that it has stopped. -/
theorem combiningNodesArrive : Obligations.CombiningNodesArrive := by
  unfold Obligations.CombiningNodesArrive
  intro room planOf joined others
  refine ⟨fun a src ecc s h => exec_combiningNodeArrive_idle ecc h, ?stage, ?field, ?unplanned, ?waits, ?begins, ?root, ?uncorrectable⟩
  case stage =>
    intro a k ecc s v rest hr he hne hfwd
    obtain ⟨t, hcomb, -, e⟩ := exec_combiningNodeArrive_readable he hr (sourceNode_stage a hfwd)
    have hk := combOf_congr hcomb k
    refine ⟨_, e, ?_⟩
    rw [sourceNode_stage a (hk ▸ hfwd), (takeNode_leaves _ _ _).2 k fun h => hne (Fin.ext h.symm)]
    simp
  case field =>
    intro a b col ecc s f r rest hr he hf hout
    obtain ⟨t, -, hfields, e⟩ := exec_combiningNodeArrive_readable he hr (sourceNode_field a hf hout)
    refine ⟨_, { f with out := f.out.put col.val rest }, e, ?_, Tab.findD_put_self ..⟩
    rw [sourceNode_field a (hfields ▸ hf) hout, (takeNode_leaves _ _ _).1]
    exact setField_find ..
  case unplanned =>
    intro a src s u v hr hs hp
    obtain ⟨i, hi, hitem, e⟩ := takeNode_unplanned hp
    refine ⟨_, exec_combiningNodeArrive_clean hr hs, ?_⟩
    rw [e]
    refine ⟨?_, failWith_program_comb _ hi, failWith_program_fields _ hi, fun it hit => ?_⟩
    · rw [flag_eq, rd_failWith_of_notMem _ _ _ _ (by decide) (by decide), set1_eq, rd_wr_self]
      rfl
    · unfold State.failWith
      rw [hitem, hit]
      exact failItem_failed_isSome ..
  case waits =>
    intro a src s u v w wait p hr hs hp hu ha hj
    have hj : u.joins a p v = (w, false, wait) := hj
    have e := takeNode_joins hp hu ha
    rw [hj] at e
    have hstep := takeNode_step hp
    exact ⟨_, exec_combiningNodeArrive_clean hr hs, e ▸ setComb_combOf .., hstep.frame, hstep.other⟩
  case begins =>
    intro a src s u v p hr hs hp ha hnew hn
    have e := takeNode_begins hp ha hnew hn
    have hstep := takeNode_step hp
    exact ⟨_, exec_combiningNodeArrive_clean hr hs, e ▸ setComb_combOf .., hstep.frame, hstep.other⟩
  case root =>
    intro a src s u v w wait p hr hs hp hu ha hj hf hslice hvec form code
    have hj : u.joins a p v = (w, true, wait) := hj
    have e := takeNode_joins hp hu ha
    rw [hj] at e
    have hstep := takeNode_step hp
    refine ⟨_, exec_combiningNodeArrive_clean hr hs, ?_, hstep.frame, hstep.other⟩
    rw [e, if_pos rfl, stageRoot_converts _ _ _ hf hslice, convertOut_combOf _ _ _ hvec]
    simp (disch := decide) only [setComb_combOf, flag_eq, rd_setComb_of_reg_ne]
    rfl
  case uncorrectable =>
    intro a src s u v hr hs
    obtain ⟨i, e⟩ := exec_combiningNodeArrive_uncorrectable hr hs
    refine ⟨_, e, ?_, ?_⟩
    · rw [flag_eq, rd_failWith_of_notMem _ _ _ _ (by decide) (by decide), rd_wr_of_reg_ne _ _ _ _ _ _ (by decide), set1_eq, rd_wr_self]
      rfl
    · rw [flag_eq, rd_failWith_stopped i (rd_wr_self ..)]
      rfl

end Machine
end Sys2Proof
end

section
/-!
PROOF of the statement of chapter 5 about flits that are sent, forwarded and read (O25), after the rules of router buffers, wait flags
and credits that it rests on.
-/
namespace Sys2Proof

/-! ### Tables and routers -/

/-- A lookup after entries are kept or dropped by their keys. -/
theorem Tab.find_keep {κ ν : Type} [DecidableEq κ] (p : κ → Bool) (t : Tab κ ν) (k : κ) :
    (t.keep fun q _ => p q).find k = if p k then t.find k else none := by
  induction t with
  | nil => simp [Tab.keep]
  | cons e r ih =>
    obtain ⟨q, v⟩ := e
    simp only [Tab.keep] at ih ⊢
    by_cases hq : q = k
    · subst hq
      by_cases hp : p q
      · simp [hp, Tab.find]
      · simpa [hp] using ih
    · by_cases hp : p q
      · simpa [hp, Tab.find, hq] using ih
      · simpa [hp, Tab.find, hq] using ih

/-- A link joins two sites: none leads back to the router it leaves. -/
theorem neighbour_ne {k n : Nat} {d : Dir} (h : neighbour k d = some n) : n ≠ k := by
  unfold neighbour Unit.colOf Unit.rowOf at h
  split at h
  case h_5 => cases h
  all_goals
    obtain ⟨hedge, hn⟩ := Option.ite_none_right_eq_some.mp h
    have hn := Option.some.inj hn
    omega

namespace Machine

/-! ### Input buffers of routers -/

@[simp] theorem setBuf_buf (s : State) (k : BufKey) (l : List Entry) : (s.setBuf k l).buf k = l := by
  cases l with
  | nil => simp [State.setBuf, State.buf, Tab.findD]
  | cons e r => simp [State.setBuf, State.buf]

theorem setBuf_other (s : State) {k j : BufKey} (l : List Entry) (h : j ≠ k) : (s.setBuf k l).buf j = s.buf j := by
  cases l with
  | nil => simp [State.setBuf, State.buf, Tab.findD, Tab.find_del, h.symm]
  | cons e r => simp [State.setBuf, State.buf, Tab.findD_put_ne _ _ _ h.symm]

theorem buf_congr {s t : State} (h : t.str.bufs = s.str.bufs) (k : BufKey) : t.buf k = s.buf k := by simp only [State.buf, h]

theorem routerRoom_routed {s : State} {k n : Nat} {x : RouteEnt} (side : Dir) (h : s.str.routes.find (k, n) = some x) :
    s.routerRoom k side n = decide ((s.buf ⟨k, side, 0 < x.res⟩).length < bufDepth) := by
  simp only [State.routerRoom, h]

/-- A flit with a route entry waits in the buffer of its class (R176). -/
theorem routerReceive_routed {s : State} {k : Nat} {e : Entry} {x : RouteEnt} (side : Dir)
    (h : s.str.routes.find (k, e.tag.stream) = some x) :
    s.routerReceive k side e = s.setBuf ⟨k, side, 0 < x.res⟩ (s.buf ⟨k, side, 0 < x.res⟩ ++ [e]) := by
  simp only [State.routerReceive, h]

/-- The candidates of a router wait in its own buffers. -/
theorem candidates_site {s : State} {k : Nat} {d : Dir} {c : BufKey × Entry × RouteEnt} (h : c ∈ s.candidates k d) : c.1.site = k := by
  unfold State.candidates at h
  obtain ⟨b, hb, hc⟩ := List.mem_filterMap.mp h
  have hsite : b.site = k := by
    obtain ⟨sd, -, hb⟩ := List.mem_flatMap.mp hb
    simp only [List.mem_cons, List.not_mem_nil, or_false] at hb
    obtain rfl | rfl := hb <;> rfl
  have hkey : c.1 = b := by
    split at hc
    · split at hc
      · obtain ⟨-, hc⟩ := Option.ite_none_right_eq_some.mp hc
        exact congrArg Prod.fst (Option.some.inj hc).symm
      · cases hc
    · cases hc
  rw [hkey, hsite]

/-! ### The wait flags of ports, and what a port's progress unblocks -/

theorem setOutWait_frame (s : State) (p : PortId) (b : Bool) : s.setOutWait p b = { s with regs := (s.setOutWait p b).regs } := by
  cases p <;> rfl

theorem setInWait_frame (s : State) (p : PortId) (b : Bool) : s.setInWait p b = { s with regs := (s.setInWait p b).regs } := by
  cases p <;> rfl

theorem regsBut_wr (s : State) (f : Fld) (v u i : Nat) : s.regsBut (s.wr f v u i) [f.at_ u i] := fun k hk => by
  rw [find_wr, if_neg]
  exact fun h => hk (h ▸ List.mem_singleton_self _)

/-- The end of a site's stalls changes its contexts, what its clusters owe, and the registers that count that. -/
theorem unblockAt_frame (s : State) (k : Nat) :
    s.unblockAt k = { s with regs := (s.unblockAt k).regs, sched := (s.unblockAt k).sched } := by
  refine List.foldlRecOn (motive := fun t : State => t = { s with regs := t.regs, sched := t.sched }) _ _ rfl fun t ht x _ => ?_
  simp only []
  split
  · split
    · rw [decide_frame, setCtx_frame, ht]
    · rw [setCtx_frame, ht]
  · exact ht

theorem unblockPort_frame (s : State) (p : PortId) :
    s.unblockPort p = { s with regs := (s.unblockPort p).regs, sched := (s.unblockPort p).sched } := by
  unfold State.unblockPort
  split
  · exact unblockAt_frame s _
  · rfl

theorem port_congr {s t : State} (h : t.str = s.str) (p : PortId) : t.port p = s.port p := by simp only [State.port, h]

/-! ### Sending the head of an egress port's FIFO (R166, R177) -/

section Sending
variable {k : Site} {i : Fin 8} {s : State} {v : Port} {e : Entry} {rest : List Entry} {r : StreamRec}

theorem exec_flitSend {p : PortId} (ecc : EntryEcc) (hv : s.port p = some v) (hs : v.stopped = false) :
    exec (.flitSend p none ecc) s = .next (s.sendHead p v ecc) := by
  cases p <;> simp [exec, execFlitSend, hv, hs]

theorem exec_flitSend_new (o : OutFlit) (ecc : EntryEcc) (hv : s.port (.egress k i) = some v) (hs : v.stopped = false) :
    exec (.flitSend (.egress k i) (some o) ecc) s =
      .next ((s.giveFlit k (.egress k i) v o).1.sendHead (.egress k i) (s.giveFlit k (.egress k i) v o).2 ecc) := by
  simp [exec, execFlitSend, hv, hs]

/-- Without a credit the flit stays, and its port waits. -/
theorem sendHead_of_no_credit (ecc : EntryEcc) (hf : v.fifo = e :: rest)
    (hr : s.stream (PortId.egress k i).cluster v.stream = some r) (hp : r.producer = .egress k i) (hc : v.credits = 0) :
    s.sendHead (.egress k i) v ecc = s.wr (R.STR_STATE.OUT_WAIT i) 1 k := by
  simp [State.sendHead, hf, hr, StreamRec.producerSite, hp, PortId.site?, hc, State.setOutWait]

/-- With a credit and room in the router, the flit takes its owner and stream and enters the buffer of its class. -/
theorem sendHead_of_credit {x : RouteEnt} (hf : v.fifo = e :: rest)
    (hr : s.stream (PortId.egress k i).cluster v.stream = some r) (hp : r.producer = .egress k i) (hc : 0 < v.credits)
    (hx : s.str.routes.find (k.val, v.stream) = some x) (hroom : (s.buf ⟨k.val, .localPort, 0 < x.res⟩).length < bufDepth) :
    s.sendHead (.egress k i) v .clean =
      ((s.setPort (.egress k i) { v with fifo := rest, credits := v.credits - 1 }).wr (R.STR_STATE.OUT_WAIT i) 0 k).setBuf
        ⟨k.val, .localPort, 0 < x.res⟩ (s.buf ⟨k.val, .localPort, 0 < x.res⟩ ++
          [{ e with tag := { e.tag with owner := s.rd R.STR_SITE.OWNER k, stream := v.stream } }]) := by
  have hroom' : s.routerRoom k.val .localPort v.stream = true := by
    rw [routerRoom_routed _ hx]
    exact decide_eq_true hroom
  simp only [State.sendHead, hf, hr, StreamRec.producerSite, hp, PortId.site?, ne_eq, not_true_eq_false, if_false,
    Nat.ne_of_gt hc, hroom', if_true, State.checkEntry]
  exact routerReceive_routed (x := x) _ hx

/-- The vector engine of a site gives a flit to its egress port (R171): the flit waits last in the FIFO, and neither streams nor the
port's credits change. -/
theorem giveFlit_adds {p : PortId} {o : OutFlit} (hown : o.own = .good) (hlen : (s.flitWords k o).length ≤ 4)
    (hrun : s.flag R.VEC_STATE.STOPPED k = false) (hroom : v.fifo.length < 2 ^ v.depthLog2)
    (hend : v.ended.contains (o.entry (s.flitWords k o) (s.outInputs k o)).tag.seq = false) :
    ∃ u w, s.giveFlit k p v o = (u, w) ∧ u.port p = some w ∧ u.str.streams = s.str.streams ∧ w.stream = v.stream ∧
      w.credits = v.credits ∧ w.fifo = v.fifo ++ [o.entry (s.flitWords k o) (s.outInputs k o)] := by
  have hguard : ¬ (s.flag R.VEC_STATE.STOPPED k = true ∨ 2 ^ v.depthLog2 ≤ v.fifo.length ∨
      v.ended.contains (o.entry (s.flitWords k o) (s.outInputs k o)).tag.seq = true ∨ 4 < (s.flitWords k o).length) := by
    rw [hrun, hend]
    simp only [Bool.false_eq_true, false_or, not_or, Nat.not_le, Nat.not_lt]
    exact ⟨hroom, hlen⟩
  have hclass : ¬ ((!s.isGlade (s.rd R.STR_SITE.OWNER k)) = true ∧ (o.own = .absent ∨ o.own = .late)) := by simp [hown]
  simp only [State.giveFlit, hclass, if_false, hguard]
  refine ⟨_, _, rfl, setPort_port .., ?_, rfl, rfl, rfl⟩
  split <;> rfl

end Sending

/-! ### The choice among the flits of a link direction (R178) -/

/-- The three choices of R178 in their order: a glade stream below its reservation, any stream below its reservation, round robin. -/
theorem chooseFlit_chooses {s : State} {k : Nat} {d : Dir} {cs : List (BufKey × Entry × RouteEnt)} {c : BufKey × Entry × RouteEnt} {rr : Bool}
    (h : s.chooseFlit k d cs = some (c, rr)) :
    c ∈ cs ∧ (rr = false → s.usedSlots k d c.2.1.tag.stream < c.2.2.res) ∧
      (rr = true → ∀ x ∈ cs, ¬ s.usedSlots k d x.2.1.tag.stream < x.2.2.res) ∧
      ((∃ x ∈ cs, x.2.2.glade = true ∧ s.usedSlots k d x.2.1.tag.stream < x.2.2.res) → c.2.2.glade = true) := by
  simp only [State.chooseFlit] at h
  split at h
  case h_1 g hg =>
    obtain ⟨rfl, rfl⟩ : g = c ∧ false = rr := by simpa using h
    have hgood := List.find?_some hg
    simp only [Bool.and_eq_true, decide_eq_true_eq] at hgood
    exact ⟨List.mem_of_find?_eq_some hg, fun _ => hgood.2, nofun, fun _ => hgood.1⟩
  case h_2 hg =>
    have noGlade : ¬ ∃ x ∈ cs, x.2.2.glade = true ∧ s.usedSlots k d x.2.1.tag.stream < x.2.2.res := by
      rintro ⟨x, hx, hglade, hbelow⟩
      simpa [hglade, hbelow] using List.find?_eq_none.mp hg x hx
    split at h
    case h_1 g hb =>
      obtain ⟨rfl, rfl⟩ : g = c ∧ false = rr := by simpa using h
      have hbelow := List.find?_some hb
      exact ⟨List.mem_of_find?_eq_some hb, fun _ => of_decide_eq_true hbelow, nofun, fun hx => absurd hx noGlade⟩
    case h_2 hb =>
      cases cs with
      | nil => cases h
      | cons x r =>
        obtain ⟨rfl, rfl⟩ := by simpa only [Option.some.injEq, Prod.mk.injEq] using h
        refine ⟨?_, nofun, fun _ x hx => by simpa using List.find?_eq_none.mp hb x hx, fun hx => absurd hx noGlade⟩
        refine List.foldlRecOn (motive := fun c => c ∈ x :: r) r _ (List.mem_cons_self ..) fun b hb y hy => ?_
        split
        · exact List.mem_cons_of_mem _ hy
        · exact hb

/-! ### Forwarding (R176, R178) -/

/-- The chosen flit leaves its buffer, its slot is counted, and the next router receives it. -/
theorem exec_flitForward {k : Site} {d : Dir} {n : Nat} {s : State} {b : BufKey} {e : Entry} {r : RouteEnt} {rr : Bool}
    (hn : neighbour k d = some n)
    (hc : s.chooseFlit k d ((s.candidates k d).filter fun c => s.routerRoom n d.opposite c.2.1.tag.stream) = some ((b, e, r), rr)) :
    ∃ u : State, exec (.flitForward k d .clean) s = .next (u.routerReceive n d.opposite e) ∧
      u = { s with str := { s.str with bufs := (s.setBuf b ((s.buf b).drop 1)).str.bufs, used := u.str.used, rr := u.str.rr } } ∧
      (rr = false → 0 < r.res → u.usedSlots k d e.tag.stream = s.usedSlots k d e.tag.stream + 1) := by
  simp only [exec, execFlitForward, hn, hc, State.checkEntry]
  cases rr with
  | true =>
    simp only [Bool.not_true, Bool.false_eq_true, and_false, if_false, if_true]
    exact ⟨_, rfl, rfl, nofun⟩
  | false =>
    simp only [Bool.not_false, and_true, Bool.false_eq_true, if_false]
    by_cases hres : 0 < r.res
    · simp only [hres, if_true]
      exact ⟨_, rfl, rfl, fun _ _ => Tab.findD_put_self ..⟩
    · simp only [hres, if_false]
      exact ⟨_, rfl, rfl, fun _ => False.elim⟩

/-- A flit that moves on waits last in its buffer of the next router, and no other buffer than those two changes. -/
theorem exec_flitForward_moves {k : Site} {d : Dir} {n : Nat} {s : State} {b : BufKey} {e : Entry} {r : RouteEnt} {rr : Bool}
    (hn : neighbour k d = some n)
    (hc : s.chooseFlit k d ((s.candidates k d).filter fun c => s.routerRoom n d.opposite c.2.1.tag.stream) = some ((b, e, r), rr))
    {x : RouteEnt} (hx : s.str.routes.find (n, e.tag.stream) = some x) :
    ∃ t, exec (.flitForward k d .clean) s = .next t ∧ t = { s with str := t.str } ∧ t.buf b = (s.buf b).drop 1 ∧
      t.buf ⟨n, d.opposite, 0 < x.res⟩ = s.buf ⟨n, d.opposite, 0 < x.res⟩ ++ [e] ∧
      (∀ b', b' ≠ b → b' ≠ ⟨n, d.opposite, 0 < x.res⟩ → t.buf b' = s.buf b') ∧ t.str.ports = s.str.ports ∧
      (rr = false → 0 < r.res → t.usedSlots k d e.tag.stream = s.usedSlots k d e.tag.stream + 1) := by
  obtain ⟨u, hrun, hu, hslot⟩ := exec_flitForward hn hc
  have hmem := (chooseFlit_chooses hc).1
  have hsite : b.site = k := candidates_site (List.mem_filter.mp hmem).1
  have hne : (⟨n, d.opposite, 0 < x.res⟩ : BufKey) ≠ b := fun h => neighbour_ne hn ((congrArg BufKey.site h).trans hsite)
  have hbuf (j : BufKey) : u.buf j = (s.setBuf b ((s.buf b).drop 1)).buf j := buf_congr (by rw [hu]) j
  have hroute : u.str.routes.find (n, e.tag.stream) = some x := by rw [hu]; exact hx
  rw [routerReceive_routed _ hroute, hbuf, setBuf_other _ _ hne] at hrun
  refine ⟨_, hrun, ?_, ?_, setBuf_buf .., fun j hj hj' => ?_, ?_, hslot⟩
  · rw [State.setBuf, hu]
  · rw [setBuf_other _ _ hne.symm, hbuf, setBuf_buf]
  · rw [setBuf_other _ _ hj', hbuf, setBuf_other _ _ hj]
  · rw [State.setBuf, hu]

/-- The end of a window forgets the slots used on the link directions of its cluster (R178). -/
theorem usedSlots_reservationWindow (c : Cluster) (s : State) (k : Nat) (d : Dir) (n : Nat) :
    ({ s with str := { s.str with used := s.str.used.keep fun k _ => Unit.clusterOf k.1 != c } } : State).usedSlots k d n =
      if Unit.clusterOf k = c.val then 0 else s.usedSlots k d n := by
  simp only [State.usedSlots, Tab.findD, Tab.find_keep (fun q : Nat × Dir × Nat => Unit.clusterOf q.1 != c)]
  by_cases h : Unit.clusterOf k = c.val <;> simp [h]

/-! ### Reading and credits (R177, R189) -/

/-- A credit goes to the producer of a stream whose two ends are bound, up to the depth of its consumer. -/
theorem returnCredit_gives {s : State} {c n : Nat} {r : StreamRec} {v w : Port} (hr : s.stream c n = some r)
    (hw : s.endPort r.producer n = some w) (hv : s.endPort r.consumer n = some v) :
    (s.returnCredit c n).str = (s.setPort r.producer { w with credits := min (w.credits + 1) (2 ^ v.depthLog2) }).str ∧
      (s.returnCredit c n).coreStore = s.coreStore := by
  simp only [State.returnCredit, hr, hw, hv]
  rw [unblockPort_frame]
  split
  · rw [setOutWait_frame]
    exact ⟨rfl, rfl⟩
  · exact ⟨rfl, rfl⟩

theorem endPort_of_port {s : State} {p : PortId} {v : Port} {n : Nat} (h : s.port p = some v) (hn : v.stream = n) :
    s.endPort p n = some v := by
  simp [State.endPort, h, hn]

/-- The entries of a unit that does not run stay in place (R189). -/
theorem exec_creditReturn_idle {p : PortId} {s : State} (h : s.consumerRuns p = false) : exec (.creditReturn p) s = .next s := by
  simp [exec, execCreditReturn, h]

/-- A consumer takes the entry at the head of its FIFO, and its stream's producer is given a credit. -/
theorem readPort_takes {p : PortId} {s : State} {v : Port} {e : Entry} {rest : List Entry} (hv : s.port p = some v)
    (hf : v.fifo = e :: rest) (hs : v.stopped = false) :
    ∃ u : State, s.readPort p = (u.returnCredit p.cluster v.stream, some e) ∧
      u = { s.setPort p { v with fifo := rest, taken := 0, seen := v.seen.after e } with regs := u.regs } := by
  simp only [State.readPort, hv]
  rw [if_neg (by simp [hs])]
  simp only [hf]
  exact ⟨_, rfl, setInWait_frame ..⟩

/-- Of the ports only the consumer's and the producer's change: one loses an entry, the other gains a credit. -/
theorem exec_creditReturn_reads {p : PortId} {s : State} {v w : Port} {e : Entry} {rest : List Entry} {r : StreamRec}
    (hv : s.port p = some v) (hf : v.fifo = e :: rest) (hrun : s.consumerRuns p = true) (hs : v.stopped = false)
    (hr : s.stream p.cluster v.stream = some r) (hcons : r.consumer = p) (hne : r.producer ≠ p) (hw : s.port r.producer = some w)
    (hstream : w.stream = v.stream) :
    ∃ t, exec (.creditReturn p) s = .next t ∧ t.port p = some { v with fifo := rest, taken := 0, seen := v.seen.after e } ∧
      t.port r.producer = some { w with credits := min (w.credits + 1) (2 ^ v.depthLog2) } ∧
      (∀ p', p' ≠ p → p' ≠ r.producer → t.port p' = s.port p') ∧ t.str.bufs = s.str.bufs ∧ t.coreStore = s.coreStore := by
  obtain rfl := hcons
  obtain ⟨u, hread, hu⟩ := readPort_takes hv hf hs
  have hexec : exec (.creditReturn r.consumer) s = .next (u.returnCredit r.consumer.cluster v.stream) := by
    simp only [exec, execCreditReturn, hrun, if_true, hread]
  have hport (q : PortId) : u.port q = (s.setPort r.consumer { v with fifo := rest, taken := 0, seen := v.seen.after e }).port q :=
    port_congr (by rw [hu]) q
  have hup := (hport r.consumer).trans (setPort_port ..)
  have huw : u.port r.producer = some w := by rw [hport, setPort_other _ _ hne.symm, hw]
  have hur : u.stream r.consumer.cluster v.stream = some r := by rw [hu]; exact hr
  obtain ⟨hstr, hcore⟩ := returnCredit_gives hur (endPort_of_port huw hstream) (endPort_of_port hup rfl)
  refine ⟨_, hexec, ?_, ?_, fun q hq hq' => ?_, ?_, ?_⟩
  · rw [port_congr hstr, setPort_other _ _ hne, hup]
  · rw [port_congr hstr, setPort_port]
  · rw [port_congr hstr, setPort_other _ _ hq'.symm, hport, setPort_other _ _ hq.symm]
  · rw [hstr, hu]
    rfl
  · rw [hcore, hu]
    rfl

/-- Settles O25: a send, a forward and a read each come down to one port and one or two router buffers changed. -/
theorem flitsMoveByCredits : Obligations.FlitsMoveByCredits := by
  unfold Obligations.FlitsMoveByCredits
  refine ⟨fun k i s v e rest r => ?_, fun s k d cs c rr => chooseFlit_chooses,
    fun k d n s b e r rr hn hc x hx => exec_flitForward_moves hn hc hx,
    fun c s => ⟨_, rfl, rfl, usedSlots_reservationWindow c s⟩,
    fun p s v w e rest r hv hf hrun hs hr hcons hne hw hstream => exec_creditReturn_reads hv hf hrun hs hr hcons hne hw hstream,
    fun p s h => exec_creditReturn_idle h⟩
  intro p hv hs hf hr hp
  refine ⟨fun x hx hc hroom => ?sends, fun hc => ?waits, fun o => ?gives⟩
  case sends =>
    refine ⟨_, (exec_flitSend .clean hv hs).trans (congrArg _ (sendHead_of_credit hf hr hp hc hx hroom)), setPort_port s p _, setBuf_buf ..,
      fun b hb => ?_, regsBut_wr s _ _ _ _, rfl⟩
    rw [setBuf_other _ _ hb]
    rfl
  case waits =>
    exact ⟨_, (exec_flitSend .clean hv hs).trans (congrArg _ (sendHead_of_no_credit .clean hf hr hp hc)), hv, rd_wr_self .., rfl,
      regsBut_wr s _ _ _ _⟩
  case gives =>
    intro x hown hlen hc hrun hroom hend
    obtain ⟨u, w, hgive, hport, hstreams, hstream, hcred, hfifo⟩ := giveFlit_adds (p := p) hown hlen hrun hroom hend
    have hr' : u.stream p.cluster w.stream = some r := by simpa only [State.stream, hstreams, hstream] using hr
    have hf' : w.fifo = e :: (rest ++ [x]) := by rw [hfifo, hf]; rfl
    have hrun' := exec_flitSend_new o .clean hv hs
    rw [hgive, sendHead_of_no_credit .clean hf' hr' hp (hcred.trans hc)] at hrun'
    refine ⟨_, hrun', ?_⟩
    change (u.port p).map _ = _
    rw [hport, Option.map_some, hfifo]

end Machine
end Sys2Proof
end
